-- ==== Sys2Proof/Word.lean ====
section
/-! DEFINITION. Widths of the 6420's words, and the fixed-length tables the units keep.
Bit vectors hold what the manual treats as bits (register words, frame bytes, wrapping counts); a `Vector` holds a
table of a fixed number of like things (48 node records, 24 counters). -/

namespace Sys2Proof

abbrev Byte := BitVec 8
abbrev Half := BitVec 16
abbrev Word := BitVec 32

/-- A node's directory index, 0 to 47 (00_scope, "Identifiers"). -/
abbrev NodeIx := Fin 48

/-- A parcel slot, 0 to 15 (R111). -/
abbrev SlotIx := Fin 16

/-- An image bank, 0 to 2 (00_scope, "Banks"). -/
abbrev Bank := Fin 3

/-- The 48 directory indices in increasing order. -/
def allNodes : List NodeIx := List.finRange 48

/-- The 16 parcel slots in increasing order. -/
def allSlots : List SlotIx := List.finRange 16

/-- `v` with the entry at `i` replaced by `f` of it. -/
def tabModify {α : Type} {n : Nat} (v : Vector α n) (i : Fin n) (f : α → α) : Vector α n :=
  v.set i.val (f (v.get i)) i.isLt

/-- `f` of every entry of `v`, with its index, in a form the kernel evaluates. -/
def tabMap {α β : Type} {n : Nat} (f : Fin n → α → β) (v : Vector α n) : Vector β n :=
  ⟨⟨(List.finRange n).map fun i => f i (v.get i)⟩, by simp⟩

/-- The table whose every entry is `x`. -/
def tabFill {α : Type} (n : Nat) (x : α) : Vector α n :=
  ⟨⟨List.replicate n x⟩, by simp⟩

end Sys2Proof
end

