-- ==== Sys2Proof/Config.lean ====
section
/-! DEFINITION. What the 6420 fixes: register identity, fixed times, the map of the exchange area (Chapter 11), and the
two free values the manual leaves open, at the register port and on the request list. -/

namespace Sys2Proof.Config

/-- IDENT: vendor 0x4C, part 0x6420, revision 0x01 (Table 11-11, Table 11-13). -/
def identValue : Word := 0x4C642001

/-- The largest line address (R48); 0 is the broadcast address. -/
def maxAddress : Nat := 250

/-- SYNC byte of every frame (Section 11.3). -/
def syncByte : Byte := 0xD3

/-- The line rate at each bit rate code, in kbit/s (Table 0-4). -/
def lineRate (bitRate : Nat) : Nat :=
  match bitRate with
  | 0 => 500
  | 1 => 1000
  | 2 => 2000
  | _ => 4000

/-- Bit times of one byte on the line: a start bit, 8 data bits and a stop bit (R46). -/
def bitsPerByte : Nat := 10

/-- One byte time at each bit rate code (R46). Line time is counted in half microseconds, 2000 to a millisecond, so that a byte time of
2.5 µs is a whole number (Table 0-4). -/
def byteTime (bitRate : Nat) : Nat := bitsPerByte * 2000 / lineRate bitRate

/-- The close allowance of 40 µs (R36, R140), in half microseconds. -/
def closeAllowance : Nat := 80

/-- One unit of the cycle period, 10 µs (R28), in half microseconds. -/
def periodUnit : Nat := 20

/-- The settle time on leaving STILL, 2 ms (R157). -/
def settleMs : Nat := 2

/-- Size of the exchange area in bytes (R170, R172). -/
def areaBytes : Nat := 0x9000

/-- The largest image (Chapter 4). -/
def maxImageBytes : Nat := 3072

/-- The number of records of the event list (R104). -/
def eventRecords : Nat := 64

/-- The number of entries of the parcel queue (R112). -/
def parcelEntries : Nat := 6

/-- The number of entries of the stray set (R90). -/
def strayEntries : Nat := 16

/-- Failed attempts of one SEG or NEXT that fail a parcel (R122). -/
def parcelAttempts : Nat := 3

/-- Data bytes of one parcel segment (Section 7.5). -/
def segmentBytes : Nat := 48

/-! Offsets within the exchange area (Tables 11-1 and 11-2). -/

def offVersion : Nat := 0x00
def offGeneration : Nat := 0x04
def offOutputPublish : Nat := 0x08
def offInputHold : Nat := 0x0C
def offAskTotal : Nat := 0x10
def offEventsTaken : Nat := 0x14
def offStatAsk : Nat := 0x18
def offState : Nat := 0x40
def offCycleNumber : Nat := 0x44
def offOutputInUse : Nat := 0x48
def offInputPublish : Nat := 0x4C
def offEventsWritten : Nat := 0x50
def offAcceptedGeneration : Nat := 0x54
def offVerdict : Nat := 0x58
def offLineSettings : Nat := 0x100
def offDirectory : Nat := 0x140
def offStatus : Nat := 0x800
def offStatistics : Nat := 0xE00
def offEvents : Nat := 0x1000
def offSlots : Nat := 0x2000
def offOutputBanks : Nat := 0x4000
def offInputBanks : Nat := 0x6400

/-- Node status record `i` (Table 11-1). -/
def offStatusRecord (i : Nat) : Nat := offStatus + 32 * i

/-- Event record `n` (Table 11-1). -/
def offEventRecord (n : Nat) : Nat := offEvents + 32 * n

/-- Parcel slot `s` (Table 11-1). -/
def offSlot (s : Nat) : Nat := offSlots + 512 * s

/-- Output bank `b` (Table 11-1). -/
def offOutputBank (b : Nat) : Nat := offOutputBanks + 3072 * b

/-- Input bank `b`, its header first (Table 11-1). -/
def offInputBank (b : Nat) : Nat := offInputBanks + 3136 * b

/-- What a byte of host memory that nothing has written reads as (log 2: DESIGN CHOICE, unsafe). -/
def unwrittenByte : Byte := 0

/-- FREE VALUE (log 9). R173 gives five kinds of misuse and reports one kind. It does not say which is reported for an access
that is narrower than 32 bits and is also a misuse of another kind: here, whether the narrow kind (5) is, for an access of
the window's word `offset` that writes or reads. -/
opaque narrowKindReported (offset : Nat) (write : Bool) : Bool

/-- FREE VALUE (log 4). The `n`-th choice of how far an access moves ahead of the accesses that other blocks issue together with it,
which enter the request list "in either order" (R170). -/
opaque freeOrder (n : Nat) : Nat

end Sys2Proof.Config
end

