-- ==== Sys2Proof/Syntax.lean ====
section
/-! DEFINITION. The commands of the 6420: one constructor per row of spec/opcode_table.json, with what comes from outside the
part as its operands (a register value, a word on the bus, bytes on the line, elapsed time). -/

namespace Sys2Proof

/-- What the receiver meets on the line, one item at a time (R46, R54): the 10 bit times of a byte, bit `k` of `bits` the bit sent `k`
bit times after the first, from the start bit to the stop bit or what stands in its place; a line symbol a single driver does not
produce, which is a code violation; a gap of 2 bt or more behind it; at the head of a reply, carrier that was on the line already when
the reply timer started (R53). A start bit is 0 and a stop bit 1 here (log 62). -/
inductive LineItem where
  | serial (bits : BitVec 10)
  | violation
  | gap
  | present
  deriving DecidableEq, Repr

/-- What a contention window's slot held (R62): the items that began in it, carrier and gaps (none: []), whether the receiver was
still taking a frame when the slot ended, and, of slot 0, whether a clash seen since the WINDOW frame fell before the slot only. -/
structure SlotHeard where
  items : List LineItem
  overruns : Bool
  clashBefore : Bool := false
  deriving DecidableEq, Repr

/-- One access of the register window (R173): its byte offset in the 32-byte window, whether it writes, the value written, and
whether it is narrower than 32 bits. -/
structure PortAccess where
  offset : BitVec 5
  write : Bool
  data : Word
  narrow : Bool
  deriving DecidableEq, Repr

/-- The commands. Operands common to several of them:

* `host : Option Word`: for a word access of the bus-master engine that reads, the word the host (the owner of a host-owned
  word; the preparer of the area before start-up) has stored there since the part last saw it, or `none` when memory holds
  what it held. A read returns the word as memory holds it at the transfer (R170). A write takes no notice of it.
* `dt : Nat`: the time that has passed on the cycle timer, in half microseconds, since it was last advanced (R28, R36).
* `items`: what arrived on the line; a gap at the end tells that it has ended with 2 bt of quiet. -/
inductive Instr where
  | fullReset (pinLow : Bool)
  | softReset (control : Word)
  | softResetTakesEffect
  | requestRun (nudge : Bool)
  | requestHold (nudge : Bool)
  | requestRest (nudge : Bool)
  | requestStill (nudge : Bool)
  | nudge
  | areaWrite (value : Word)
  | causeWrite (value : Word)
  | maskWrite (value : Word)
  | faultViewWrite (value : Word)
  | portMisuse (access : PortAccess)
  | startupStepComplete (host : Option Word)
  | cycleTimerExpiry
  | reprobeCountdownExpiry (node : NodeIx)
  | patienceExpiry (slot : SlotIx)
  | statPeriodExpiry
  | openReady (dt : Nat)
  | frameStart
  | requestSent
  | replyTimerLimit
  | replyFrameEnd (items : List LineItem)
  | lineClash
  | guardEnd (dt : Nat)
  | slotEnd (heard : SlotHeard) (dt : Nat)
  | appendComplete
  | eventsTakenRead (host : Option Word) (dt : Nat)
  | withdrawCheck (host : Option Word) (dt : Nat)
  | abandonSent (dt : Nat)
  | slotVisit (host : Option Word)
  | answerWriteComplete
  | holdWordRead (host : Option Word)
  | inputPublish
  | cycleDivisorReached
  | closeComplete
  | holdFrameSent
  | heldLineQuiet
  | heldServiceEntry
  | alert (address : Byte)
  | unsolicitedFrame (items : List LineItem)
  | restFrameSent
  | lineActivity
  | rouseFrameSent
  | rouseTimerExpiry
  | settleTimerExpiry
  | memoryAccessComplete (host : Option Word) (dt : Nat)
  | memoryErrorResponse (dt : Nat)
  | snapshotEnd
  | resetNRelease
  deriving DecidableEq, Repr

end Sys2Proof
end

