-- ==== Sys2Proof/Machine/State.lean ====
section
/-! DEFINITION. The state of the 6420: every register, table, queue, timer and flag the manual gives its eleven blocks, the host
memory it reads and writes, and the queue of commands. Plain data. Each structure names the rule that gives it. -/

namespace Sys2Proof.Machine

/-! ## Reasons to stop: none is raised by any command -/

/-- The 6420 stops at nothing: its faults (Table 10-1) are captured in State and the part goes on. This type has no case, so no
command can end in a fault (nothing raises it; safe). -/
inductive Fault where
  deriving DecidableEq, Repr

/-- Why a command has no meaning. -/
inductive Refusal where
  /-- A command that has no meaning in this model yet: raised by no arm (every command of the table has its meaning). Safe. -/
  | notModelled (mnemonic : String)
  deriving DecidableEq, Repr

/-! ## Host memory -/

/-- Byte cells in canonical form: addresses strictly rising, no cell holding what an unlisted address reads as. -/
abbrev Memory := List Host.Cell

/-! ## Fault and interrupt unit (Chapter 10) -/

/-- The eight CAUSE bits (Table 10-2). -/
inductive CauseBit where
  | cycle | event | parcel | node | ladder | wake | fault | commit
  deriving DecidableEq, Repr

/-- Fault codes (Table 10-1). -/
inductive FaultCode where
  | memory | areaLayout | configRefused | imageBankInvalid | eventAckInvalid | ladderSkip | cycleOverrun | portMisuse
  deriving DecidableEq, Repr

/-- The 24 statistics counters, in the order of Table 10-3. -/
inductive Counter where
  | cyclesStarted | cycleOverruns | expiriesSkipped | pollsSent | pollAttemptFailures | nodeMisses | damagedFrames
  | replyTimeouts | unexpectedReplies | probesSent | windowsOpened | windowBids | windowClashes | strayFrames
  | eventsAppended | eventDuplicates | fetchesDeferred | alertsReceived | redundantIndications | parcelsTaken
  | parcelsDone | parcelsOtherwise | memoryErrors | commitsAccepted
  deriving DecidableEq, Repr

/-- The fault capture (R161). -/
structure Capture where
  valid : Bool
  code : BitVec 4
  detail : Half
  cycle : Word
  further : Byte
  deriving DecidableEq, Repr

/-- Snapshot state (R166). -/
inductive SnapState where
  | idle | writing | owed
  deriving DecidableEq, Repr

/-- A snapshot in progress (R167): the position of its write on the list, and the copy. -/
structure Snapshot where
  pos : Nat
  counters : Vector Word 24
  cycle : Word
  ask : Word
  totals : Vector (Word × Word) 48
  deriving DecidableEq, Repr

/-- State of the fault and interrupt unit (Chapter 10's opening list; R169). -/
structure FaultUnit where
  cause : Byte
  capture : Capture
  divisorCount : Nat
  /-- The divisor count has reached the divisor at a published close: CYCLE_DIVISOR_REACHED is due (R78). -/
  divisorDue : Bool
  counters : Vector Word 24
  periodCount : Nat
  /-- The period count has reached the period at this open: STAT_PERIOD_EXPIRY is due (R166). -/
  periodDue : Bool
  /-- The read of the stat ask word of this open is under way (R166). -/
  askReading : Bool
  /-- A snapshot has been triggered at this open and begins once both of its triggers are decided (R166). -/
  triggered : Bool
  askSeen : Word
  snapSeq : Word
  snapState : SnapState
  snapshot : Option Snapshot
  deriving DecidableEq, Repr

/-! ## Ladder controller (Chapter 9) -/

/-- Ladder states (Table 9-1). -/
inductive LadderState where
  | idle | starting | run | held | heldService | resting | rousing | still | settling
  deriving DecidableEq, Repr

/-- Requests (R147). -/
inductive Request where
  | run | hold | rest | still
  deriving DecidableEq, Repr

/-- What start-up keeps of a node status record (R110, step 3). -/
structure KeptStatus where
  address : Byte
  accepted : Byte
  valid : Bool
  deriving DecidableEq, Repr

/-- The access of start-up in progress (R149, steps 3 to 7). -/
inductive StartPos where
  | version
  | stateWord
  | inUse
  | inputPublish
  | eventsWritten
  | newest (word : Fin 8)
  | status (node : NodeIx) (word : Fin 6)
  /-- Step 5: the directory loader's commit check is made. -/
  | commit
  | sweepAsk (slot : SlotIx)
  | sweepTaken (slot : SlotIx) (ask : Half)
  | sweepAnswer (slot : SlotIx) (ask taken : Half)
  | sweepOutcome (slot : SlotIx) (taken : Half)
  | sweepNumber (slot : SlotIx) (taken : Half)
  | finalWord
  deriving DecidableEq, Repr

/-- Start-up in progress: where it stands and what its reads have kept (R149, R110, R131). -/
structure Startup where
  pos : StartPos
  version : Word
  newest : Option Word
  kept : Vector KeptStatus 48
  swept : Bool
  deriving DecidableEq, Repr

/-- State of the ladder controller (Table 9-2, R146), with what the manual implies of a transition in progress. -/
structure Ladder where
  state : LadderState
  pending : Option Request
  rouse : Option Nat
  settle : Option Nat
  wakeSeen : Bool
  faultHold : Bool
  startCount : Half
  resetWaiting : Bool
  /-- A soft reset has been written and waits for the current memory word (R170, R175). -/
  softPending : Bool
  /-- The line clock runs (stopped in STILL, R157; restarted by a soft reset written there, R159). -/
  lineClock : Bool
  /-- The HOLD frame of the last entry into HELD has been sent (R152). -/
  holdSent : Bool
  /-- The entry into HELD was named by a request, so its HOLD frame sets CAUSE.LADDER (R150). -/
  heldNamed : Bool
  /-- A STILL request has been taken in RESTING and its state word write is on its way (R145, R157). -/
  stilling : Bool
  startup : Option Startup
  /-- Held-line service waits for a report of the event unit (R152). -/
  serviceWait : Bool
  /-- Held-line service waits for its read of the events-taken word (R96 step 4, R97). -/
  serviceRead : Bool
  deriving DecidableEq, Repr

/-! ## Frames and exchanges (Chapter 3) -/

/-- Frame engine states (Table 3-1). -/
inductive FrameState where
  | off | sensing | listening | sending | awaiting | receiving | guarding | slotting
  deriving DecidableEq, Repr

/-- Exchange outcomes (Table 3-6). -/
inductive Attempt where
  | good | timeout | damaged | unexpected
  deriving DecidableEq, Repr

/-- An intact frame: HEAD, ADDR and payload (Table 3-2). -/
structure Frame where
  head : Byte
  address : Byte
  payload : List Byte
  deriving DecidableEq, Repr

/-- The exchange the frame engine carries out: the kind it sends (Table 3-3), the node addressed, the ack carried with ACKV
set (R98), and for the parcel kinds the slot, the tag and the segment byte (R57). -/
inductive Exchange where
  | poll (node : NodeIx) (ack : Option Byte)
  | probe (node : NodeIx)
  | fetch (node : NodeIx) (ack : Option Byte)
  | seg (node : NodeIx) (slot : SlotIx) (tag segment : Byte)
  | next (node : NodeIx) (slot : SlotIx) (tag segment : Byte)
  | abandon (node : NodeIx) (slot : SlotIx)
  | window
  | hold
  | rest
  | rouse
  deriving DecidableEq, Repr

/-- State of the frame engine (Chapter 3's opening list; R65). -/
structure FrameEngine where
  state : FrameState
  tx : List Byte
  /-- The frame given is on the line; before that SENDING is its turnaround wait (R52). -/
  onLine : Bool
  rx : Option Frame
  replyTimer : Option Nat
  toggles : Vector Bool 48
  clash : Bool
  exchange : Option Exchange
  outcome : Option Attempt
  /-- The slot of the window in progress (R62). -/
  slot : Nat
  /-- The receiver was still taking a frame when the current slot began (R62). -/
  spill : Bool
  /-- Carrier has begun in the guard of a failed outcome; what of it arrives after the outcome has been returned is unsolicited (R58,
  R61). -/
  late : Bool
  /-- The stretch of carrier on the line has been counted as a stray frame, and has not ended (R61). -/
  counted : Bool
  deriving DecidableEq, Repr

/-! ## Line scheduler (Chapter 2) -/

/-- Scheduler states (Table 2-1). -/
inductive SchedState where
  | stopped | opening | polling | windowing | fetching | parcelling | closing
  deriving DecidableEq, Repr

/-- An entry of the poll list (R33). -/
inductive PollEntry where
  | poll (node : NodeIx)
  | probe (node : NodeIx)
  deriving DecidableEq, Repr

/-- Where the node table's part of a cycle open stands (R17). -/
inductive NodeOpen where
  | waitCommit | expiring | writing | ready
  deriving DecidableEq, Repr

/-- Where the parcel unit's part of a cycle open stands: it waits for the loader and the node table; failed answers are written again;
patience has been lowered and entries at 0 expire; the scan trigger has been taken (R113, R124, R128). -/
inductive ParcelOpen where
  | waiting | rewriting | expiring | done
  deriving DecidableEq, Repr

/-- State of the line scheduler (Table 2-1, R27), with the readiness reports of the open (R31). -/
structure Scheduler where
  state : SchedState
  cycle : Word
  /-- The cycle timer: stopped, or the time left to its next expiry in half microseconds (R28). -/
  timer : Option Nat
  overrun : Bool
  /-- The window interval as read at the open of the cycle in progress (R37). -/
  interval : Nat
  probeStart : NodeIx
  passedOver : Vector Bool 48
  pollList : List PollEntry
  /-- Attempts left after the one in progress, of the POLL or FETCH exchange in progress (R34, R38). -/
  attempts : Nat
  /-- The fetch phase waits for a read of the events-taken word (R96 step 4). -/
  fetchRead : Bool
  /-- The parcel phase waits for the withdraw check of this slot's entry (R119). -/
  withdrawRead : Option SlotIx
  loaderReady : Bool
  imageReady : Bool
  nodeOpen : NodeOpen
  parcelOpen : ParcelOpen
  /-- Opens announced whose parcel steps wait for those of an open before to end (log 47). -/
  parcelOwed : Nat
  deriving DecidableEq, Repr

/-! ## Node table (Chapter 1) -/

/-- Loss policy (Table 1-1). -/
inductive LossPolicy where
  | keep | clear
  deriving DecidableEq, Repr

/-- The six node states (Table 1-3). -/
inductive NodeState where
  | excluded | probing | live | suspect | lost | misfit
  deriving DecidableEq, Repr

/-- Misfit reasons (Table 1-2). -/
inductive MisfitReason where
  | none | kind | outputLength | inputLength
  deriving DecidableEq, Repr

/-- The applied part of a node record (Table 1-1). -/
structure NodeEntry where
  enabled : Bool
  address : Byte
  expectedKind : Byte
  periodClass : Nat
  phase : Nat
  outOffset : Nat
  outLength : Nat
  inOffset : Nat
  inLength : Nat
  replyTimeout : Nat
  retries : Nat
  missLimit : Nat
  reprobeDelay : Nat
  loss : LossPolicy
  eventsEnabled : Bool
  deriving DecidableEq, Repr

/-- A node record: the applied part, and the live part of Table 1-2. -/
structure NodeRecord where
  applied : NodeEntry
  state : NodeState
  missCount : Nat
  /-- The re-probe countdown, or `none` when stopped (R16). -/
  countdown : Option Nat
  changeCount : Half
  degraded : Bool
  fresh : Bool
  kindSeen : Byte
  revisionSeen : Byte
  misfit : MisfitReason
  lastGood : Word
  pollTotal : Word
  missTotal : Word
  statusOwed : Bool
  deriving DecidableEq, Repr

/-- A write of a node's status record (R20); `cause`: it is step 5 of a state change, whose step 6 sets CAUSE.NODE once it has
ended (R5). -/
structure StatusWrite where
  node : NodeIx
  cause : Bool
  deriving DecidableEq, Repr

/-- The node table: its records, and the status records it has to write, the first of them in progress (R20). -/
structure NodeTable where
  records : Vector NodeRecord 48
  writes : List StatusWrite
  deriving DecidableEq, Repr

/-! ## Image unit (Chapter 4) -/

/-- A close being written (R74, R75): the fill bank once chosen, the position of the write on the list, and the maps the node
table supplied as it began. -/
structure CloseJob where
  fill : Option Bank
  pos : Nat
  live : BitVec 48
  fresh : BitVec 48
  deriving DecidableEq, Repr

/-- An output slice being read for a POLL attempt (R69): the node, the ack its POLL will carry, the words read so far
(newest first) and the words still to read. -/
structure SliceRead where
  node : NodeIx
  ack : Option Byte
  got : List Word
  left : Nat
  deriving DecidableEq, Repr

/-- State of the image unit (Table 4-1). The input shadow is kept as cells; every other byte of it is zero. -/
structure ImageUnit where
  inUse : Option Bank
  countTaken : BitVec 24
  takeOwed : Bool
  lastPublished : Option Bank
  publishCount : BitVec 24
  shadow : Memory
  close : Option CloseJob
  slice : Option SliceRead
  deriving DecidableEq, Repr

/-! ## Window unit (Chapter 5) -/

/-- The window sizes (Table 5-1). -/
inductive WindowSize where
  | w2 | w4 | w8 | w16 | w32
  deriving DecidableEq, Repr

/-- Origin of a stray set entry (Table 5-5). -/
inductive StrayOrigin where
  | bid | alert
  deriving DecidableEq, Repr

/-- An entry of the stray set (Table 5-5); `pendingNote` is the note state NOTE-PENDING. -/
structure Stray where
  address : Byte
  origin : StrayOrigin
  kind : Byte
  count : Nat
  lastNote : Nat
  pendingNote : Bool
  deriving DecidableEq, Repr

/-- The four slot tallies (Table 5-1). -/
structure Tallies where
  empty : Nat
  bid : Nat
  stray : Nat
  clash : Nat
  deriving DecidableEq, Repr

/-- State of the window unit (Table 5-1); `isOpen` is the window state OPEN. -/
structure WindowUnit where
  size : WindowSize
  streak : Fin 4
  lastClash : Bool
  isOpen : Bool
  tallies : Tallies
  strays : List Stray
  deriving DecidableEq, Repr

/-! ## Event unit (Chapter 6) -/

/-- Latch origins (Table 6-1). -/
inductive LatchOrigin where
  | data | bid | alert
  deriving DecidableEq, Repr

/-- Per-node event state (Table 6-1). -/
structure NodeEvents where
  latch : Bool
  origin : LatchOrigin
  accepted : Byte
  valid : Bool
  ackOwed : Bool
  fetched : Bool
  intake : Bool
  deriving DecidableEq, Repr

/-- Whose record an append writes: a node's event with its sequence number and MORE flag (R102), or a stray note with the
address and sighting count offered (R91). -/
inductive AppendFor where
  | event (node : NodeIx) (seq : Byte) (more : Bool)
  | note (address : Byte) (count : Nat)
  deriving DecidableEq, Repr

/-- An append waiting or in progress (R104). `detached`: its node has left LIVE or SUSPECT since, so its completion does
nothing in the queue; `void`: a commit has re-created its node or emptied the stray set since (R108, R92). -/
structure Append where
  what : AppendFor
  record : List Word
  detached : Bool
  void : Bool
  deriving DecidableEq, Repr

/-- A read of the events-taken word under way: whether every request folded into it was made on a FETCH request (R106). -/
structure TakenRead where
  onFetch : Bool
  deriving DecidableEq, Repr

/-- State of the event unit (Table 6-2). -/
structure EventUnit where
  nodes : Vector NodeEvents 48
  queue : List NodeIx
  written : Word
  taken : Word
  takenInvalid : Bool
  appendStopped : Bool
  claimed : Nat
  noteUnderWay : Bool
  appends : List Append
  /-- The position of the first append's access on the list, or `none` when it has not begun (R104). -/
  appending : Option Nat
  /-- The node whose event was last appended and whose status record is still owed after a failed event-part write: no append
  begins meanwhile (R104). -/
  blockedBy : Option NodeIx
  takenRead : Option TakenRead
  deriving DecidableEq, Repr

/-! ## Parcel unit (Chapter 7) -/

/-- Parcel operations (R111). -/
inductive Operation where
  | read | write | invoke
  deriving DecidableEq, Repr

/-- Parcel outcomes (Table 7-4). -/
inductive ParcelOutcome where
  | done | nodeRejected | nodeUnavailable | nodeLost | transferFailed | timedOut | withdrawn | refusedRequest | interrupted
  deriving DecidableEq, Repr

/-- Transfer states (Table 7-3). -/
inductive Transfer where
  | waiting
  | sending (n : Nat)
  | asking (n : Nat)
  | finishing
  deriving DecidableEq, Repr

/-- An entry of the parcel queue (Table 7-3). `given` and `passed` are its marks in the current pass and phase (R118, R119). -/
structure Parcel where
  slot : SlotIx
  ask : Half
  node : NodeIx
  address : Byte
  operation : Operation
  parameter : Half
  request : List Byte
  reply : List Byte
  total : Nat
  transfer : Transfer
  attempts : Nat
  patience : Nat
  segSent : Bool
  pastCutoff : Bool
  outcome : ParcelOutcome
  nodeStatus : Byte
  abandonOwed : Bool
  answerFailed : Bool
  given : Bool
  passed : Bool
  /-- The number of the cycle it was taken in or after: no open up to that one lowers its patience (R124). -/
  takenIn : Word
  deriving DecidableEq, Repr

/-- What is to be answered (R127): an entry of the queue, a slot the walk decides at once (R116), or the deferred answer. -/
inductive AnswerFor where
  | entry (slot : SlotIx)
  | immediate (slot : SlotIx) (ask : Half) (outcome : ParcelOutcome)
  | deferred
  deriving DecidableEq, Repr

/-- The answer in progress: its withdraw check, or the writes left, the first of them on the list. -/
inductive AnswerPos where
  | checking
  | writing (left : List (Nat × Word))
  deriving DecidableEq, Repr

/-- The deferred answer (R116). -/
structure Deferred where
  slot : SlotIx
  taken : Half
  outcome : ParcelOutcome
  deriving DecidableEq, Repr

/-- What a visit has read of a slot, in the order of R178, for a take (R115), and the record that carried the target address
then (log 35). -/
structure SlotHeader where
  node : NodeIx
  ask : Half
  target : Byte
  operation : Operation
  parameter : Half
  length : Nat
  deriving DecidableEq, Repr

/-- Where a walk stands (R113 to R116): the slot visited and how many slots are left, itself included. `total` is the read of
the ask total that precedes a walk. -/
inductive Walk where
  | idle
  | total
  | visit (slot : SlotIx) (left : Nat) (got : List Word)
  | copying (slot : SlotIx) (left : Nat) (header : SlotHeader) (got : List Word)
  | taking (slot : SlotIx) (left : Nat) (header : SlotHeader) (request : List Byte)
  | answering (slot : SlotIx) (left : Nat)
  deriving DecidableEq, Repr

/-- How the access in progress ended that the parcel unit had on the bus as RESTING was entered: a walk's or an answer's, with the word
read or written, or `none` after an error response (R129; log 37). -/
inductive ParcelEnd where
  | walk (word : Option Word)
  | answer (word : Option Word)
  deriving DecidableEq, Repr

/-- State of the parcel unit (Table 7-2). `keptEnd` and `keptTrigger` are the model's own (log 37): what the parcel unit takes once the
line is held again, since at rest it acts on nothing (R129). -/
structure ParcelUnit where
  queue : List Parcel
  cursor : SlotIx
  totalSeen : Word
  scanOwed : Bool
  walk : Walk
  /-- A scan trigger came while the ask total was being read (log 20). -/
  triggerAgain : Bool
  deferred : Option Deferred
  passPos : Option Nat
  /-- An exchange has been named in the current pass (R118). -/
  passNamed : Bool
  answers : List AnswerFor
  answering : Option AnswerPos
  keptEnd : Option ParcelEnd
  keptTrigger : Bool
  deriving DecidableEq, Repr

/-! ## Directory loader (Chapter 8) -/

/-- The line settings (Table 8-2). -/
structure LineSettings where
  bitRate : Nat
  initialWindow : Nat
  windowInterval : Nat
  cycleDivisor : Nat
  cyclePeriod : Nat
  statPeriod : Nat
  rouseTime : Nat
  outBytes : Nat
  inBytes : Nat
  patience : Nat
  defaultTimeout : Nat
  deriving DecidableEq, Repr

/-- Verdict codes (Table 8-4), and NONE. -/
inductive VerdictCode where
  | none | accepted | badLineSetting | badAddress | duplicateAddress | badTiming | sliceOutside | sliceOverlap
  | lineChangeInRun | pollBudget
  deriving DecidableEq, Repr

/-- The last verdict: code, entry index, residue and the low 8 bits of the generation judged (R141, R143). -/
structure Verdict where
  code : VerdictCode
  entry : Byte
  residue : Byte
  generation : Byte
  deriving DecidableEq, Repr

/-- What made a commit check (R135): a cycle open, a NUDGE in HELD, a check owed on return from HELD-SERVICE, start-up. -/
inductive CheckFrom where
  | opening | nudge | owed | startup
  deriving DecidableEq, Repr

/-- Where a commit check stands (R135, R136, R141, R143). -/
inductive CheckPos where
  | rewriteVerdict
  | rewriteGeneration
  | readGeneration
  | readDirectory
  | rereadGeneration
  | awaitHeld
  | awaitStatus
  | writeVerdict
  | writeGeneration
  deriving DecidableEq, Repr

/-- A commit check in progress: the generation read, and the directory words read so far (newest first). -/
structure Check where
  origin : CheckFrom
  pos : CheckPos
  generation : Word
  words : List Word
  deriving DecidableEq, Repr

/-- State of the directory loader (Table 8-1). The applied entries are the applied parts of the node records. `generationOwed` tells
that the accepted generation word is among the words that verdict owed stands for (R143). -/
structure Loader where
  settings : LineSettings
  accepted : Word
  refused : Option Word
  verdict : Verdict
  checkOwed : Bool
  verdictOwed : Bool
  generationOwed : Bool
  check : Option Check
  deriving DecidableEq, Repr

/-! ## Bus-master engine (R170) -/

/-- Which block issued an access, and which of its accesses it is. -/
inductive Source where
  | stateWord
  | startup
  | loader
  | status (word : Fin 4)
  | outTake
  | outInUse
  | slice
  | close
  | cycleWord
  | eventsTaken
  | append
  | walk
  | withdraw
  | answer
  | statAsk
  | snapshot
  /-- A word of a snapshot that has been cut since (R168): nothing goes on from it. -/
  | cut
  deriving DecidableEq, Repr

/-- A word access on the request list: its offset in the exchange area, the word written or `none` for a read, and its source. -/
structure Access where
  offset : Nat
  write : Option Word
  source : Source
  deriving DecidableEq, Repr

/-! ## The machine -/

/-- The registers the system port holds itself (R174, R164, R176), and whether RESET_N is held low (R173). -/
structure Port where
  area : Word
  mask : Byte
  view : Bool
  resetLow : Bool
  deriving DecidableEq, Repr

/-- The blocks of the 6420, but for the port's own registers. `bus` is the bus-master engine's request list, its first access the one in
progress, and `parked` what waits for the line to be held again (R129, log 37); `arb` is the model's own count of the free choices taken
(log 4). -/
structure Part where
  faults : FaultUnit
  ladder : Ladder
  frames : FrameEngine
  sched : Scheduler
  table : NodeTable
  images : ImageUnit
  windows : WindowUnit
  events : EventUnit
  parcels : ParcelUnit
  loader : Loader
  bus : List Access
  parked : List Access
  arb : Nat
  deriving DecidableEq, Repr

/-- The 6420, the host memory it works on, and the commands that wait. -/
structure State where
  port : Port
  part : Part
  mem : Memory
  pending : List Instr
  deriving DecidableEq, Repr

/-! ## Reset values -/

/-- The empty capture (R162, R169). -/
def Capture.empty : Capture :=
  { valid := false, code := 0, detail := 0, cycle := 0, further := 0 }

/-- R169. -/
def FaultUnit.reset : FaultUnit :=
  { cause := 0, capture := Capture.empty, divisorCount := 0, divisorDue := false, counters := tabFill 24 0,
    periodCount := 0, periodDue := false, askReading := false, triggered := false, askSeen := 0, snapSeq := 0,
    snapState := .idle, snapshot := none }

/-- R146. -/
def Ladder.reset : Ladder :=
  { state := .idle, pending := none, rouse := none, settle := none, wakeSeen := false, faultHold := false,
    startCount := 0, resetWaiting := false, softPending := false, lineClock := true, holdSent := false,
    heldNamed := false, stilling := false, startup := none, serviceWait := false, serviceRead := false }

/-- R65. -/
def FrameEngine.reset : FrameEngine :=
  { state := .off, tx := [], onLine := false, rx := none, replyTimer := none, toggles := tabFill 48 true, clash := false,
    exchange := none, outcome := none, slot := 0, spill := false, late := false, counted := false }

/-- R27. -/
def Scheduler.reset : Scheduler :=
  { state := .stopped, cycle := 0, timer := none, overrun := false, interval := 0, probeStart := 0, passedOver := tabFill 48 false,
    pollList := [], attempts := 0, fetchRead := false, withdrawRead := none, loaderReady := false, imageReady := false,
    nodeOpen := .waitCommit, parcelOpen := .done, parcelOwed := 0 }

/-- The cleared applied part (R24). -/
def NodeEntry.cleared : NodeEntry :=
  { enabled := false, address := 0, expectedKind := 0, periodClass := 1, phase := 0, outOffset := 0, outLength := 0,
    inOffset := 0, inLength := 0, replyTimeout := 0, retries := 0, missLimit := 1, reprobeDelay := 0, loss := .keep,
    eventsEnabled := false }

/-- R24. -/
def NodeRecord.reset : NodeRecord :=
  { applied := NodeEntry.cleared, state := .excluded, missCount := 0, countdown := none, changeCount := 0,
    degraded := false, fresh := false, kindSeen := 0, revisionSeen := 0, misfit := .none, lastGood := 0, pollTotal := 0,
    missTotal := 0, statusOwed := false }

/-- R24. -/
def NodeTable.reset : NodeTable :=
  { records := tabFill 48 NodeRecord.reset, writes := [] }

/-- R66. -/
def ImageUnit.reset : ImageUnit :=
  { inUse := none, countTaken := 0, takeOwed := false, lastPublished := none, publishCount := 0, shadow := [],
    close := none, slice := none }

/-- R81. -/
def WindowUnit.reset : WindowUnit :=
  { size := .w2, streak := 0, lastClash := false, isOpen := false,
    tallies := { empty := 0, bid := 0, stray := 0, clash := 0 }, strays := [] }

/-- R93, Table 6-1. -/
def NodeEvents.reset : NodeEvents :=
  { latch := false, origin := .data, accepted := 0, valid := false, ackOwed := false, fetched := false, intake := false }

/-- R93, Table 6-2. -/
def EventUnit.reset : EventUnit :=
  { nodes := tabFill 48 NodeEvents.reset, queue := [], written := 0, taken := 0, takenInvalid := false,
    appendStopped := false, claimed := 0, noteUnderWay := false, appends := [], appending := none,
    blockedBy := none, takenRead := none }

/-- R112. -/
def ParcelUnit.reset : ParcelUnit :=
  { queue := [], cursor := 0, totalSeen := 0, scanOwed := false, walk := .idle, triggerAgain := false, deferred := none,
    passPos := none, passNamed := false, answers := [], answering := none, keptEnd := none, keptTrigger := false }

/-- R132: every field 0. -/
def LineSettings.cleared : LineSettings :=
  { bitRate := 0, initialWindow := 0, windowInterval := 0, cycleDivisor := 0, cyclePeriod := 0, statPeriod := 0,
    rouseTime := 0, outBytes := 0, inBytes := 0, patience := 0, defaultTimeout := 0 }

/-- R132. Table 8-1 gives the last verdict NONE and nothing more: that its entry index, residue and generation bits are 0 meanwhile is a
DESIGN CHOICE (log 61), safe, since no NONE verdict is ever written. -/
def Loader.reset : Loader :=
  { settings := LineSettings.cleared, accepted := 0, refused := none,
    verdict := { code := .none, entry := 0, residue := 0, generation := 0 }, checkOwed := false, verdictOwed := false,
    generationOwed := false, check := none }

/-- Every block at its reset values. -/
def Part.reset : Part :=
  { faults := FaultUnit.reset, ladder := Ladder.reset, frames := FrameEngine.reset, sched := Scheduler.reset,
    table := NodeTable.reset, images := ImageUnit.reset, windows := WindowUnit.reset, events := EventUnit.reset,
    parcels := ParcelUnit.reset, loader := Loader.reset, bus := [], parked := [], arb := 0 }

/-- The register values after a full reset, RESET_N released (R177). -/
def Port.reset : Port :=
  { area := 0, mask := 0, view := false, resetLow := false }

/-- The machine right after a full reset, with nothing written in memory and no command waiting (R159, R177). -/
def State.reset : State :=
  { port := Port.reset, part := Part.reset, mem := [], pending := [] }

end Sys2Proof.Machine
end

