-- ==== Sys2Proof/Machine/Ops.lean ====
section
/-! DEFINITION. Host memory in its canonical form, the little-endian word on it (R172), and the bus-master engine's request list
(R170). -/

namespace Sys2Proof.Machine

/-! ## Memory -/

/-- No cell below `lo`, addresses strictly rising, and no cell holding what an unlisted address reads as. -/
def Memory.wfFrom (lo : Nat) : Memory → Bool
  | [] => true
  | (a, b) :: rest => decide (lo ≤ a) && b != Config.unwrittenByte && Memory.wfFrom (a + 1) rest

/-- The canonical form: equal memories are equal lists. -/
def Memory.wf (m : Memory) : Bool := Memory.wfFrom 0 m

/-- The byte at an address. -/
def Memory.readByte : Memory → Nat → Byte
  | [], _ => Config.unwrittenByte
  | (k, b) :: rest, a => if k = a then b else Memory.readByte rest a

/-- `m` with the byte at an address replaced; a byte that equals what an unlisted address reads as is not listed. -/
def Memory.writeByte : Memory → Nat → Byte → Memory
  | [], a, b => if b = Config.unwrittenByte then [] else [(a, b)]
  | (k, c) :: rest, a, b =>
    if a < k then
      if b = Config.unwrittenByte then (k, c) :: rest else (a, b) :: (k, c) :: rest
    else if a = k then
      if b = Config.unwrittenByte then rest else (a, b) :: rest
    else (k, c) :: Memory.writeByte rest a b

/-- Consecutive bytes written from an address up. -/
def Memory.writeBytes : Memory → Nat → List Byte → Memory
  | m, _, [] => m
  | m, a, b :: rest => Memory.writeBytes (m.writeByte a b) (a + 1) rest

/-- `n` consecutive bytes from an address up. -/
def Memory.readBytes (m : Memory) (a : Nat) (n : Nat) : List Byte :=
  (List.range n).map fun k => m.readByte (a + k)

/-- The four bytes of a word, least significant first (R172). -/
def wordBytes (w : Word) : List Byte :=
  [w.extractLsb' 0 8, w.extractLsb' 8 8, w.extractLsb' 16 8, w.extractLsb' 24 8]

/-- The word of four bytes, least significant first (R172). -/
def wordOf (b0 b1 b2 b3 : Byte) : Word := b3 ++ b2 ++ b1 ++ b0

/-- The word at an address. -/
def Memory.readWord (m : Memory) (a : Nat) : Word :=
  wordOf (m.readByte a) (m.readByte (a + 1)) (m.readByte (a + 2)) (m.readByte (a + 3))

/-- A word written in one transfer of its four bytes (R170). -/
def Memory.writeWord (m : Memory) (a : Nat) (w : Word) : Memory := m.writeBytes a (wordBytes w)

/-- The cells at `lo` up to and not including `hi` removed: those bytes then read as zero. -/
def Memory.clear (m : Memory) (lo hi : Nat) : Memory :=
  m.filter fun c => decide (c.1 < lo) || decide (hi ≤ c.1)

/-- The bus address of an area offset: AREA plus the offset (R170), modulo 2^32 (log 3). -/
def busAddress (area : Word) (offset : Nat) : Nat := (area + BitVec.ofNat 32 offset).toNat

/-! ## The bus-master engine -/

/-- The block an access comes from, for the order its accesses keep (R170). -/
def Source.block : Source → Nat
  | .stateWord | .startup => 0
  | .loader => 1
  | .status _ => 2
  | .outTake | .outInUse | .slice | .close => 3
  | .cycleWord => 4
  | .eventsTaken | .append => 5
  | .walk | .withdraw | .answer => 6
  | .statAsk | .snapshot | .cut => 7

/-- An access put at the end of the request list (R170). -/
def Part.issue (p : Part) (a : Access) : Part := { p with bus := p.bus ++ [a] }

/-- A read of the word at `offset`. -/
def Part.issueRead (p : Part) (source : Source) (offset : Nat) : Part :=
  p.issue { offset := offset, write := none, source := source }

/-- A write of `w` to the word at `offset`. -/
def Part.issueWrite (p : Part) (source : Source) (offset : Nat) (w : Word) : Part :=
  p.issue { offset := offset, write := some w, source := source }

/-- The accesses `new`, issued together, put into `placed` in an order taken from the free choices, the next of them number `n`: each
may go before as many of those already placed as come from other blocks. "When two blocks issue accesses together, they enter
the list in either order. The accesses of any one block keep the order" (R170; log 4). -/
def placeTogether : List Access → List Access → Nat → List Access × Nat
  | placed, [], n => (placed, n)
  | placed, a :: rest, n =>
    let room := (placed.reverse.takeWhile fun b => b.source.block != a.source.block).length
    if room = 0 then placeTogether (placed ++ [a]) rest n
    else
      let at' := placed.length - Config.freeOrder n % (room + 1)
      placeTogether (placed.take at' ++ a :: placed.drop at') rest (n + 1)

/-- The states in which the line rests or is on its way to or from rest: of memory work only the ladder controller's own begins
there (Table 9-1). -/
def LadderState.pauses : LadderState → Bool
  | .resting | .rousing | .still | .settling => true
  | .idle | .starting | .run | .held | .heldService => false

/-- Whether an access that a block asks for now is issued, or waits for the line to be held again (log 37). -/
def Part.admits (p : Part) (a : Access) : Bool := !p.ladder.state.pauses || a.source == .stateWord

/-- The accesses asked for since the list held `old` of them: issued in one of the orders R170 allows, or waiting for the line to be held
again. -/
def Part.arbitrate (old : Nat) (p : Part) : Part :=
  let placed := placeTogether [] (p.bus.drop old) p.arb
  { p with bus := p.bus.take old ++ placed.1.filter p.admits,
           parked := p.parked ++ placed.1.filter (!p.admits ·), arb := placed.2 }

/-- The line is held again: the accesses that waited for it are issued. -/
def Part.resumeWork (p : Part) : Part := { p with bus := p.bus ++ p.parked, parked := [] }

/-- The accesses that blocks ask for and that have not ended. -/
def Part.requested (p : Part) : List Access := p.bus ++ p.parked

/-! ## Lists of directory indices -/

/-- `xs` without `x` (R95 removal; each index stands at most once). -/
def removeNode (x : NodeIx) (xs : List NodeIx) : List NodeIx := xs.filter (· != x)

end Sys2Proof.Machine
end

