-- ==== Sys2Proof/Machine/Flags.lean ====
section
/-! DEFINITION. The fault and interrupt unit's registers: CAUSE, the fault capture, IRQ_N and the statistics counters (R160 to
R165). -/

namespace Sys2Proof.Machine

/-- Bit positions in CAUSE and MASK (Table 11-11). -/
def CauseBit.position : CauseBit → Nat
  | .cycle => 0 | .event => 1 | .parcel => 2 | .node => 3 | .ladder => 4 | .wake => 5 | .fault => 6 | .commit => 7

/-- The CAUSE word with one bit set. -/
def CauseBit.mask (b : CauseBit) : Byte := 1#8 <<< b.position

/-- Whether a CAUSE bit is set. -/
def Part.hasCause (p : Part) (b : CauseBit) : Bool := p.faults.cause.getLsbD b.position

/-- A setting event of a CAUSE bit; a bit already set stays set (R163). -/
def Part.setCause (p : Part) (b : CauseBit) : Part :=
  { p with faults := { p.faults with cause := p.faults.cause ||| b.mask } }

/-- IRQ_N (R164): true is high (released), false is low (driven). -/
def irqN (cause mask : Byte) : Bool := cause &&& mask == 0

/-- A counter's place in Table 10-3, from 0. -/
def Counter.index : Counter → Fin 24
  | .cyclesStarted => 0 | .cycleOverruns => 1 | .expiriesSkipped => 2 | .pollsSent => 3 | .pollAttemptFailures => 4
  | .nodeMisses => 5 | .damagedFrames => 6 | .replyTimeouts => 7 | .unexpectedReplies => 8 | .probesSent => 9
  | .windowsOpened => 10 | .windowBids => 11 | .windowClashes => 12 | .strayFrames => 13 | .eventsAppended => 14
  | .eventDuplicates => 15 | .fetchesDeferred => 16 | .alertsReceived => 17 | .redundantIndications => 18
  | .parcelsTaken => 19 | .parcelsDone => 20 | .parcelsOtherwise => 21 | .memoryErrors => 22 | .commitsAccepted => 23

/-- A counter's value. -/
def Part.counter (p : Part) (c : Counter) : Word := p.faults.counters.get c.index

/-- A counter raised by 1, wrapping (R165). -/
def Part.count (p : Part) (c : Counter) : Part :=
  { p with faults := { p.faults with counters := tabModify p.faults.counters c.index (· + 1) } }

/-- Fault codes as the FAULT register carries them (Section 11.4). -/
def FaultCode.code : FaultCode → BitVec 4
  | .memory => 1 | .areaLayout => 2 | .configRefused => 3 | .imageBankInvalid => 4 | .eventAckInvalid => 5
  | .ladderSkip => 6 | .cycleOverrun => 7 | .portMisuse => 8

/-- The capture takes a report (R161): the first since CAUSE.FAULT was clear in full, those after it in the further-fault
count, which stops at 255. -/
def Capture.take (c : Capture) (alreadySet : Bool) (code : FaultCode) (detail : Half) (cycle : Word) : Capture :=
  if alreadySet then
    { c with further := if c.further = 255 then 255 else c.further + 1 }
  else
    { valid := true, code := code.code, detail := detail, cycle := cycle, further := 0 }

/-- MEMORY, step 1 of R160: "memory errors" rises, and the ladder controller sets fault-hold outside STARTING (R158). -/
def Part.noteMemoryError (p : Part) : Part :=
  let p := p.count .memoryErrors
  { p with ladder := { p.ladder with faultHold := p.ladder.faultHold || p.ladder.state != .starting } }

/-- A fault report (R160). -/
def Part.report (p : Part) (code : FaultCode) (detail : Half) : Part :=
  let p := if code = .memory then p.noteMemoryError else p
  let capture := p.faults.capture.take (p.hasCause .fault) code detail p.sched.cycle
  { p with faults := { p.faults with capture := capture, cause := p.faults.cause ||| CauseBit.fault.mask } }

/-- A write of 1 to CAUSE.FAULT while it is set: the bit and the whole capture cleared (R162); the ladder controller is told by
the caller. -/
def Part.clearFault (p : Part) : Part :=
  { p with faults := { p.faults with capture := Capture.empty, cause := p.faults.cause &&& ~~~ CauseBit.fault.mask } }

/-- FAULT as it reads in the view selected (Table 11-11). -/
def Capture.read (c : Capture) (view : Bool) : Word :=
  if view then c.cycle
  else (BitVec.ofBool c.valid) ++ 0#3 ++ c.code ++ c.further ++ c.detail

end Sys2Proof.Machine
end

