-- ==== Sys2Proof/Machine/Operands.lean ====
section
/-! DEFINITION. What the commands carry in and out: frame bytes and their check (Sections 3.2, 3.3, 11.3), what the receiver makes
of the line (R46, R54), and the word layouts of the exchange area (Tables 11-2 to 11-9). -/

/-! ## Bytes on the line (R46) -/

namespace Sys2Proof

/-- A byte in its 10 bit times: the start bit first, the 8 data bits least significant first, the stop bit last (R46; log 62). -/
def serialBits (b : Byte) : BitVec 10 := 1#1 ++ b ++ 0#1

/-- A well-framed byte on the line. -/
def LineItem.byte (b : Byte) : LineItem := .serial (serialBits b)

/-- The byte the receiver takes from the line: the data bits behind a start bit and before a stop bit. Without its stop bit it is a framing
error, which the receiver treats as a code violation, and no byte (R46, R54). -/
def LineItem.byte? : LineItem → Option Byte
  | .serial bits => if !bits.getLsbD 0 && bits.getLsbD 9 then some (bits.extractLsb' 1 8) else none
  | .violation | .gap | .present => none

end Sys2Proof

namespace Sys2Proof.Machine

/-- Byte `k` of a word, 0 the least significant. -/
def byteAt (w : Word) (k : Nat) : Byte := w.extractLsb' (8 * k) 8

/-- Half `k` of a word, 0 the lower. -/
def halfAt (w : Word) (k : Nat) : Half := w.extractLsb' (16 * k) 16

/-- Byte `k` of a payload; a payload shorter than its kind's LEN does not reach the readers of its bytes. -/
def payloadByte (bytes : List Byte) (k : Nat) : Byte := bytes.getD k 0

/-! ## The check sequence (R49) -/

/-- One bit of the check: x^16 + x^12 + x^5 + 1, most significant bit first. -/
def crcBit (c : Half) : Half := if c.msb then (c <<< 1) ^^^ 0x1021#16 else c <<< 1

/-- One byte of the check. -/
def crcByte (c : Half) (b : Byte) : Half :=
  let c := c ^^^ (b ++ 0#8)
  crcBit (crcBit (crcBit (crcBit (crcBit (crcBit (crcBit (crcBit c)))))))

/-- The check over HEAD, ADDR, LEN and the payload: initial value 0xFFFF, no final inversion (R49). -/
def crc16 (bytes : List Byte) : Half := bytes.foldl crcByte 0xFFFF#16

/-! ## Frames the part sends (R48, R50) -/

/-- The ten kinds the part sends (Table 3-3). -/
inductive PartKind where
  | poll | probe | fetch | seg | next | abandon | window | hold | rest | rouse
  deriving DecidableEq, Repr

/-- Kind codes, part to node (Table 11-10). -/
def PartKind.code : PartKind → BitVec 4
  | .poll => 1 | .probe => 2 | .fetch => 3 | .seg => 4 | .next => 5 | .abandon => 6 | .window => 7 | .hold => 8
  | .rest => 9 | .rouse => 10

/-- The bytes of a frame of the part: SYNC, HEAD with direction 0, ADDR, LEN, payload, CHECK most significant byte first. -/
def encodeFrame (kind : PartKind) (flags : BitVec 3) (address : Byte) (payload : List Byte) : List Byte :=
  let head : Byte := 0#1 ++ kind.code ++ flags
  let body := head :: address :: BitVec.ofNat 8 payload.length :: payload
  let check := crc16 body
  Config.syncByte :: body ++ [check.extractLsb' 8 8, check.extractLsb' 0 8]

/-- The ack byte of a POLL or FETCH and its ACKV flag, flag bit 0 (R50, R98). -/
def ackFlag (ack : Option Byte) : BitVec 3 := if ack.isSome then 1 else 0

/-- POLL: ACKV and TGL; the ack byte, then the output slice (R50). -/
def pollFrame (address : Byte) (ack : Option Byte) (tgl : Bool) (slice : List Byte) : List Byte :=
  encodeFrame .poll (ackFlag ack ||| if tgl then 2 else 0) address (ack.getD 0 :: slice)

/-- FETCH: ACKV; the ack byte (R50). -/
def fetchFrame (address : Byte) (ack : Option Byte) : List Byte :=
  encodeFrame .fetch (ackFlag ack) address [ack.getD 0]

/-! ## What the receiver makes of the line (R54) -/

/-- The bytes up to the first item that is not a well-framed byte. -/
def leadingBytes : List LineItem → List Byte
  | [] => []
  | item :: rest =>
    match item.byte? with
    | some b => b :: leadingBytes rest
    | none => []

/-- The frame that arrived, or `none` when it is DAMAGED: carrier was on the line already, or the first byte is not SYNC (R53), a violation,
a framing error or a gap comes before its last CHECK byte, LEN is above 64, or the check does not match (R54). -/
def receiveFrame (items : List LineItem) : Option Frame :=
  match leadingBytes items with
  | sync :: head :: address :: len :: rest =>
    let n := len.toNat
    if sync = Config.syncByte ∧ n ≤ 64 ∧ n + 2 ≤ rest.length then
      let payload := rest.take n
      let check := crc16 (head :: address :: len :: payload)
      if rest.getD n 0 = check.extractLsb' 8 8 ∧ rest.getD (n + 1) 0 = check.extractLsb' 0 8 then
        some { head := head, address := address, payload := payload }
      else none
    else none
  | _ => none

/-- The length in bytes of the frame that the line starts with, where the receiver takes it to its last CHECK byte: then it has arrived
intact, or its check does not match. `none` where it is ended before (R54). -/
def frameLength (items : List LineItem) : Option Nat :=
  match leadingBytes items with
  | sync :: _ :: _ :: len :: rest =>
    if sync = Config.syncByte ∧ len.toNat ≤ 64 ∧ len.toNat + 2 ≤ rest.length then some (6 + len.toNat) else none
  | _ => none

/-- What the receiver meets, cut at its gaps (R54). -/
def splitGaps : List LineItem → List (List LineItem)
  | [] => [[]]
  | .gap :: rest => [] :: splitGaps rest
  | item :: rest =>
    match splitGaps rest with
    | [] => [[item]]
    | stretch :: more => (item :: stretch) :: more

/-- The frames of one stretch of carrier: one for each frame that the receiver takes to its last CHECK byte, `none` where its check does
not match, and a last `none` for what it ends before, since the rest of such a frame is not mistaken for a new one (R54). What follows a
frame without a gap counts apart from it (R61; log 51). The first argument bounds their number. -/
def framesOfStretch : Nat → List LineItem → List (Option Frame)
  | 0, _ => []
  | _ + 1, [] => []
  | n + 1, items =>
    match frameLength items with
    | some length => receiveFrame items :: framesOfStretch n (items.drop length)
    | none => [none]

/-- The frames and damaged stretches of what arrived on the line, in order (R54, R61). -/
def framesHeard (items : List LineItem) : List (Option Frame) :=
  (splitGaps items).flatMap fun stretch => framesOfStretch (stretch.length + 1) stretch

/-- What the line carries behind the frame it starts with, where the receiver takes that one to its last CHECK byte (R54). -/
def afterFrame (items : List LineItem) : List LineItem :=
  match frameLength items with
  | some length => items.drop length
  | none => []

/-- Whether carrier follows such a frame at once, which is new carrier in its guard (R58; log 26). -/
def carrierAfter (items : List LineItem) : Bool :=
  match afterFrame items with
  | [] | .gap :: _ => false
  | .serial _ :: _ | .violation :: _ | .present :: _ => true

/-- Whether carrier still arrives: it has not ended with 2 bt of quiet (R54; log 49). -/
def arrivesOn (items : List LineItem) : Bool := items.getLast? != some .gap

/-- Whether one stretch of carrier ends with what the receiver has ended before a last CHECK byte (R54). The first argument bounds the
number of its frames. -/
def endsUnfinished : Nat → List LineItem → Bool
  | 0, _ => false
  | _ + 1, [] => false
  | n + 1, items =>
    match frameLength items with
    | some length => endsUnfinished n (items.drop length)
    | none => true

/-- Whether a damaged stretch still arrives: the receiver goes on watching it until 2 bt of quiet, so that its rest is not mistaken for
a new one (R54). -/
def damagedArrivesOn (items : List LineItem) : Bool :=
  (splitGaps items).getLast?.any fun stretch => endsUnfinished (stretch.length + 1) stretch

/-! ## Frames nodes send (R51) -/

/-- The kinds nodes send (Table 3-4); `data` carries its toggle echo. -/
inductive NodeKind where
  | data (echo : Bool) | ident | event | segAck | segRep | bid | alert
  deriving DecidableEq, Repr

/-- Whether a frame's direction is "node to part" (Section 11.3). -/
def Frame.fromNode (f : Frame) : Bool := f.head.msb

/-- A flag bit of HEAD. -/
def Frame.flag (f : Frame) (k : Nat) : Bool := f.head.getLsbD k

/-- The kind of a node's frame, or `none` for an undefined kind (Table 11-10). -/
def Frame.kind (f : Frame) : Option NodeKind :=
  match (f.head.extractLsb' 3 4).toNat with
  | 1 => some (.data false)
  | 2 => some (.data true)
  | 3 => some .ident
  | 4 => some .event
  | 5 => some .segAck
  | 6 => some .segRep
  | 7 => some .bid
  | 8 => some .alert
  | _ => none

/-- Whether an address is a line address, 1 to 250 (R48). -/
def isLineAddress (a : Byte) : Bool := decide (1 ≤ a.toNat) && decide (a.toNat ≤ Config.maxAddress)

/-- A frame well formed for its kind: the LEN and flag combinations of Table 3-4 (R51). A set flag that the kind does not define
is no combination given there (log 11). `inLength` is the input length of the record addressed, for DATA. -/
def Frame.wellFormedAs (f : Frame) (inLength : Nat) : NodeKind → Bool
  | .data _ => f.payload.length == inLength
  | .ident => f.payload.length == 4 && !f.flag 0 && !f.flag 1 && !f.flag 2
  | .event =>
    !f.flag 2 &&
      (if f.flag 0 then f.payload.length == 0 && !f.flag 1
       else decide (3 ≤ f.payload.length) && decide (f.payload.length ≤ 19))
  | .segAck => f.payload.length == 2 && !f.flag 0 && !f.flag 1 && !f.flag 2
  | .segRep => decide (4 ≤ f.payload.length) && decide (f.payload.length ≤ 52) && !f.flag 1 && !f.flag 2
  | .bid =>
    f.payload.length == 2 && !f.flag 0 && !f.flag 1 && !f.flag 2 &&
      (payloadByte f.payload 0 == 1 || payloadByte f.payload 0 == 2)
  | .alert => f.payload.length == 0 && !f.flag 0 && !f.flag 1 && !f.flag 2

/-- A good bid's frame (R62): from a node, kind BID, well formed, and from a line address. -/
def Frame.isGoodBid (f : Frame) : Bool :=
  f.fromNode && f.kind == some .bid && f.wellFormedAs 0 .bid && isLineAddress f.address

/-- A good alert's frame (R61): from a node, kind ALERT, well formed, and from a line address. -/
def Frame.isGoodAlert (f : Frame) : Bool :=
  f.fromNode && f.kind == some .alert && f.wellFormedAs 0 .alert && isLineAddress f.address

/-- The line items of an intact ALERT from an address, as a reply that an exchange did not await sees it (R61). -/
def alertItems (address : Byte) : List LineItem :=
  let head : Byte := 1#1 ++ 8#4 ++ 0#3
  let check := crc16 [head, address, 0]
  [.byte Config.syncByte, .byte head, .byte address, .byte 0, .byte (check.extractLsb' 8 8), .byte (check.extractLsb' 0 8)]

/-! ## Parcel frames (R57, Section 7.5) -/

/-- A transfer's tag: the slot in the low 4 bits, the low 4 bits of the ask number above them (R57). -/
def parcelTag (slot : SlotIx) (ask : Half) : Byte := (ask.extractLsb' 0 4) ++ (BitVec.ofNat 4 slot.val)

/-- A segment byte: index in bits 2:0, LAST in bit 7 (Section 11.3). -/
def segmentByte (n : Nat) (last : Bool) : Byte := BitVec.ofBool last ++ 0#4 ++ BitVec.ofNat 3 n

/-- The index of the last segment of `n` bytes (Section 7.5). -/
def lastSegment (n : Nat) : Nat := (n + Config.segmentBytes - 1) / Config.segmentBytes - 1

/-- Slot operation codes (Table 11-8). -/
def Operation.code : Operation → Byte
  | .read => 1 | .write => 2 | .invoke => 3

/-- The operation of a slot's byte, or `none` for none of the three (R114, case 4). -/
def Operation.ofCode (b : Byte) : Option Operation :=
  if b = 1 then some .read else if b = 2 then some .write else if b = 3 then some .invoke else none

/-- Outcome codes (below Table 11-8). -/
def ParcelOutcome.code : ParcelOutcome → Byte
  | .done => 1 | .nodeRejected => 2 | .nodeUnavailable => 3 | .nodeLost => 4 | .transferFailed => 5 | .timedOut => 6
  | .withdrawn => 7 | .refusedRequest => 8 | .interrupted => 9

/-! ## Words of the anchor (Table 11-2) -/

/-- Ladder state codes (Table 11-11). -/
def LadderState.code : LadderState → Nat
  | .idle => 0 | .starting => 1 | .run => 2 | .held => 3 | .heldService => 4 | .resting => 5 | .rousing => 6 | .still => 7
  | .settling => 8

/-- Request codes (Table 11-11). -/
def Request.code : Request → Nat
  | .run => 1 | .hold => 2 | .rest => 3 | .still => 4

/-- The state word: ladder state code, start-up count. -/
def stateWord (state : LadderState) (count : Half) : Word := count ++ 0#8 ++ BitVec.ofNat 8 state.code

/-- A bank field with a 24-bit count above it; 255 for no bank. -/
def bankWord (bank : Option Bank) (count : BitVec 24) : Word :=
  count ++ (match bank with | none => 255#8 | some b => BitVec.ofNat 8 b.val)

/-- The bank a bank field names, if it is 0, 1 or 2. -/
def bankOf (b : Byte) : Option Bank :=
  if b = 0 then some 0 else if b = 1 then some 1 else if b = 2 then some 2 else none

/-- Verdict codes (below Table 11-2). -/
def VerdictCode.code : VerdictCode → Byte
  | .none => 0 | .accepted => 1 | .badLineSetting => 2 | .badAddress => 3 | .duplicateAddress => 4 | .badTiming => 5
  | .sliceOutside => 6 | .sliceOverlap => 7 | .lineChangeInRun => 8 | .pollBudget => 9

/-- The verdict word. -/
def Verdict.word (v : Verdict) : Word := v.generation ++ v.residue ++ v.entry ++ v.code.code

/-! ## Node status record (Table 11-5) -/

/-- Node state codes. -/
def NodeState.code : NodeState → Byte
  | .excluded => 0 | .probing => 1 | .live => 2 | .suspect => 3 | .lost => 4 | .misfit => 5

/-- Misfit reason codes. -/
def MisfitReason.code : MisfitReason → BitVec 2
  | .none => 0 | .kind => 1 | .outputLength => 2 | .inputLength => 3

/-- The words of the state part (0 to 2) and of the event part (3), as the record stands (R20; log 15). -/
def statusWord (r : NodeRecord) (e : NodeEvents) (k : Fin 4) : Word :=
  match k with
  | 0 =>
    let flags : Byte := 0#2 ++ r.misfit.code ++ 0#3 ++ BitVec.ofBool r.degraded
    let address : Byte := if r.state = .excluded then 0 else r.applied.address
    flags ++ BitVec.ofNat 8 r.missCount ++ r.state.code ++ address
  | 1 => r.revisionSeen ++ r.kindSeen ++ r.changeCount
  | 2 => r.lastGood
  | 3 => (0#23 ++ BitVec.ofBool e.valid) ++ e.accepted

/-! ## Event record (Table 11-7) -/

/-- The words of bytes, four to a word, the last padded with zeros; `n` words. -/
def packWords : Nat → List Byte → List Word
  | 0, _ => []
  | n + 1, bytes =>
    wordOf (bytes.getD 0 0) (bytes.getD 1 0) (bytes.getD 2 0) (bytes.getD 3 0) :: packWords n (bytes.drop 4)

/-- The eight words of an event record (R104, Table 6-3). -/
def eventRecord (origin address seq : Byte) (code : Half) (cycle : Word) (data : List Byte) : List Word :=
  (BitVec.ofNat 8 data.length ++ seq ++ address ++ origin) :: (0#16 ++ code) :: cycle :: packWords 4 data ++ [0]

/-- Origin codes (Table 11-7). -/
def LatchOrigin.code : LatchOrigin → Byte
  | .data => 0 | .bid => 1 | .alert => 2

/-- The origin byte in a stray note's data (Table 11-7). -/
def StrayOrigin.code : StrayOrigin → Byte
  | .bid => 1 | .alert => 2

/-! ## The directory (Tables 11-3 and 11-4) -/

/-- Words of the line settings the layout names. -/
def settingsWords : Nat := 4

/-- Words of a directory entry the layout names. -/
def entryWords : Nat := 5

/-- Words a directory read takes. -/
def directoryWords : Nat := settingsWords + 48 * entryWords

/-- The area offset of the `k`-th word of a directory read: the line settings, then the entries (R136). -/
def directoryOffset (k : Nat) : Nat :=
  if k < settingsWords then Config.offLineSettings + 4 * k
  else Config.offDirectory + 32 * ((k - settingsWords) / entryWords) + 4 * ((k - settingsWords) % entryWords)

/-- The line settings of the words read. -/
def settingsOf (words : List Word) : LineSettings :=
  let w0 := words.getD 0 0
  let w1 := words.getD 1 0
  let w2 := words.getD 2 0
  let w3 := words.getD 3 0
  { bitRate := (byteAt w0 0).toNat, initialWindow := (byteAt w0 1).toNat, windowInterval := (byteAt w0 2).toNat,
    cycleDivisor := (byteAt w0 3).toNat, cyclePeriod := (halfAt w1 0).toNat, statPeriod := (byteAt w1 2).toNat,
    rouseTime := (byteAt w1 3).toNat, outBytes := (halfAt w2 0).toNat, inBytes := (halfAt w2 1).toNat,
    patience := (halfAt w3 0).toNat, defaultTimeout := (byteAt w3 2).toNat }

/-- A directory entry as read: its fields, and whether its loss policy code is 0 or 1 (R134). -/
structure DirEntry where
  entry : NodeEntry
  lossValid : Bool
  deriving DecidableEq, Repr

/-- The directory entry of its five words. -/
def entryOf (words : List Word) : DirEntry :=
  let w0 := words.getD 0 0
  let w1 := words.getD 1 0
  let w2 := words.getD 2 0
  let w3 := words.getD 3 0
  let loss := byteAt (words.getD 4 0) 0
  { entry :=
      { enabled := byteAt w0 0 != 0, address := byteAt w0 2, expectedKind := byteAt w0 3,
        periodClass := (byteAt w1 0).toNat, phase := (byteAt w1 1).toNat, outOffset := (halfAt w2 0).toNat,
        outLength := (byteAt w1 2).toNat, inOffset := (halfAt w2 1).toNat, inLength := (byteAt w1 3).toNat,
        replyTimeout := (byteAt w3 0).toNat, retries := (byteAt w3 1).toNat, missLimit := (byteAt w3 2).toNat,
        reprobeDelay := (byteAt w3 3).toNat, loss := if loss = 1 then .clear else .keep,
        eventsEnabled := byteAt w0 1 != 0 },
    lossValid := loss == 0 || loss == 1 }

/-- A directory as read. -/
structure Directory where
  settings : LineSettings
  entries : Vector DirEntry 48
  deriving DecidableEq, Repr

/-- The directory of the words of a directory read, in the order read. -/
def directoryOf (words : List Word) : Directory :=
  { settings := settingsOf words,
    entries := tabMap (fun i _ => entryOf (words.drop (settingsWords + entryWords * i.val))) (tabFill 48 ()) }

/-- The part of an entry that a commit applies: an entry not enabled takes the cleared values (R134). -/
def DirEntry.applied (d : DirEntry) : NodeEntry := if d.entry.enabled then d.entry else NodeEntry.cleared

end Sys2Proof.Machine
end

