-- ==== Sys2Proof/Machine/Units.lean ====
section
/-! DEFINITION. Reads and writes of the tables the units share: node records, per-node event state, parcel queue entries, and the
values derived from the applied configuration. -/

namespace Sys2Proof.Machine

/-- Node record `i`. -/
def Part.node (p : Part) (i : NodeIx) : NodeRecord := p.table.records.get i

/-- Node record `i` changed. -/
def Part.modNode (p : Part) (i : NodeIx) (f : NodeRecord → NodeRecord) : Part :=
  { p with table := { p.table with records := tabModify p.table.records i f } }

/-- The event state of node `i`. -/
def Part.nodeEvents (p : Part) (i : NodeIx) : NodeEvents := p.events.nodes.get i

/-- The event state of node `i` changed. -/
def Part.modEvents (p : Part) (i : NodeIx) (f : NodeEvents → NodeEvents) : Part :=
  { p with events := { p.events with nodes := tabModify p.events.nodes i f } }

/-- In service: LIVE or SUSPECT (Figure 1-1). -/
def NodeState.inService : NodeState → Bool
  | .live | .suspect => true
  | .excluded | .probing | .lost | .misfit => false

/-- The effective reply timeout (R2). -/
def effectiveTimeout (settings : LineSettings) (e : NodeEntry) : Nat :=
  if e.replyTimeout = 0 then settings.defaultTimeout else e.replyTimeout

/-- The record enabled at a line address: at most one, by the commit check (R83). -/
def Part.enabledAt (p : Part) (address : Byte) : Option NodeIx :=
  allNodes.find? fun i => (p.node i).applied.enabled && (p.node i).applied.address == address

/-- The entry of a slot in the parcel queue. -/
def Part.parcelOf (p : Part) (slot : SlotIx) : Option Parcel := p.parcels.queue.find? (·.slot == slot)

/-- The entry of a slot changed. -/
def Part.modParcel (p : Part) (slot : SlotIx) (f : Parcel → Parcel) : Part :=
  { p with parcels := { p.parcels with queue := p.parcels.queue.map fun e => if e.slot = slot then f e else e } }

/-- An entry in transfer (R117). -/
def Parcel.inTransfer (e : Parcel) : Bool :=
  match e.transfer with
  | .sending _ | .asking _ => true
  | .finishing => e.abandonOwed
  | .waiting => false

/-- An entry whose patience runs (R124). -/
def Parcel.patienceRuns (e : Parcel) : Bool := e.transfer != .finishing

/-- Whether the held line is in one of the rungs in which NUDGE, ALERT and note work is done (R107, R129). -/
def LadderState.worksMemory : LadderState → Bool
  | .run | .held | .heldService => true
  | .idle | .starting | .resting | .rousing | .still | .settling => false

/-- The window size as a number of slots. -/
def WindowSize.slots : WindowSize → Nat
  | .w2 => 2 | .w4 => 4 | .w8 => 8 | .w16 => 16 | .w32 => 32

/-- Doubled, up to 32 (R88). -/
def WindowSize.double : WindowSize → WindowSize
  | .w2 => .w4 | .w4 => .w8 | .w8 => .w16 | .w16 => .w32 | .w32 => .w32

/-- Halved, down to 2 (R88, R89). -/
def WindowSize.halve : WindowSize → WindowSize
  | .w2 => .w2 | .w4 => .w2 | .w8 => .w4 | .w16 => .w8 | .w32 => .w16

/-- The window size of a number of slots, if it is one of the five (Table 8-2). -/
def WindowSize.ofSlots (n : Nat) : Option WindowSize :=
  if n = 2 then some .w2 else if n = 4 then some .w4 else if n = 8 then some .w8 else if n = 16 then some .w16
  else if n = 32 then some .w32 else none

end Sys2Proof.Machine
end

