-- ==== Sys2Proof/Machine/Frames.lean ====
section
/-! DEFINITION. The frame engine (Chapter 3): sending a frame, waiting for its reply, and deciding the outcome. -/

namespace Sys2Proof.Machine

/-- The frame engine is given a frame to send and enters SENDING; before the line has been quiet for one turnaround the frame
is not on the line (R52). -/
def Part.give (p : Part) (ex : Exchange) (bytes : List Byte) : Part :=
  { p with frames :=
      { p.frames with state := .sending, tx := bytes, onLine := false, rx := none, replyTimer := none, clash := false,
                      exchange := some ex, outcome := none } }

/-- The frame engine returns to a state with no exchange in progress; a late reply, and a stretch that has been
counted, are heard on in LISTENING only (R61). -/
def FrameEngine.settleAt (f : FrameEngine) (state : FrameState) : FrameEngine :=
  { f with state := state, tx := [], onLine := false, rx := none, replyTimer := none, clash := false, exchange := none,
           outcome := none, late := f.late && state == .listening, counted := f.counted && state == .listening }

/-- The frame engine follows the ladder into `state` (R47: LISTENING, SENSING or OFF). -/
def Part.frameState (p : Part) (state : FrameState) : Part := { p with frames := p.frames.settleAt state }

/-- A broadcast with no payload: HOLD, REST, ROUSE (R50). -/
def Part.giveBroadcast (p : Part) (ex : Exchange) (kind : PartKind) : Part := p.give ex (encodeFrame kind 0 0 [])

/-- The node a request that awaits a reply addresses (Table 3-3). -/
def Exchange.awaits : Exchange → Option NodeIx
  | .poll i _ | .probe i | .fetch i _ | .seg i _ _ _ | .next i _ _ _ => some i
  | .abandon _ _ | .window | .hold | .rest | .rouse => none

/-- FRAME_START: the line has been quiet for one turnaround, so that no late reply and no stretch counted goes on, and the frame given
goes on the line (R52). "windows opened" rises when the frame engine begins a WINDOW frame (R82). -/
def Part.frameStart (p : Part) : Part :=
  if p.frames.state = .sending ∧ p.frames.onLine = false then
    let p := { p with frames := { p.frames with onLine := true, late := false, counted := false } }
    if p.frames.exchange = some .window then p.count .windowsOpened else p
  else p

/-- REQUEST_SENT: after the last CHECK byte the reply timer starts, a window's slots begin, or the line is kept for one
turnaround (R52, R53, R60, R62). Carrier in the turnaround before slot 0 spoils no slot (log 44). -/
def Part.requestSent (p : Part) : Part :=
  if p.frames.state = .sending ∧ p.frames.onLine = true then
    match p.frames.exchange with
    | none => p
    | some ex =>
      match ex.awaits with
      | some i =>
        { p with frames :=
            { p.frames with state := .awaiting, onLine := false,
                            replyTimer := some (effectiveTimeout p.loader.settings (p.node i).applied) } }
      | none =>
        if ex = .window then
          { p with frames := { p.frames with state := .slotting, onLine := false, slot := 0, spill := false } }
        else { p with frames := { p.frames with state := .guarding, onLine := false } }
  else p

/-- The counter a failed attempt raises (Table 3-6). -/
def Attempt.counter : Attempt → Option Counter
  | .good => none
  | .timeout => some .replyTimeouts
  | .damaged => some .damagedFrames
  | .unexpected => some .unexpectedReplies

/-- The outcome of an attempt is decided: the reply timer stops, GUARDING begins, and a failed outcome is counted (R55, R59). -/
def Part.decideAttempt (p : Part) (a : Attempt) (rx : Option Frame) : Part :=
  let p := { p with frames := { p.frames with state := .guarding, replyTimer := none, rx := rx, outcome := some a } }
  match a.counter with
  | some c => p.count c
  | none => p

/-- Whether the frame engine awaits or receives a reply. -/
def FrameEngine.takesReply (f : FrameEngine) : Bool := f.state == .awaiting || f.state == .receiving

/-- REPLY_TIMER_LIMIT: no carrier by the limit, so the attempt is a TIMEOUT (R53). -/
def Part.replyTimerLimit (p : Part) : Part :=
  if p.frames.state = .awaiting then p.decideAttempt .timeout none else p

/-- The checks of Table 3-5 on an intact reply (R55 to R57). -/
def Part.replyGood (p : Part) (ex : Exchange) (f : Frame) : Bool :=
  match ex.awaits with
  | none => false
  | some i =>
    let applied := (p.node i).applied
    f.fromNode && f.address == applied.address &&
    (match ex, f.kind with
      | .poll _ _, some (.data echo) =>
        f.wellFormedAs applied.inLength (.data echo) && echo == p.frames.toggles.get i
      | .probe _, some .ident => f.wellFormedAs 0 .ident
      | .fetch _ _, some .event => f.wellFormedAs 0 .event
      | .seg _ _ tag segment, some .segAck =>
        f.wellFormedAs 0 .segAck && payloadByte f.payload 0 == tag && payloadByte f.payload 1 == segment
      | .next _ _ tag segment, some .segRep =>
        f.wellFormedAs 0 .segRep && payloadByte f.payload 0 == tag &&
          (payloadByte f.payload 1).extractLsb' 0 3 == segment.extractLsb' 0 3
      | _, _ => false)

/-- Carrier or a clash in the guard turns GOOD into DAMAGED and leaves any other outcome as it was (R58). GUARDING is the guard and
the turnaround after it in one (log 38). -/
def Part.guardCarrier (p : Part) : Part :=
  if p.frames.outcome = some .good then p.decideAttempt .damaged none else p

/-- New carrier in the guard: it spoils a GOOD outcome, and the frame engine waits for the line to be quiet; after a failed one what of it
still arrives may do so once the outcome has been returned (R58, R61; log 49). -/
def Part.carrierInGuard (p : Part) (items : List LineItem) : Part :=
  if p.frames.outcome = some .good then p.guardCarrier else { p with frames := { p.frames with late := arrivesOn items } }

/-- The reply's frame has ended, and Table 3-5 decides its outcome (R54, R55). -/
def Part.judgeReply (p : Part) (ex : Exchange) (items : List LineItem) : Part :=
  match receiveFrame items with
  | none => p.decideAttempt .damaged none
  | some f => if p.replyGood ex f then p.decideAttempt .good (some f) else p.decideAttempt .unexpected none

/-- REPLY_FRAME_END: the outcome is decided, and carrier right behind a frame taken whole is carrier in its guard (R54, R58; log 26). -/
def Part.replyFrameEnd (p : Part) (items : List LineItem) : Part :=
  if p.frames.takesReply then
    match p.frames.exchange with
    | none => p
    | some ex =>
      let p := p.judgeReply ex items
      if carrierAfter items then p.carrierInGuard (afterFrame items) else p
  else p

/-- Whether the ladder is in a state whose unsolicited frames are counted as strays (R61). -/
def LadderState.countsStrays : LadderState → Bool
  | .run | .held | .heldService | .rousing => true
  | .idle | .starting | .resting | .still | .settling => false

/-- A frame or stretch of carrier nobody asked for, counted and dropped (R61). -/
def Part.strayFrame (p : Part) : Part := if p.ladder.state.countsStrays then p.count .strayFrames else p

/-- A clash nobody asked for, counted with the stretch of carrier it is seen in, once for the stretch (R58, R61; log 59). -/
def Part.strayClash (p : Part) : Part :=
  let q := if p.frames.counted then p else p.strayFrame
  { q with frames := { q.frames with counted := true } }

/-- What of the items that arrive is not of a stretch counted before: all behind the first gap, where one was (R61; log 59). -/
def FrameEngine.uncounted (f : FrameEngine) (items : List LineItem) : List LineItem :=
  if f.counted then items.dropWhile (· != .gap) else items

/-- Items have been heard unsolicited: nothing of a late reply is left, and a stretch that is counted may still arrive (R61). -/
def FrameEngine.heard (f : FrameEngine) (items : List LineItem) : FrameEngine :=
  let fresh := f.uncounted items
  { f with late := false, counted := f.counted && fresh.isEmpty || damagedArrivesOn fresh }

/-- The quiet between two stretches of carrier has passed (R61). -/
def Part.quietPassed (p : Part) : Part := { p with frames := { p.frames with counted := false } }

/-- LINE_CLASH, by the frame engine's state (R58, R62). In SLOTTING the conflict detector keeps it for the slot's report. -/
def Part.lineClash (p : Part) : Part :=
  match p.frames.state with
  | .awaiting | .receiving => p.decideAttempt .damaged none
  | .guarding =>
    match p.frames.outcome with
    | some _ => p.guardCarrier
    | none => p.strayClash
  | .slotting => { p with frames := { p.frames with clash := true } }
  | .listening => p.strayClash
  | .off | .sensing | .sending => p

/-- What the frame engine reports of a window's slot (R62). -/
inductive SlotReport where
  | quiet
  | goodBid (address reason kind : Byte)
  | notGood
  deriving DecidableEq, Repr

/-- The frames that began in a slot and ended in it: a frame still arriving at the slot's end is the last one heard (R62). -/
def slotFrames (heard : SlotHeard) : List (Option Frame) :=
  if heard.overruns then (framesHeard heard.items).dropLast else framesHeard heard.items

/-- Whether a clash was seen in the slot that ends: one in the turnaround before slot 0 is in no slot (R62; log 44). -/
def FrameEngine.slotClash (f : FrameEngine) (heard : SlotHeard) : Bool := f.clash && !(heard.clashBefore && f.slot == 0)

/-- The report of a slot, from what began in it, whether a frame of the slot before was still arriving, and whether a clash was
seen (R62). -/
def slotReport (heard : SlotHeard) (spill clash : Bool) : SlotReport :=
  if heard.items = [] ∧ spill = false ∧ clash = false then .quiet
  else if spill || clash then .notGood
  else
    match ((slotFrames heard).filterMap id).find? Frame.isGoodBid with
    | some f => .goodBid f.address (payloadByte f.payload 0) (payloadByte f.payload 1)
    | none => .notGood

/-- Whether a frame is still arriving as a slot ends: one that began in the slot, or one that was arriving as it began (R62; log 43). -/
def slotRunsOn (heard : SlotHeard) (spill : Bool) : Bool := heard.overruns && (spill || heard.items != [])

/-- The pin LTX, line transmit data: the bits of the frame on the line in the order they are sent, its bytes with no gap between
them (R46, Table 11-14). -/
def FrameEngine.transmits (f : FrameEngine) : List Bool :=
  if f.state = .sending ∧ f.onLine = true then f.tx.flatMap fun b => (List.range Config.bitsPerByte).map (serialBits b).getLsbD else []

/-- The pin LDE, line driver enable: asserted while SENDING (Table 11-14), the turnaround wait included (Table 3-1). -/
def FrameEngine.lineDriver (f : FrameEngine) : Bool := f.state == .sending

end Sys2Proof.Machine
end

