-- ==== Sys2Proof/Machine/Images.lean ====
section
/-! DEFINITION. The image unit (Chapter 4): the output take at a cycle open, output slices, the input shadow, and the close. -/

namespace Sys2Proof.Machine

/-! ## The input shadow (R71, R72) -/

/-- A node's payload written into its input slice (R71). -/
def Part.writeShadow (p : Part) (offset : Nat) (bytes : List Byte) : Part :=
  { p with images := { p.images with shadow := p.images.shadow.writeBytes offset bytes } }

/-- The bytes from `lo` up to `hi` set to zero. -/
def Part.clearShadow (p : Part) (lo hi : Nat) : Part :=
  { p with images := { p.images with shadow := p.images.shadow.clear lo hi } }

/-- An entry's input slice set to zeros within an image of `size` bytes (R18, R71). -/
def Part.clearSlice (p : Part) (e : NodeEntry) (size : Nat) : Part :=
  p.clearShadow e.inOffset (min (e.inOffset + e.inLength) size)

/-- The loss policy applied to an entry's slice (R18): zeros under CLEAR, nothing under KEEP. -/
def Part.applyLoss (p : Part) (e : NodeEntry) (size : Nat) : Part :=
  match e.loss with
  | .clear => p.clearSlice e size
  | .keep => p

/-! ## The output take (R67) -/

/-- The read of the output publish word at an open has ended without error (Table 4-2). A refused take is reported before its in-use
word is written (log 46). -/
def Part.outputTake (p : Part) (w : Word) : Part :=
  let im := p.images
  let count : BitVec 24 := w.extractLsb' 8 24
  if count != im.countTaken || im.takeOwed then
    match bankOf (byteAt w 0) with
    | some b =>
      let p := { p with images := { im with inUse := some b, countTaken := count, takeOwed := false } }
      p.issueWrite .outInUse Config.offOutputInUse (bankWord (some b) count)
    | none =>
      let p := { p with images := { im with countTaken := count, takeOwed := false } }
      let p := p.report .imageBankInvalid 1
      p.issueWrite .outInUse Config.offOutputInUse (bankWord im.inUse count)
  else { p with sched := { p.sched with imageReady := true } }

/-- The image unit reports its part of readiness (R31, R67). -/
def Part.imageIsReady (p : Part) : Part := { p with sched := { p.sched with imageReady := true } }

/-! ## Output slices (R69) -/

/-- The first whole word of an output bank that covers byte `offset` (log 28). -/
def sliceFirstWord (offset : Nat) : Nat := offset / 4

/-- How many words cover a slice. -/
def sliceWordCount (offset length : Nat) : Nat :=
  if length = 0 then 0 else (offset + length - 1) / 4 - offset / 4 + 1

/-- The read of the next word of a slice. -/
def Part.issueSlice (p : Part) (bank : Bank) (e : NodeEntry) (done : Nat) : Part :=
  p.issueRead .slice (Config.offOutputBank bank.val + 4 * (sliceFirstWord e.outOffset + done))

/-- The slice's bytes out of the words read, first word first. -/
def sliceBytes (offset length : Nat) (words : List Word) : List Byte :=
  ((words.flatMap wordBytes).drop (offset % 4)).take length

/-! ## The close (R74 to R77) -/

/-- The map of the records for which `f` holds, index `i` at bit `i` (Table 11-9). -/
def Part.mapOf (p : Part) (f : NodeRecord → Bool) : BitVec 48 :=
  allNodes.foldl (fun m i => if f (p.node i) then m ||| (1#48 <<< i.val) else m) 0

/-- The number of entries set in a map. -/
def mapCount (m : BitVec 48) : Nat := (List.range 48).countP fun i => m.getLsbD i

/-- The close signal: the node table supplies the maps, and the input hold word is read (R40, R22, R74). -/
def Part.beginClose (p : Part) : Part :=
  let job : CloseJob :=
    { fill := none, pos := 0, live := p.mapOf fun r => r.state.inService, fresh := p.mapOf fun r => r.fresh }
  let p := { p with images := { p.images with close := some job } }
  p.issueRead .close Config.offInputHold

/-- The fill bank: the lowest that is neither held nor last published (R74, Table 4-3). -/
def fillBank (lastPublished held : Option Bank) : Bank :=
  if lastPublished != some 0 && held != some 0 then 0
  else if lastPublished != some 1 && held != some 1 then 1
  else 2

/-- How many words a close writes: the header, the image, the publish word (R75). -/
def closeWordCount (size : Nat) : Nat := 16 + (size + 3) / 4 + 1

/-- Image byte `k` of a close: the shadow's within the image, 0 beyond it (R75). -/
def Part.closeByte (p : Part) (k : Nat) : Byte :=
  if k < p.loader.settings.inBytes then p.images.shadow.readByte k else 0

/-- The header word `k` of a close (Table 11-9, R76). -/
def closeHeaderWord (cycle : Word) (job : CloseJob) (k : Nat) : Word :=
  match k with
  | 0 => cycle
  | 1 => BitVec.ofNat 32 (mapCount job.live)
  | 2 => job.live.extractLsb' 0 32
  | 3 => 0#16 ++ job.live.extractLsb' 32 16
  | 4 => job.fresh.extractLsb' 0 32
  | 5 => 0#16 ++ job.fresh.extractLsb' 32 16
  | _ => 0

/-- The `k`-th write of a close into bank `fill`: offset and word (R75). -/
def Part.closeWrite (p : Part) (fill : Bank) (job : CloseJob) (k : Nat) : Nat × Word :=
  if k < 16 then (Config.offInputBank fill.val + 4 * k, closeHeaderWord p.sched.cycle job k)
  else if k + 1 < closeWordCount p.loader.settings.inBytes then
    let n := 4 * (k - 16)
    (Config.offInputBank fill.val + 0x40 + n,
      wordOf (p.closeByte n) (p.closeByte (n + 1)) (p.closeByte (n + 2)) (p.closeByte (n + 3)))
  else (Config.offInputPublish, bankWord (some fill) (p.images.publishCount + 1))

/-- The write at the close's position goes on the list. -/
def Part.issueClose (p : Part) (fill : Bank) (job : CloseJob) : Part :=
  let write := p.closeWrite fill job job.pos
  p.issueWrite .close write.1 write.2

/-- The hold word has been read: the held bank is taken, the fill bank chosen, and its first word written (R74). -/
def Part.holdWordTaken (p : Part) (w : Word) (job : CloseJob) : Part :=
  let h := byteAt w 0
  let p := if bankOf h = none ∧ h ≠ 255 then p.report .imageBankInvalid 2 else p
  let fill := fillBank p.images.lastPublished (bankOf h)
  let job := { job with fill := some fill, pos := 0 }
  let p := { p with images := { p.images with close := some job } }
  p.issueClose fill job

/-- The scheduler writes the anchor's cycle-number word once the close is reported done (R40). -/
def Part.writeCycleWord (p : Part) : Part := p.issueWrite .cycleWord Config.offCycleNumber p.sched.cycle

/-- The close has ended: the image unit returns to IDLE and reports it done (R75, R77). -/
def Part.endClose (p : Part) : Part :=
  let p := { p with images := { p.images with close := none } }
  p.writeCycleWord

/-- The input publish word's write has completed: the bank is published and the close is reported for CAUSE.CYCLE (R75,
R78). When the divisor count reaches the divisor, CYCLE_DIVISOR_REACHED comes before the anchor write (log 14). -/
def Part.published (p : Part) (fill : Bank) : Part :=
  let count := p.faults.divisorCount + 1
  let due := decide (p.loader.settings.cycleDivisor ≤ count)
  let p := { p with
    images := { p.images with lastPublished := some fill, publishCount := p.images.publishCount + 1, close := none },
    faults := { p.faults with divisorCount := count, divisorDue := due } }
  if due then p else p.writeCycleWord

/-- A word access of the close has completed; `w` is the word read. -/
def Part.continueClose (p : Part) (w : Word) : Part :=
  match p.images.close with
  | none => p
  | some job =>
    match job.fill with
    | none => p.holdWordTaken w job
    | some fill =>
      if job.pos + 1 < closeWordCount p.loader.settings.inBytes then
        let job := { job with pos := job.pos + 1 }
        let p := { p with images := { p.images with close := some job } }
        p.issueClose fill job
      else p.published fill

/-- Whether the access in progress of a close is its publish word's write. -/
def Part.closeAtPublish (p : Part) : Bool :=
  match p.images.close with
  | some job => job.fill.isSome && job.pos + 1 == closeWordCount p.loader.settings.inBytes
  | none => false

/-- CYCLE_DIVISOR_REACHED: CAUSE.CYCLE is set and the divisor count is 0 again (R78); the close is then reported done. -/
def Part.divisorReached (p : Part) : Part :=
  if p.faults.divisorDue then
    let p := { p with faults := { p.faults with divisorCount := 0, divisorDue := false } }
    (p.setCause .cycle).writeCycleWord
  else p

end Sys2Proof.Machine
end

