-- ==== Sys2Proof/Machine/Parcels.lean ====
section
/-! DEFINITION. The parcel unit (Chapter 7) but for its exchanges: answers, the discovery scan, patience, and what node changes and
commits do to its entries. -/

namespace Sys2Proof.Machine

/-! ## Answers (R116, R127, R128) -/

/-- The word at 0x108 of a slot: reply length, node status, outcome (Table 11-8). -/
def answerWord (outcome : ParcelOutcome) (status : Byte) (length : Nat) : Word :=
  BitVec.ofNat 16 length ++ status ++ outcome.code

/-- Whether an outcome carries the node's reply data (Table 7-4). -/
def ParcelOutcome.carriesReply : ParcelOutcome → Bool
  | .done | .nodeRejected => true
  | .nodeUnavailable | .nodeLost | .transferFailed | .timedOut | .withdrawn | .refusedRequest | .interrupted => false

/-- Words written at consecutive offsets from `offset` up. -/
def wordsAt (offset : Nat) : List Word → List (Nat × Word)
  | [] => []
  | w :: rest => (offset, w) :: wordsAt (offset + 4) rest

/-- The writes of an entry's answer: reply data in whole words, the outcome word, the answer number last (R127). -/
def Parcel.answerWrites (e : Parcel) : List (Nat × Word) :=
  let base := Config.offSlot e.slot.val
  let length := if e.outcome.carriesReply then e.total else 0
  wordsAt (base + 0x110) (packWords ((length + 3) / 4) (e.reply.take length)) ++
    [(base + 0x108, answerWord e.outcome e.nodeStatus length), (base + 0x104, 0#16 ++ e.ask)]

/-- The writes of an immediate answer: the outcome word, the taken number, the answer number (R116). -/
def immediateWrites (slot : SlotIx) (ask : Half) (outcome : ParcelOutcome) : List (Nat × Word) :=
  let base := Config.offSlot slot.val
  [(base + 0x108, answerWord outcome 0 0), (base + 0x100, 0#16 ++ ask), (base + 0x104, 0#16 ++ ask)]

/-- The answer in progress is at `writes`: its next word goes on the list. -/
def Part.writeAnswer (p : Part) (writes : List (Nat × Word)) : Part :=
  let p := { p with parcels := { p.parcels with answering := some (.writing writes) } }
  match writes with
  | (offset, w) :: _ => p.issueWrite .answer offset w
  | [] => p

/-- The withdraw number of a slot is read (R119). -/
def Part.readWithdraw (p : Part) (source : Source) (slot : SlotIx) : Part :=
  p.issueRead source (Config.offSlot slot.val + 0x004)

/-- The first answer of the list begins, if none is in progress (R127: one at a time, in the order in which they become ready). -/
def Part.startAnswer (p : Part) : Part :=
  match p.parcels.answering, p.parcels.answers with
  | none, .entry slot :: rest =>
    match p.parcelOf slot with
    | some e =>
      if e.pastCutoff then p.writeAnswer e.answerWrites
      else
        let p := { p with parcels := { p.parcels with answering := some .checking } }
        p.readWithdraw .answer slot
    | none => { p with parcels := { p.parcels with answers := rest } }
  | none, .immediate slot ask outcome :: _ => p.writeAnswer (immediateWrites slot ask outcome)
  | none, .deferred :: rest =>
    match p.parcels.deferred with
    | some d => p.writeAnswer [(Config.offSlot d.slot.val + 0x104, 0#16 ++ d.taken)]
    | none => { p with parcels := { p.parcels with answers := rest } }
  | _, _ => p

/-- An answer becomes ready. -/
def Part.readyAnswer (p : Part) (a : AnswerFor) : Part :=
  let p := { p with parcels := { p.parcels with answers := p.parcels.answers ++ [a] } }
  p.startAnswer

/-- The answer in progress has ended, and the next begins. -/
def Part.nextAnswer (p : Part) : Part :=
  let p := { p with parcels := { p.parcels with answers := p.parcels.answers.drop 1, answering := none } }
  p.startAnswer

/-- An answer-number write of an entry has completed: the answer is counted and CAUSE.PARCEL set (R127). -/
def Part.countAnswer (p : Part) (outcome : ParcelOutcome) : Part :=
  (p.count (if outcome = .done then .parcelsDone else .parcelsOtherwise)).setCause .parcel

/-- The entry of a slot leaves the queue; the pass position keeps its place (R117, R118). -/
def Part.freeParcel (p : Part) (slot : SlotIx) : Part :=
  let before := (p.parcels.queue.takeWhile (·.slot != slot)).length
  let shift := fun pos => if before < pos then pos - 1 else pos
  { p with parcels :=
      { p.parcels with queue := p.parcels.queue.filter (·.slot != slot), passPos := p.parcels.passPos.map shift } }

/-! ## Entering FINISHING (R119 to R126) -/

/-- An entry enters FINISHING with an outcome, a node status and no ABANDON: its answer is ready (R127). -/
def Part.finishParcel (p : Part) (slot : SlotIx) (outcome : ParcelOutcome) (status : Byte) : Part :=
  let p := p.modParcel slot fun e =>
    { e with transfer := .finishing, outcome := outcome, nodeStatus := status, abandonOwed := false }
  p.readyAnswer (.entry slot)

/-- An entry enters FINISHING with an ABANDON owed (R122, R123). -/
def Part.abandonParcel (p : Part) (slot : SlotIx) (outcome : ParcelOutcome) : Part :=
  p.modParcel slot fun e =>
    { e with transfer := .finishing, outcome := outcome, nodeStatus := 0, abandonOwed := true }

/-- The ABANDON of an entry in FINISHING is dropped, or has been sent: its answer is ready with the outcome decided (R123). -/
def Part.abandonDone (p : Part) (slot : SlotIx) : Part :=
  let p := p.modParcel slot fun e => { e with abandonOwed := false }
  p.readyAnswer (.entry slot)

/-- What a node's new state does to one of its entries (Table 7-5). -/
def Part.parcelAtChange (p : Part) (new : NodeState) (e : Parcel) : Part :=
  match new, e.transfer with
  | .live, _ => p
  | .suspect, _ => p
  | .probing, .waiting => p
  | .lost, .waiting | .misfit, .waiting | .excluded, .waiting => p.finishParcel e.slot .nodeUnavailable 0
  | .probing, .sending _ | .probing, .asking _ | .lost, .sending _ | .lost, .asking _ => p.finishParcel e.slot .nodeLost 0
  | .misfit, .sending _ | .misfit, .asking _ => p
  | .excluded, .sending _ | .excluded, .asking _ => p.finishParcel e.slot .nodeUnavailable 0
  | .probing, .finishing | .lost, .finishing | .excluded, .finishing | .misfit, .finishing =>
    if e.abandonOwed then p.abandonDone e.slot else p

/-- The node table's report of a node's change, taken for each of its entries in queue order (R125). -/
def Part.parcelNodeChange (p : Part) (i : NodeIx) (new : NodeState) : Part :=
  (p.parcels.queue.filter (·.node == i)).foldl (fun p e => p.parcelAtChange new e) p

/-- An accepted commit, before the node table's reports: entries whose record is no longer enabled or has another line
address (R126). -/
def Part.parcelCommit (p : Part) (new : Vector NodeEntry 48) : Part :=
  let gone := p.parcels.queue.filter fun e => !(new.get e.node).enabled || (new.get e.node).address != e.address
  gone.foldl (fun p e =>
    match e.transfer with
    | .waiting | .sending _ | .asking _ => p.finishParcel e.slot .nodeUnavailable 0
    | .finishing => if e.abandonOwed then p.abandonDone e.slot else p) p

/-! ## The discovery scan (R113 to R116, R178, R179) -/

/-- The ask total is read (R113). -/
def Part.readTotal (p : Part) : Part :=
  let p := { p with parcels := { p.parcels with walk := .total, triggerAgain := false } }
  p.issueRead .walk Config.offAskTotal

/-- A scan trigger, by the walk state (R113; for a trigger during the ask total's read, log 20). At rest the parcel unit takes none (R129);
one that falls there waits for the line to be held (log 37). -/
def Part.scanTrigger (p : Part) : Part :=
  if p.ladder.state.pauses then { p with parcels := { p.parcels with keptTrigger := true } }
  else
    match p.parcels.walk with
    | .idle => p.readTotal
    | .total => { p with parcels := { p.parcels with triggerAgain := true } }
    | _ => { p with parcels := { p.parcels with scanOwed := true } }

/-- The offsets of a visit's reads within the slot, in the order of R178. -/
def visitOffset (k : Nat) : Nat :=
  match k with
  | 0 => 0x000
  | 1 => 0x100
  | 2 => 0x104
  | 3 => 0x004
  | 4 => 0x008
  | _ => 0x00C

/-- The walk stands at a slot: the first read of a visit (R178). -/
def Part.visitSlot (p : Part) (slot : SlotIx) (left : Nat) : Part :=
  let p := { p with parcels := { p.parcels with walk := .visit slot left [] } }
  p.issueRead .walk (Config.offSlot slot.val + visitOffset 0)

/-- Case 1 of R114: the deferred answer names the slot. -/
def Part.deferredAt (p : Part) (slot : SlotIx) : Bool := p.parcels.deferred.map (·.slot) == some slot

/-- The deferred answer of the slot under visit is written (R114 case 1, R116). -/
def Part.answerDeferred (p : Part) (slot : SlotIx) (left : Nat) : Part :=
  let p := { p with parcels := { p.parcels with walk := .answering slot left } }
  p.readyAnswer .deferred

/-- A walk stops: the cursor at the slot, a scan owed (R114). -/
def Part.walkStop (p : Part) (slot : SlotIx) : Part :=
  { p with parcels := { p.parcels with walk := .idle, cursor := slot, scanOwed := true } }

/-- A walk has visited all 16 slots; with a scan owed a trigger is taken at once (R113). -/
def Part.walkEnd (p : Part) : Part :=
  let p := { p with parcels := { p.parcels with walk := .idle } }
  if p.parcels.scanOwed then p.scanTrigger else p

/-- The walk passes on from a slot (R114). -/
def Part.walkOn (p : Part) (slot : SlotIx) (left : Nat) : Part :=
  if left ≤ 1 then p.walkEnd else p.visitSlot (slot + 1) (left - 1)

/-- The ask total has been read (R113). -/
def Part.totalRead (p : Part) (total : Word) : Part :=
  let again := p.parcels.triggerAgain
  if total != p.parcels.totalSeen || p.parcels.scanOwed then
    let p := { p with parcels := { p.parcels with totalSeen := total, scanOwed := again, triggerAgain := false } }
    p.visitSlot p.parcels.cursor 16
  else
    let p := { p with parcels := { p.parcels with walk := .idle } }
    if again then p.readTotal else p

/-- An immediate answer of the slot under visit (R116). -/
def Part.answerAtOnce (p : Part) (slot : SlotIx) (left : Nat) (ask : Half) (outcome : ParcelOutcome) : Part :=
  let p := { p with parcels := { p.parcels with walk := .answering slot left } }
  p.readyAnswer (.immediate slot ask outcome)

/-- The write of the taken number that ends a take's reads (R115, step 2). -/
def Part.writeTaken (p : Part) (slot : SlotIx) (left : Nat) (h : SlotHeader) (words : List Word) : Part :=
  let request := (words.flatMap wordBytes).take h.length
  let p := { p with parcels := { p.parcels with walk := .taking slot left h request } }
  p.issueWrite .walk (Config.offSlot slot.val + 0x100) (0#16 ++ h.ask)

/-- A take begins: the request data is read, in increasing address order, before the taken number is written (R115, R179). -/
def Part.beginTake (p : Part) (slot : SlotIx) (left : Nat) (h : SlotHeader) : Part :=
  if h.length = 0 then p.writeTaken slot left h []
  else
    let p := { p with parcels := { p.parcels with walk := .copying slot left h [] } }
    p.issueRead .walk (Config.offSlot slot.val + 0x010)

/-- Cases 3 to 7 of R114, on the words of a visit. -/
def Part.judgeSlot (p : Part) (slot : SlotIx) (left : Nat) (ask withdraw : Half) (target length : Word) : Part :=
  let address := byteAt target 0
  let n := (halfAt length 0).toNat
  if withdraw = ask then p.answerAtOnce slot left ask .withdrawn
  else
    match Operation.ofCode (byteAt target 1) with
    | none => p.answerAtOnce slot left ask .refusedRequest
    | some op =>
      if !isLineAddress address || decide (240 < n) || (op == .write && n == 0) then
        p.answerAtOnce slot left ask .refusedRequest
      else
        match p.enabledAt address with
        | none => p.answerAtOnce slot left ask .nodeUnavailable
        | some i =>
          if (p.node i).state = .lost ∨ (p.node i).state = .misfit then p.answerAtOnce slot left ask .nodeUnavailable
          else if p.parcels.queue.length < Config.parcelEntries then
            p.beginTake slot left
              { node := i, ask := ask, target := address, operation := op, parameter := halfAt target 1, length := n }
          else p.walkStop slot

/-- Case 2 of R114: the slot is not to be judged. -/
def Part.notJudged (p : Part) (slot : SlotIx) (ask taken answer : Half) : Bool :=
  ask == taken || ask == answer || (p.parcelOf slot).isSome

/-- A word of a visit has been read; `got` holds the visit's words in the order read. The three numbers are read at each visit, and
where case 1 or 2 decides the slot, no more (R178). -/
def Part.visitRead (p : Part) (slot : SlotIx) (left : Nat) (got : List Word) : Part :=
  let readNext : Part :=
    let p := { p with parcels := { p.parcels with walk := .visit slot left got } }
    p.issueRead .walk (Config.offSlot slot.val + visitOffset got.length)
  match got with
  | [ask, taken, answer] =>
    if p.deferredAt slot then p.answerDeferred slot left
    else if p.notJudged slot (halfAt ask 0) (halfAt taken 0) (halfAt answer 0) then p.walkOn slot left
    else readNext
  | [ask, _, _, withdraw, target, length] => p.judgeSlot slot left (halfAt ask 0) (halfAt withdraw 0) target length
  | _ => readNext

/-- The entry of a take (R115, step 3). -/
def takenParcel (slot : SlotIx) (h : SlotHeader) (request : List Byte) (patience : Nat) (cycle : Word) : Parcel :=
  { slot := slot, ask := h.ask, node := h.node, address := h.target, operation := h.operation, parameter := h.parameter,
    request := request, reply := [], total := 0, transfer := .waiting, attempts := 0, patience := patience,
    segSent := false, pastCutoff := false, outcome := .done, nodeStatus := 0, abandonOwed := false, answerFailed := false,
    given := false, passed := false, takenIn := cycle }

/-- The taken number has been written: the entry is created at the tail (R115, steps 3 and 4). Where a commit applied since the
visit has taken the address from the record, the entry is finished as R126 finishes it; where the node has left service since, the entry
waits all the same (log 35). -/
def Part.parcelTaken (p : Part) (slot : SlotIx) (left : Nat) (h : SlotHeader) (request : List Byte) : Part :=
  let e := takenParcel slot h request p.loader.settings.patience p.sched.cycle
  let p := { p with parcels := { p.parcels with queue := p.parcels.queue ++ [e] } }
  let p := p.count .parcelsTaken
  let applied := (p.node h.node).applied
  let p := if applied.enabled && applied.address == h.target then p else p.finishParcel slot .nodeUnavailable 0
  p.walkOn slot left

/-- A word access of the walk has completed; `w` is the word read. -/
def Part.continueWalk (p : Part) (w : Word) : Part :=
  match p.parcels.walk with
  | .total => p.totalRead w
  | .visit slot left got => p.visitRead slot left (got ++ [w])
  | .copying slot left h got =>
    let got := got ++ [w]
    if 4 * got.length < h.length then
      let p := { p with parcels := { p.parcels with walk := .copying slot left h got } }
      p.issueRead .walk (Config.offSlot slot.val + 0x010 + 4 * got.length)
    else p.writeTaken slot left h got
  | .taking slot left h request => p.parcelTaken slot left h request
  | .idle | .answering _ _ => p

/-- An access of the walk has failed: no walk is made, or it stops at the slot (R113, R114). -/
def Part.walkFailed (p : Part) : Part :=
  match p.parcels.walk with
  | .total =>
    let again := p.parcels.triggerAgain
    let p := { p with parcels := { p.parcels with walk := .idle, scanOwed := true } }
    if again then p.readTotal else p
  | .visit slot _ _ | .copying slot _ _ _ | .taking slot _ _ _ => p.walkStop slot
  | .idle | .answering _ _ => p

/-- Whether the read in progress of a visit decides its slot: the answer number where case 1 or 2 holds, or the request
length (R114, R178). -/
def Part.visitDecides (p : Part) (w : Word) : Bool :=
  match p.parcels.walk with
  | .visit slot _ [ask, taken] => p.deferredAt slot || p.notJudged slot (halfAt ask 0) (halfAt taken 0) (halfAt w 0)
  | .visit _ _ [_, _, _, _, _] => true
  | _ => false

/-! ## Completion of answers -/

/-- The withdraw check before an entry's answer write (R119): WITHDRAWN in place of the outcome decided, node status 0. Past the cut-off
the withdraw number has no effect. -/
def Parcel.withdrawChecked (e : Parcel) (w : Word) : Parcel :=
  if e.pastCutoff = false ∧ halfAt w 0 = e.ask then { e with outcome := .withdrawn, nodeStatus := 0 } else e

/-- The answer-number write has completed (R116, R127). -/
def Part.answerComplete (p : Part) : Part :=
  match p.parcels.answers with
  | .entry slot :: _ =>
    match p.parcelOf slot with
    | some e => ((p.countAnswer e.outcome).freeParcel slot).nextAnswer
    | none => p.nextAnswer
  | .immediate slot _ outcome :: _ =>
    let p := ((p.count .parcelsTaken).countAnswer outcome).nextAnswer
    match p.parcels.walk with
    | .answering _ left => p.walkOn slot left
    | _ => p
  | .deferred :: _ =>
    match p.parcels.deferred with
    | some d =>
      let p := { p with parcels := { p.parcels with deferred := none } }
      let p := ((p.count .parcelsTaken).countAnswer d.outcome).nextAnswer
      match p.parcels.walk with
      | .answering _ left => p.walkOn d.slot left
      | _ => p
    | none => p.nextAnswer
  | [] => p

/-- A word access of the answer in progress has completed; `w` is the withdraw number read. -/
def Part.continueAnswer (p : Part) (w : Word) : Part :=
  match p.parcels.answering with
  | some .checking =>
    match p.parcels.answers with
    | .entry slot :: _ =>
      let p := p.modParcel slot fun e => e.withdrawChecked w
      match p.parcelOf slot with
      | some e => p.writeAnswer e.answerWrites
      | none => p.nextAnswer
    | _ => p
  | some (.writing (_ :: next :: rest)) => p.writeAnswer (next :: rest)
  | some (.writing _) => p.answerComplete
  | none => p

/-- Whether the access in progress of an answer is its answer-number write, the last of its writes. -/
def Part.answerAtNumber (p : Part) : Bool :=
  match p.parcels.answering with
  | some (.writing [_]) => true
  | _ => false

/-- An access of the answer in progress has failed (R116, R128). -/
def Part.answerFailed (p : Part) : Part :=
  match p.parcels.answers with
  | .entry slot :: _ => (p.modParcel slot fun e => { e with answerFailed := true }).nextAnswer
  | .immediate slot ask outcome :: _ =>
    let p := if p.answerAtNumber then
        { p with parcels := { p.parcels with deferred := some { slot := slot, taken := ask, outcome := outcome } } }
      else p
    (p.walkStop slot).nextAnswer
  | .deferred :: _ =>
    match p.parcels.deferred with
    | some d => (p.walkStop d.slot).nextAnswer
    | none => p.nextAnswer
  | [] => p

/-! ## The parcel unit at rest (R129) -/

/-- The accesses of the parcel unit. -/
def Source.isParcels : Source → Bool
  | .walk | .withdraw | .answer => true
  | .stateWord | .startup | .loader | .status _ | .outTake | .outInUse | .slice | .close | .cycleWord | .eventsTaken | .append
  | .statAsk | .snapshot | .cut => false

/-- RESTING is entered: at rest the parcel unit writes nothing (R129), so its accesses behind the one in progress leave the request list
until the line is held again (log 37). -/
def Part.parkParcels (p : Part) : Part :=
  { p with bus := p.bus.take 1 ++ (p.bus.drop 1).filter (!·.source.isParcels),
           parked := p.parked ++ (p.bus.drop 1).filter (·.source.isParcels) }

/-- The parcel unit acts on the end of one of its accesses. -/
def Part.parcelEnd (p : Part) : ParcelEnd → Part
  | .walk (some w) => p.continueWalk w
  | .walk none => p.walkFailed
  | .answer (some w) => p.continueAnswer w
  | .answer none => p.answerFailed

/-- An access of the parcel unit has ended. At rest its entries keep their state (R129), and it acts once the line is held again (log
37). -/
def Part.takeParcelEnd (p : Part) (e : ParcelEnd) : Part :=
  if p.ladder.state.pauses then { p with parcels := { p.parcels with keptEnd := some e } } else p.parcelEnd e

/-- The end kept at rest is acted on. -/
def Part.takeKeptEnd (p : Part) : Part :=
  match p.parcels.keptEnd with
  | some e => { p with parcels := { p.parcels with keptEnd := none } }.parcelEnd e
  | none => p

/-- The line is held again: the end kept at rest is acted on, then the trigger kept is taken (log 37). -/
def Part.resumeParcels (p : Part) : Part :=
  let p := p.takeKeptEnd
  if p.parcels.keptTrigger then { p with parcels := { p.parcels with keptTrigger := false } }.scanTrigger else p

/-! ## The parcel unit at a cycle open (R124, R128) -/

/-- The answers of entries with answer failed set are written again, in queue order, when fault-hold is clear (R128). R128 says at which
open, not at which instant of it the two flags are judged. DESIGN CHOICE (log 60), unsafe: they are judged at this step, after R17, as
they stand then, so an answer that fails in OPENING, with CAUSE.FAULT cleared before this step, is written again in that same open. -/
def Part.retryAnswers (p : Part) : Part :=
  if p.ladder.faultHold then p
  else
    let failed := p.parcels.queue.filter fun e => e.answerFailed && !p.parcels.answers.contains (.entry e.slot)
    failed.foldl (fun p e => p.readyAnswer (.entry e.slot)) p

/-- An answer that is written again has not ended yet (R128). -/
def Part.rewritesAnswers (p : Part) : Bool :=
  p.parcels.answers.any fun a =>
    match a with
    | .entry slot => (p.parcelOf slot).any (·.answerFailed)
    | .immediate _ _ _ | .deferred => false

/-- Whether the open whose steps are taken lowers an entry's patience: the entry is in WAITING, SENDING or ASKING and was taken before the
cycle of that open, which `parcelOwed` opens have followed (R124; log 47). -/
def Part.lowers (p : Part) (e : Parcel) : Bool :=
  e.patienceRuns && decide (p.sched.parcelOwed < (p.sched.cycle - e.takenIn).toNat)

/-- Patience is lowered by 1 in the entries of an open (R124). -/
def Part.lowerPatience (p : Part) : Part :=
  { p with parcels := { p.parcels with
      queue := p.parcels.queue.map fun e => if p.lowers e then { e with patience := e.patience - 1 } else e } }

/-- An entry whose patience has run out and that has not been finished for it yet. -/
def Parcel.outOfPatience (e : Parcel) : Bool := e.patienceRuns && e.patience == 0

/-- PATIENCE_EXPIRY for the entry of a slot: FINISHING with TIMED-OUT, with an ABANDON owed if a segment was sent (R124). -/
def Part.patienceExpired (p : Part) (slot : SlotIx) : Part :=
  match p.parcelOf slot with
  | some e =>
    if p.sched.parcelOpen = .expiring ∧ e.outOfPatience then
      if e.segSent then p.abandonParcel slot .timedOut else p.finishParcel slot .timedOut 0
    else p
  | none => p

end Sys2Proof.Machine
end

