-- ==== Sys2Proof/Machine/Status.lean ====
section
/-! DEFINITION. The node table's writes of status records (R20, R21): the state part and the event part, word after word, one record
after another. -/

namespace Sys2Proof.Machine

/-- The write of word `k` of node `i`'s state and event parts, with the value the record has now (R20; log 15). -/
def Part.issueStatus (p : Part) (i : NodeIx) (k : Fin 4) : Part :=
  p.issueWrite (.status k) (Config.offStatusRecord i.val + 4 * k.val) (statusWord (p.node i) (p.nodeEvents i) k)

/-- The write of the first record waiting begins. -/
def Part.startStatus (p : Part) : Part :=
  match p.table.writes with
  | w :: _ => p.issueStatus w.node 0
  | [] => p

/-- A write of node `i`'s state and event parts is asked for; it begins when those asked for before it have ended. `cause` tells
whether it is step 5 of a state change (R5). A record whose write waits already is written once more (log 40). -/
def Part.queueStatus (p : Part) (i : NodeIx) (cause : Bool) : Part :=
  let idle := p.table.writes.isEmpty
  let p := { p with table := { p.table with writes := p.table.writes ++ [{ node := i, cause := cause }] } }
  if idle then p.startStatus else p

/-- The write in progress is over, without or with an error, and the next begins; step 6 of the state change it belongs to is taken
(R5). -/
def Part.nextStatus (p : Part) (w : StatusWrite) : Part :=
  let p := if w.cause then p.setCause .node else p
  let p := { p with table := { p.table with writes := p.table.writes.drop 1 } }
  p.startStatus

/-- Word `k` of the record in progress has been written; a completed write clears status owed (R21), and with it what holds the
next append back (R104), unless the record is to be written once more. -/
def Part.statusStep (p : Part) (k : Fin 4) : Part :=
  match p.table.writes with
  | w :: rest =>
    if k.val < 3 then p.issueStatus w.node (k + 1)
    else
      let p := p.modNode w.node fun r => { r with statusOwed := false }
      let p := if p.events.blockedBy = some w.node ∧ rest.all (fun v => v.node != w.node) then
          { p with events := { p.events with blockedBy := none } }
        else p
      p.nextStatus w
  | [] => p

/-- The record whose write is in progress is owed (R21). -/
def Part.oweStatus (p : Part) : Part :=
  match p.table.writes with
  | w :: _ => p.modNode w.node fun r => { r with statusOwed := true }
  | [] => p

/-- A write of the record in progress has failed: it is owed (R21). -/
def Part.statusFailed (p : Part) : Part :=
  match p.table.writes with
  | w :: _ => p.oweStatus.nextStatus w
  | [] => p

/-- The records whose status owed flag is set are written again (R21), in increasing directory index (log 40). -/
def Part.writeOwed (p : Part) : Part :=
  (allNodes.filter fun i => (p.node i).statusOwed).foldl (fun p i => p.queueStatus i false) p

end Sys2Proof.Machine
end

