-- ==== Sys2Proof/Machine/Events.lean ====
section
/-! DEFINITION. The event unit (Chapter 6): indications, the fetch queue, places in the event list, appends, stray notes, the
events-taken read, and the outcomes of a FETCH. -/

namespace Sys2Proof.Machine

/-! ## Places (R106) -/

/-- The backlog: events written minus last taken, modulo 2^32. -/
def EventUnit.backlog (e : EventUnit) : Nat := (e.written - e.taken).toNat

/-- The free places: none while taken invalid or append stopped is set (R106). -/
def EventUnit.freePlaces (e : EventUnit) : Nat :=
  if e.takenInvalid || e.appendStopped then 0 else Config.eventRecords - e.backlog - e.claimed

/-- A place is claimed. -/
def Part.claimPlace (p : Part) : Part := { p with events := { p.events with claimed := p.events.claimed + 1 } }

/-- A claimed place is released, or filled by its record. -/
def Part.releasePlace (p : Part) : Part := { p with events := { p.events with claimed := p.events.claimed - 1 } }

/-! ## Indications and the fetch queue (R94, R95) -/

/-- The fetch queue replaced. -/
def Part.setQueue (p : Part) (q : List NodeIx) : Part := { p with events := { p.events with queue := q } }

/-- A node goes, or moves, to the tail of the queue (R95), in which it stands exactly while its latch is set (R94). -/
def Part.toTail (p : Part) (i : NodeIx) : Part :=
  if (p.nodeEvents i).latch then p.setQueue (removeNode i p.events.queue ++ [i]) else p

/-- An event indication of a node (R94). -/
def Part.indicate (p : Part) (i : NodeIx) (origin : LatchOrigin) : Part :=
  if (p.node i).applied.eventsEnabled then
    if (p.nodeEvents i).latch then p.count .redundantIndications
    else
      (p.modEvents i fun e => { e with latch := true, origin := origin }).toTail i
  else p

/-- A node's latch is cleared and it leaves the queue (R95). -/
def Part.unqueue (p : Part) (i : NodeIx) : Part :=
  let p := p.modEvents i fun e => { e with latch := false }
  p.setQueue (removeNode i p.events.queue)

/-- The appends that write a node's event. -/
def Append.isFor (a : Append) (i : NodeIx) : Bool :=
  match a.what with
  | .event j _ _ => j == i
  | .note _ _ => false

/-- A node leaves LIVE or SUSPECT, or its events are turned off: the latch is cleared, it leaves the queue, and an intake under
way goes on without queue action (R108), where its events are turned off too, and though it is queued again meanwhile (log 55). -/
def Part.eventLeaves (p : Part) (i : NodeIx) : Part :=
  let p := p.unqueue i
  { p with events := { p.events with
      appends := p.events.appends.map fun a => if a.isFor i then { a with detached := true } else a } }

/-- A commit re-creates a node: its event state is cleared, and an intake under way will leave it so (R6, R108). -/
def Part.eventCleared (p : Part) (i : NodeIx) : Part :=
  let p := p.eventLeaves i
  let p := p.modEvents i fun e => { e with accepted := 0, valid := false, ackOwed := false }
  { p with events := { p.events with
      appends := p.events.appends.map fun a => if a.isFor i then { a with void := true } else a } }

/-- The stray set's notes under way belong to no entry any more (R92). -/
def Part.voidNotes (p : Part) : Part :=
  { p with events := { p.events with
      appends := p.events.appends.map fun a =>
        match a.what with
        | .note _ _ => { a with void := true }
        | .event _ _ _ => a } }

/-! ## The acknowledgement (R98) -/

/-- The ack a POLL or FETCH attempt carries: last accepted, with ACKV when ack owed is set. -/
def Part.ackOf (p : Part) (i : NodeIx) : Option Byte :=
  let e := p.nodeEvents i
  if e.ackOwed then some e.accepted else none

/-- A GOOD attempt that carried an ack confirms it, if last accepted is still the value carried. -/
def Part.confirmAck (p : Part) (i : NodeIx) (carried : Option Byte) : Part :=
  match carried with
  | some a => if (p.nodeEvents i).accepted = a then p.modEvents i fun e => { e with ackOwed := false } else p
  | none => p

/-! ## Naming a node (R96, R97) -/

/-- Eligible for naming (R96, step 2), for a node in the queue. -/
def NodeEvents.eligible (e : NodeEvents) : Bool := !e.fetched && !e.intake

/-- The eligible node nearest the head of the queue. -/
def Part.firstEligible (p : Part) : Option NodeIx := p.events.queue.find? fun i => (p.nodeEvents i).eligible

/-- A fetch phase or a service round begins: fetched this turn is cleared for every node. -/
def Part.newRound (p : Part) : Part :=
  { p with events := { p.events with nodes := tabMap (fun _ e => { e with fetched := false }) p.events.nodes } }

/-- A node is named: a place is claimed for its FETCH (R96, step 3). -/
def Part.nameNode (p : Part) (i : NodeIx) : Part :=
  p.claimPlace.modEvents i fun e => { e with fetched := true }

/-- What the event unit reports to the ladder controller (R97): a FETCH could be named. In the held line a new round makes every
node of the queue eligible but those with an intake under way. -/
def Part.canName (p : Part) : Bool :=
  (p.events.queue.any fun i => !(p.nodeEvents i).intake) && decide (0 < p.events.freePlaces)

/-! ## Appends (R104, R105) -/

/-- The first append waiting begins, unless one is in progress or the newest record's status is owed (R104). -/
def Part.startAppend (p : Part) : Part :=
  match p.events.appending, p.events.blockedBy, p.events.appends with
  | none, none, a :: _ =>
    let p := { p with events := { p.events with appending := some 0 } }
    p.issueWrite .append (Config.offEventRecord (p.events.written.toNat % Config.eventRecords)) (a.record.getD 0 0)
  | _, _, _ => p

/-- An append becomes ready. -/
def Part.enqueueAppend (p : Part) (what : AppendFor) (record : List Word) : Part :=
  let a : Append := { what := what, record := record, detached := false, void := false }
  let p := { p with events := { p.events with appends := p.events.appends ++ [a] } }
  p.startAppend

/-- The append in progress is over, and the next begins. -/
def Part.nextAppend (p : Part) : Part :=
  let p := { p with events := { p.events with appends := p.events.appends.drop 1, appending := none } }
  p.startAppend

/-- The origin byte of a stray note's record (Table 11-7). -/
def strayNoteOrigin : Byte := 3

/-- A note is asked for where R107 allows it, and the oldest NOTE-PENDING entry is offered (R91). -/
def Part.offerNote (p : Part) : Part :=
  if !p.events.noteUnderWay && decide (0 < p.events.freePlaces) && p.ladder.state.worksMemory then
    match p.windows.strays.find? (·.pendingNote) with
    | some s =>
      let p := p.claimPlace
      let p := { p with events := { p.events with noteUnderWay := true } }
      p.enqueueAppend (.note s.address s.count)
        (eventRecord strayNoteOrigin s.address 0 (BitVec.ofNat 16 s.count) p.sched.cycle [s.origin.code, s.kind])
    | none => p
  else p

/-- A note has been appended: its entry is NOTED, or NOTE-PENDING again where the count has doubled already (R91). -/
def Part.noteAppended (p : Part) (address : Byte) (count : Nat) : Part :=
  { p with windows := { p.windows with
      strays := p.windows.strays.map fun s =>
        if s.address = address then { s with lastNote := count, pendingNote := decide (2 * count ≤ s.count) } else s } }

/-- A node's event has been appended (R102; R108 for a node that has left service or was re-created since). -/
def Part.eventAccepted (p : Part) (a : Append) (i : NodeIx) (seq : Byte) (more : Bool) : Part :=
  let p := p.modEvents i fun e => { e with intake := false }
  if a.void then p
  else
    let p := p.modEvents i fun e => { e with accepted := seq, valid := true, ackOwed := true }
    if a.detached then p else if more then p.toTail i else p.unqueue i

/-- The events-written word's write has completed (R104, steps 3 and 4). The event part is written by the event unit, or with the
state part where that is owed (R21; log 23). A note is asked for before a waiting service is told (log 21). -/
def Part.appendPublished (p : Part) (a : Append) : Part :=
  let p := { p with events := { p.events with written := p.events.written + 1 } }
  let p := ((p.count .eventsAppended).setCause .event).releasePlace
  match a.what with
  | .event i seq more =>
    let p := p.eventAccepted a i seq more
    if (p.node i).statusOwed then
      let p := { p with events := { p.events with blockedBy := some i } }
      (p.queueStatus i false).nextAppend.offerNote
    else
      let p := { p with events := { p.events with appending := some 9 } }
      let p := p.issueWrite .append (Config.offStatusRecord i.val + 0x0C) (statusWord (p.node i) (p.nodeEvents i) 3)
      p.offerNote
  | .note address count =>
    let p := { p with events := { p.events with noteUnderWay := false } }
    let p := if a.void then p else p.noteAppended address count
    p.nextAppend.offerNote

/-- A word of the append in progress has been written. Positions 0 to 7 are the record's words, 8 the events-written word, 9 the
event part of the node's status record (R104). -/
def Part.continueAppend (p : Part) : Part :=
  match p.events.appending, p.events.appends with
  | some pos, a :: _ =>
    if pos < 7 then
      let p := { p with events := { p.events with appending := some (pos + 1) } }
      p.issueWrite .append
        (Config.offEventRecord (p.events.written.toNat % Config.eventRecords) + 4 * (pos + 1)) (a.record.getD (pos + 1) 0)
    else if pos = 7 then
      let p := { p with events := { p.events with appending := some 8 } }
      p.issueWrite .append Config.offEventsWritten (p.events.written + 1)
    else if pos = 8 then p.appendPublished a
    else p.nextAppend
  | _, _ => p

/-- Whether the access in progress of an append is the events-written word's write. -/
def Part.appendAtPublish (p : Part) : Bool := p.events.appending == some 8 && !p.events.appends.isEmpty

/-- An append has failed: nothing is published, its place is released, and the list is stopped (R105). -/
def Part.appendAborted (p : Part) (a : Append) : Part :=
  let p := p.releasePlace
  let p := match a.what with
    | .event i _ _ => p.modEvents i fun e => { e with intake := false }
    | .note _ _ => { p with events := { p.events with noteUnderWay := false } }
  let p := { p with events := { p.events with appendStopped := true } }
  p.nextAppend

/-- A write of the append in progress has failed (R105). -/
def Part.appendFailed (p : Part) : Part :=
  match p.events.appending, p.events.appends with
  | some pos, a :: _ =>
    if pos ≤ 8 then p.appendAborted a
    else
      match a.what with
      | .event i _ _ =>
        let p := p.modNode i fun r => { r with statusOwed := true }
        let p := { p with events := { p.events with blockedBy := some i } }
        p.nextAppend
      | .note _ _ => p.nextAppend
  | _, _ => p

/-! ## The events-taken word (R106) -/

/-- A read of the events-taken word is asked for; a read already under way takes the request in. -/
def Part.requestTaken (p : Part) (onFetch : Bool) : Part :=
  match p.events.takenRead with
  | some r => { p with events := { p.events with takenRead := some { onFetch := r.onFetch && onFetch } } }
  | none =>
    let p := { p with events := { p.events with takenRead := some { onFetch := onFetch } } }
    p.issueRead .eventsTaken Config.offEventsTaken

/-- Whether a value read lies neither ahead of events written nor behind last taken (R106). -/
def EventUnit.takenValid (e : EventUnit) (t : Word) : Bool := decide ((e.written - t).toNat ≤ (e.written - e.taken).toNat)

/-- A read of the events-taken word has ended with a value (R106). -/
def Part.takenValue (p : Part) (t : Word) (onFetch : Bool) : Part :=
  let e := p.events
  if e.takenValid t then
    { p with events :=
        { e with taken := t, takenInvalid := false, appendStopped := e.appendStopped && onFetch, takenRead := none } }
  else
    let p := { p with events := { e with takenInvalid := true, takenRead := none } }
    if e.takenInvalid then p else p.report .eventAckInvalid 0

/-- A read of the events-taken word has ended with an error response. -/
def Part.takenLost (p : Part) : Part := { p with events := { p.events with takenRead := none } }

/-! ## FETCH outcomes (R99 to R103) -/

/-- The event code of an EVENT, sent most significant byte first (Section 11.3). -/
def eventCode (payload : List Byte) : Half := payloadByte payload 1 ++ payloadByte payload 2

/-- A new event is taken in: intake under way, and its record's append (R102, Table 6-3). -/
def Part.takeEvent (p : Part) (i : NodeIx) (f : Frame) : Part :=
  let seq := payloadByte f.payload 0
  let origin := (p.nodeEvents i).origin.code
  let p := p.modEvents i fun e => { e with intake := true }
  p.enqueueAppend (.event i seq (f.flag 1))
    (eventRecord origin (p.node i).applied.address seq (eventCode f.payload) p.sched.cycle (f.payload.drop 3))

/-- A FETCH exchange has ended GOOD with EVENT `f` (R99 to R102); its ack has been confirmed before (R98). -/
def Part.fetchReply (p : Part) (i : NodeIx) (f : Frame) : Part :=
  let e := p.nodeEvents i
  if f.flag 0 then (p.unqueue i).releasePlace
  else if e.valid && payloadByte f.payload 0 == e.accepted then
    let p := p.releasePlace.count .eventDuplicates
    (p.modEvents i fun e => { e with ackOwed := true }).toTail i
  else p.takeEvent i f

end Sys2Proof.Machine
end

