-- ==== Sys2Proof/Machine/Nodes.lean ====
section
/-! DEFINITION. The node table (Chapter 1): state changes, exchange outcomes, bids and alerts, commits, and the node table's part of a
cycle open. -/

namespace Sys2Proof.Machine

/-! ## State changes (R5) -/

/-- Step 2 of R5: outside LIVE and SUSPECT, DEGRADED and FRESH-THIS-CYCLE are clear. -/
def NodeRecord.leaveService (r : NodeRecord) : NodeRecord :=
  if r.state.inService then r else { r with degraded := false, fresh := false }

/-- Step 1 of R5: the new state with its live fields, and the change count raised. -/
def NodeRecord.moved (r : NodeRecord) (f : NodeRecord → NodeRecord) (new : NodeState) : NodeRecord :=
  let r := f r
  { r with state := new, changeCount := r.changeCount + 1 }.leaveService

/-- A state change of node `i`, from its state to `new`: the steps of R5 but for the loss policy. Its
step 6 is taken when the write of step 5 has ended. In STARTING the status write and the cause are taken once for all records
(R25). -/
def Part.moveNode (p : Part) (i : NodeIx) (f : NodeRecord → NodeRecord) (new : NodeState) : Part :=
  let old := (p.node i).state
  let p := p.modNode i fun r => r.moved f new
  let p := if old.inService && !new.inService then p.eventLeaves i else p
  let p := p.parcelNodeChange i new
  let p := if old = .probing ∧ new = .live then
      { p with frames := { p.frames with toggles := tabModify p.frames.toggles i fun _ => true } }
    else p
  if p.ladder.state = .starting then p else p.queueStatus i true

/-- A state change of node `i` on an exchange, a bid, an alert or a countdown, with its loss policy on entry into PROBING, LOST or
MISFIT (R18). -/
def Part.changeState (p : Part) (i : NodeIx) (f : NodeRecord → NodeRecord) (new : NodeState) : Part :=
  let p := if new.inService then p else p.applyLoss (p.node i).applied p.loader.settings.inBytes
  p.moveNode i f new

/-- The live fields on entry into PROBING: miss count 0, countdown stopped. -/
def NodeRecord.toProbing (r : NodeRecord) : NodeRecord := { r with missCount := 0, countdown := none }

/-- The re-probe countdown at an entry into LOST (R16). -/
def loadedCountdown (delay : Nat) : Option Nat := if delay = 0 then none else some delay

/-! ## Exchange outcomes -/

/-- A GOOD reply sets the last good cycle (R3). -/
def Part.setLastGood (p : Part) (i : NodeIx) : Part :=
  p.modNode i fun r => { r with lastGood := p.sched.cycle }

/-- A good answer of a node in LIVE or SUSPECT (R10, R11): `f` sets its other fields, the miss count is 0 and SUSPECT becomes LIVE. -/
def Part.goodAnswer (p : Part) (i : NodeIx) (f : NodeRecord → NodeRecord) : Part :=
  let f' := fun r => { f r with lastGood := p.sched.cycle, missCount := 0 }
  if (p.node i).state = .suspect then p.changeState i f' .live else p.modNode i f'

/-- A POLL exchange of node `i` has ended with the GOOD DATA `f` (R10, R13). -/
def Part.goodData (p : Part) (i : NodeIx) (f : Frame) : Part :=
  let r := p.node i
  if r.state.inService then
    if f.flag 2 then p.changeState i (fun r => { r.toProbing with lastGood := p.sched.cycle }) .probing
    else
      let p := p.writeShadow r.applied.inOffset f.payload
      let p := p.goodAnswer i fun r => { r with fresh := true, degraded := f.flag 1 }
      let p := if r.state = .live ∧ r.degraded ≠ f.flag 1 then p.queueStatus i false else p
      if f.flag 0 then p.indicate i .data else p
  else p

/-- The identity check of R8, on an IDENT's kind, output length and input length: the first check that fails. -/
def misfitOf (e : NodeEntry) (kind : Byte) (outLength inLength : Nat) : MisfitReason :=
  if e.expectedKind ≠ 0 ∧ e.expectedKind ≠ kind then .kind
  else if outLength ≠ e.outLength then .outputLength
  else if inLength ≠ e.inLength then .inputLength
  else .none

/-- A PROBE of node `i` has ended with the GOOD IDENT `f` (R8). -/
def Part.goodIdent (p : Part) (i : NodeIx) (f : Frame) : Part :=
  let r := p.node i
  if r.state = .probing then
    let reason := misfitOf r.applied (payloadByte f.payload 0) (payloadByte f.payload 2).toNat (payloadByte f.payload 3).toNat
    p.changeState i
      (fun r => { r with kindSeen := payloadByte f.payload 0, revisionSeen := payloadByte f.payload 1, misfit := reason,
                         lastGood := p.sched.cycle, missCount := 0 })
      (if reason = .none then .live else .misfit)
  else p

/-- A miss of node `i` (R12). -/
def Part.miss (p : Part) (i : NodeIx) : Part :=
  let r := p.node i
  if r.state.inService then
    let p := p.count .nodeMisses
    let count := r.missCount + 1
    let f := fun r : NodeRecord => { r with missCount := count, missTotal := r.missTotal + 1 }
    if r.applied.missLimit ≤ count then
      p.changeState i (fun r => { f r with countdown := loadedCountdown r.applied.reprobeDelay }) .lost
    else if r.state = .live then p.changeState i f .suspect
    else (p.modNode i f).queueStatus i false
  else p

/-- A FETCH exchange of node `i` has ended GOOD (R11). -/
def Part.goodEvent (p : Part) (i : NodeIx) : Part :=
  if (p.node i).state.inService then p.goodAnswer i id else p

/-! ## Bids and alerts -/

/-- A GOOD BID of node `i` (R14): reason EVENT is 1, ATTEND is 2. -/
def Part.nodeBid (p : Part) (i : NodeIx) (reason : Byte) : Part :=
  match (p.node i).state with
  | .live | .suspect =>
    if reason = 1 then p.indicate i .bid else p.changeState i NodeRecord.toProbing .probing
  | .lost => p.changeState i NodeRecord.toProbing .probing
  | .probing | .misfit | .excluded => p

/-- An ALERT of node `i` taken in the held line (R15). -/
def Part.nodeAlert (p : Part) (i : NodeIx) : Part :=
  match (p.node i).state with
  | .live | .suspect => p.indicate i .alert
  | .lost => p.changeState i NodeRecord.toProbing .probing
  | .probing | .misfit | .excluded => p

/-! ## Commits (R6, R7, R19) -/

/-- Whether two entries have the same identity (R2). -/
def NodeEntry.sameIdentity (a b : NodeEntry) : Bool :=
  a.address == b.address && a.expectedKind == b.expectedKind && a.outLength == b.outLength && a.inLength == b.inLength

/-- Whether a commit re-creates a record: newly enabled, or its identity changed (Table 1-4). -/
def recreates (old new : NodeEntry) : Bool := new.enabled && (!old.enabled || !old.sameIdentity new)

/-- The first pass of R19 for one record: the old policy on the old slice of a record that enters EXCLUDED, or that is re-created
from another identity. -/
def Part.lossBefore (p : Part) (i : NodeIx) (new : NodeEntry) (size : Nat) : Part :=
  let old := (p.node i).applied
  if old.enabled && (!new.enabled || recreates old new) then p.applyLoss old size else p

/-- Whether R7 sends a record to LOST: SUSPECT with a miss count at or above the new limit. -/
def NodeRecord.limitReached (r : NodeRecord) (new : NodeEntry) : Bool :=
  r.state == .suspect && decide (new.missLimit ≤ r.missCount)

/-- The second pass of R19 for one record: the new policy on the new slice of a record that is (re-)created, or that R7 sends to
LOST. -/
def Part.lossAfter (p : Part) (i : NodeIx) (new : NodeEntry) (size : Nat) : Part :=
  let r := p.node i
  if recreates r.applied new || (new.enabled && r.applied.enabled && r.limitReached new) then p.applyLoss new size else p

/-- The re-probe countdown of a LOST record that keeps its state (R7). -/
def keptCountdown (old : Option Nat) (delay : Nat) : Option Nat :=
  match old with
  | none => loadedCountdown delay
  | some n => if delay = 0 then none else some n

/-- One record under an accepted commit (Table 1-4, R7), with the new entry loaded; the status record is rewritten where the
applied part changed or the record is re-created (R20, R6). -/
def Part.commitNode (p : Part) (i : NodeIx) (new : NodeEntry) : Part :=
  let r := p.node i
  let load := fun r : NodeRecord => { r with applied := new }
  let rewrite := fun (p : Part) (due : Bool) => if due && p.ladder.state != .starting then p.queueStatus i false else p
  if !new.enabled then
    let clear := fun r : NodeRecord => { load r with missCount := 0, countdown := none }
    if r.state = .excluded then rewrite (p.modNode i clear) (r.applied != new)
    else p.moveNode i clear .excluded
  else if recreates r.applied new then
    let p := p.eventCleared i
    let probe := fun r : NodeRecord => (load r).toProbing
    if r.state = .probing then rewrite (p.modNode i probe) true
    else p.moveNode i probe .probing
  else
    let p := if r.applied.eventsEnabled && !new.eventsEnabled then p.eventLeaves i else p
    if r.limitReached new then
      p.moveNode i
        (fun r => { load r with missCount := new.missLimit, countdown := loadedCountdown new.reprobeDelay }) .lost
    else if r.state = .lost then
      rewrite
        (p.modNode i fun r => { load r with missCount := new.missLimit, countdown := keptCountdown r.countdown new.reprobeDelay })
        (r.applied != new)
    else rewrite (p.modNode i load) (r.applied != new)

/-- The node table takes an accepted commit (R6, R7), loss policies first in the two passes of R19; `size` is the new input image
size (R72). Each pass takes the records in increasing directory index, and their status records are written in that order (log 39). -/
def Part.nodeCommit (p : Part) (new : Vector NodeEntry 48) (size : Nat) : Part :=
  let p := allNodes.foldl (fun p i => p.lossBefore i (new.get i) size) p
  let p := allNodes.foldl (fun p i => p.lossAfter i (new.get i) size) p
  allNodes.foldl (fun p i => p.commitNode i (new.get i)) p

/-! ## The cycle open (R16, R17) -/

/-- Steps 2 and 3 of R17 for one record: FRESH-THIS-CYCLE cleared, a running countdown of a LOST node lowered unless the commit of
this open loaded it. -/
def NodeRecord.atOpen (r : NodeRecord) (exempt : Bool) : NodeRecord :=
  { r with
    fresh := false,
    countdown := if r.state = .lost ∧ exempt = false then r.countdown.map (· - 1) else r.countdown }

/-- Steps 2 and 3 of R17; the countdowns that reach 0 expire next, each a step of its own (log 14). -/
def Part.nodeOpen (p : Part) (exempt : NodeIx → Bool) : Part :=
  { p with
    table := { p.table with records := tabMap (fun i r => r.atOpen (exempt i)) p.table.records },
    sched := { p.sched with nodeOpen := .expiring } }

/-- Whether a record's countdown has reached 0. -/
def NodeRecord.reprobeDue (r : NodeRecord) : Bool := r.state == .lost && r.countdown == some 0

/-- REPROBE_COUNTDOWN_EXPIRY (R16, R17 step 3). -/
def Part.reprobe (p : Part) (i : NodeIx) : Part := p.changeState i NodeRecord.toProbing .probing

/-- Step 4 of R17, once every countdown at 0 has expired; the node table reports ready when no status record write is left, those asked
for another reason included (R31; log 50). -/
def Part.settleNodeOpen (p : Part) : Part :=
  let p := if p.sched.state = .opening ∧ p.sched.nodeOpen = .expiring ∧
        p.table.records.toList.all (fun r => !r.reprobeDue) then
      let p := p.writeOwed
      { p with sched := { p.sched with nodeOpen := .writing } }
    else p
  if p.sched.state = .opening ∧ p.sched.nodeOpen = .writing ∧ p.table.writes = [] then
    { p with sched := { p.sched with nodeOpen := .ready } }
  else p

end Sys2Proof.Machine
end

