-- ==== Sys2Proof/Machine/Windows.lean ====
section
/-! DEFINITION. The window unit (Chapter 5): opening a window, taking its slots, adapting its size, and the stray set. -/

namespace Sys2Proof.Machine

/-- The window unit changed. -/
def Part.modWindows (p : Part) (f : WindowUnit → WindowUnit) : Part := { p with windows := f p.windows }

/-- A window is opened: OPEN, the tallies at 0, and the WINDOW frame with the size and the last-clash flag (R82). -/
def Part.openWindow (p : Part) : Part :=
  let p := p.modWindows fun w => { w with isOpen := true, tallies := { empty := 0, bid := 0, stray := 0, clash := 0 } }
  p.give .window
    (encodeFrame .window 0 0 [BitVec.ofNat 8 p.windows.size.slots, if p.windows.lastClash then 1 else 0])

/-- A due window that does not fit (R89); `fault` tells whether the window's own size is at fault: the latch is clear and the next
expiry has not occurred. -/
def Part.windowNotFitted (p : Part) (fault : Bool) : Part :=
  if fault then p.modWindows fun w => { w with size := w.size.halve, streak := 0 } else p

/-! ## The stray set (R90) -/

/-- A sighting of an address that has an entry: the count rises to at most 255, a bid sets the kind, and a NOTED entry whose
count has reached twice its count at last note is NOTE-PENDING again (R90, R91). -/
def Stray.sightedAgain (s : Stray) (origin : StrayOrigin) (kind : Byte) : Stray :=
  let count := if s.count = 255 then 255 else s.count + 1
  { s with count := count, kind := if origin = .bid then kind else s.kind,
           pendingNote := s.pendingNote || decide (2 * s.lastNote ≤ count) }

/-- A new entry; one created by an ALERT holds kind 0. -/
def Stray.first (address : Byte) (origin : StrayOrigin) (kind : Byte) : Stray :=
  { address := address, origin := origin, kind := if origin = .bid then kind else 0, count := 1, lastNote := 0,
    pendingNote := true }

/-- The stray set after a sighting (R90). -/
def sight (strays : List Stray) (address : Byte) (origin : StrayOrigin) (kind : Byte) : List Stray :=
  if strays.any (·.address == address) then
    strays.map fun s => if s.address = address then s.sightedAgain origin kind else s
  else if strays.length < Config.strayEntries then strays ++ [Stray.first address origin kind]
  else strays

/-- Whether an address has an entry in NOTE-PENDING. -/
def notePending (strays : List Stray) (address : Byte) : Bool := strays.any fun s => s.address == address && s.pendingNote

/-- A sighting is taken (R90); when its entry has entered NOTE-PENDING the event unit asks for a note (R91, R107). -/
def Part.sighting (p : Part) (address : Byte) (origin : StrayOrigin) (kind : Byte) : Part :=
  let strays := sight p.windows.strays address origin kind
  let entered := !notePending p.windows.strays address && notePending strays address
  let p := p.modWindows fun w => { w with strays := strays }
  if entered then p.offerNote else p

/-! ## Slots (R83 to R86) -/

/-- A tally raised. -/
def Part.tally (p : Part) (f : Tallies → Tallies) : Part := p.modWindows fun w => { w with tallies := f w.tallies }

/-- A slot's report is classified and taken (R83). -/
def Part.takeSlot (p : Part) (report : SlotReport) : Part :=
  match report with
  | .quiet => p.tally fun t => { t with empty := t.empty + 1 }
  | .notGood => (p.tally fun t => { t with clash := t.clash + 1 }).count .windowClashes
  | .goodBid address reason kind =>
    match p.enabledAt address with
    | some i => ((p.tally fun t => { t with bid := t.bid + 1 }).count .windowBids).nodeBid i reason
    | none => ((p.tally fun t => { t with stray := t.stray + 1 }).count .strayFrames).sighting address .bid kind

/-! ## The end of a window (R87, R88) -/

/-- The size and the streak after a window of `clash` CLASH slots and `good` BID and STRAY slots (R88). "c is greater than W/4" is
exact. -/
def adapt (size : WindowSize) (streak : Fin 4) (clash good : Nat) : WindowSize × Fin 4 :=
  if size.slots < 4 * clash then (size.double, 0)
  else if clash = 0 ∧ good = 0 then
    if streak = 3 then (size.halve, 0) else (size, streak + 1)
  else (size, 0)

/-- The window ends (R87). -/
def Part.endWindow (p : Part) : Part :=
  p.modWindows fun w =>
    let t := w.tallies
    let adapted := adapt w.size w.streak t.clash (t.bid + t.stray)
    { w with lastClash := decide (1 ≤ t.clash), size := adapted.1, streak := adapted.2, isOpen := false }

/-! ## Commit (R92) -/

/-- The window unit at an accepted commit: the stray set emptied, the size loaded, the streak 0, the last-clash flag clear. -/
def Part.windowCommit (p : Part) (initial : Nat) : Part :=
  let p := p.modWindows fun w =>
    { w with size := (WindowSize.ofSlots initial).getD w.size, streak := 0, lastClash := false, strays := [] }
  p.voidNotes

end Sys2Proof.Machine
end

