-- ==== Sys2Proof/Machine/Loader.lean ====
section
/-! DEFINITION. The directory loader (Chapter 8): the commit check, the eight checks on a directory, and what an accepted or a refused
commit does. -/

namespace Sys2Proof.Machine

/-! ## Judging the directory (R137 to R140) -/

/-- Every line setting within its range (Table 8-2). -/
def LineSettings.inRange (s : LineSettings) : Bool :=
  decide (s.bitRate ≤ 3) && decide (10 ≤ s.cyclePeriod) && decide (s.cyclePeriod ≤ 10000) &&
  decide (s.outBytes ≤ Config.maxImageBytes) && decide (s.inBytes ≤ Config.maxImageBytes) &&
  (WindowSize.ofSlots s.initialWindow).isSome && decide (1 ≤ s.cycleDivisor) && decide (1 ≤ s.patience) &&
  decide (1 ≤ s.rouseTime) && decide (4 ≤ s.defaultTimeout)

/-- The line address of an entry within 1 to 250. -/
def NodeEntry.addressValid (e : NodeEntry) : Bool := isLineAddress e.address

/-- Every field that BAD-TIMING checks within its range (Table 1-1, R134). -/
def DirEntry.timingValid (d : DirEntry) : Bool :=
  let e := d.entry
  (e.periodClass == 1 || e.periodClass == 2 || e.periodClass == 4 || e.periodClass == 8) &&
  decide (e.phase < e.periodClass) && decide (e.outLength ≤ 63) && decide (e.inLength ≤ 64) &&
  (e.replyTimeout == 0 || decide (4 ≤ e.replyTimeout)) && decide (e.retries ≤ 3) && decide (1 ≤ e.missLimit) &&
  decide (e.missLimit ≤ 15) && d.lossValid

/-- A slice lies inside an image (R138). -/
def sliceInside (offset length size : Nat) : Bool := length == 0 || decide (offset + length ≤ size)

/-- Two slices of one image overlap (R138). -/
def slicesOverlap (o1 l1 o2 l2 : Nat) : Bool :=
  l1 != 0 && l2 != 0 && decide (o1 < o2 + l2) && decide (o2 < o1 + l1)

/-- Both slices of an entry inside their images. -/
def NodeEntry.slicesInside (e : NodeEntry) (s : LineSettings) : Bool :=
  sliceInside e.outOffset e.outLength s.outBytes && sliceInside e.inOffset e.inLength s.inBytes

/-- Two entries' output slices, or their input slices, overlap. -/
def NodeEntry.overlaps (a b : NodeEntry) : Bool :=
  slicesOverlap a.outOffset a.outLength b.outOffset b.outLength || slicesOverlap a.inOffset a.inLength b.inOffset b.inLength

/-- The enabled entries of a directory with their indices, in increasing index. -/
def Directory.enabled (d : Directory) : List (NodeIx × DirEntry) :=
  (allNodes.map fun i => (i, d.entries.get i)).filter fun e => e.2.entry.enabled

/-- The first entry, in order, for which `bad` holds with those before it. -/
def firstBad (bad : List NodeEntry → DirEntry → Bool) : List NodeEntry → List (NodeIx × DirEntry) → Option NodeIx
  | _, [] => none
  | before, (i, d) :: rest => if bad before d then some i else firstBad bad (d.entry :: before) rest

/-- Line time in half microseconds with the close allowance (R36, R140). -/
def budgetTime (bitRate bt : Nat) : Nat := bt * Config.byteTime bitRate + Config.closeAllowance

/-- The worst case of a POLL attempt in byte times (Table 3-8). -/
def pollWorst (e : NodeEntry) (timeout : Nat) : Nat := 19 + e.outLength + e.inLength + timeout

/-- The POLL term of residue `r` (R140, step 1). -/
def pollTerm (s : LineSettings) (entries : List NodeEntry) (r : Nat) : Nat :=
  entries.foldl (fun n e =>
    if r % e.periodClass = e.phase then n + (e.retries + 1) * pollWorst e (effectiveTimeout s e) else n) 0

/-- The PROBE term (R140, step 2). -/
def probeTerm (s : LineSettings) (entries : List NodeEntry) : Nat :=
  if entries.isEmpty then 0 else 2 * (22 + entries.foldl (fun n e => max n (effectiveTimeout s e)) 0)

/-- Whether the worst-case poll phase of residue `r` fits the cycle period (R140, steps 3 and 4). -/
def residueFits (s : LineSettings) (entries : List NodeEntry) (r : Nat) : Bool :=
  decide (budgetTime s.bitRate (pollTerm s entries r + probeTerm s entries) ≤ s.cyclePeriod * Config.periodUnit)

/-- A line-level setting differs (R139). -/
def LineSettings.lineChange (a b : LineSettings) : Bool :=
  a.bitRate != b.bitRate || a.cyclePeriod != b.cyclePeriod || a.outBytes != b.outBytes || a.inBytes != b.inBytes

/-- A judgement: the code, the entry index and the residue. -/
structure Judgement where
  code : VerdictCode
  entry : Byte
  residue : Byte
  deriving DecidableEq, Repr

/-- A judgement that names an entry. -/
def Judgement.naming (code : VerdictCode) (i : NodeIx) : Judgement := { code := code, entry := BitVec.ofNat 8 i.val, residue := 0 }

/-- A judgement that names no entry. -/
def Judgement.whole (code : VerdictCode) (residue : Nat) : Judgement :=
  { code := code, entry := 255, residue := BitVec.ofNat 8 residue }

/-- The eight checks in the order of Table 8-3; `applied` is the settings in force where LINE-CHANGE-IN-RUN is made (R139). -/
def judge (d : Directory) (applied : Option LineSettings) : Judgement :=
  let on := d.enabled
  let entries := on.map (·.2.entry)
  if !d.settings.inRange then Judgement.whole .badLineSetting 0
  else
  match firstBad (fun _ d => !d.entry.addressValid) [] on with
  | some i => Judgement.naming .badAddress i
  | none =>
  match firstBad (fun before d => before.any fun e => e.address == d.entry.address) [] on with
  | some i => Judgement.naming .duplicateAddress i
  | none =>
  match firstBad (fun _ d => !d.timingValid) [] on with
  | some i => Judgement.naming .badTiming i
  | none =>
  match firstBad (fun _ e => !e.entry.slicesInside d.settings) [] on with
  | some i => Judgement.naming .sliceOutside i
  | none =>
  match firstBad (fun before d => before.any fun e => e.overlaps d.entry) [] on with
  | some i => Judgement.naming .sliceOverlap i
  | none =>
  if applied.any (·.lineChange d.settings) then Judgement.whole .lineChangeInRun 0
  else
  match (List.range 8).find? fun r => !residueFits d.settings entries r with
  | some r => Judgement.whole .pollBudget r
  | none => { code := .accepted, entry := 0, residue := 0 }

/-- The verdict of a judgement on a generation. -/
def Judgement.verdict (j : Judgement) (generation : Word) : Verdict :=
  { code := j.code, entry := j.entry, residue := j.residue, generation := byteAt generation 0 }

/-! ## The commit check (R135, R136) -/

/-- The loader changed. -/
def Part.modLoader (p : Part) (f : Loader → Loader) : Part := { p with loader := f p.loader }

/-- A commit check at a position, with the access that it waits for. -/
def Part.checkAt (p : Part) (c : Check) : Part :=
  let p := p.modLoader fun l => { l with check := some c }
  match c.pos with
  | .rewriteVerdict | .writeVerdict => p.issueWrite .loader Config.offVerdict p.loader.verdict.word
  | .rewriteGeneration | .writeGeneration => p.issueWrite .loader Config.offAcceptedGeneration p.loader.accepted
  | .readGeneration | .rereadGeneration => p.issueRead .loader Config.offGeneration
  | .readDirectory => p.issueRead .loader (directoryOffset c.words.length)
  | .awaitHeld | .awaitStatus => p

/-- A commit check begins; one outside STARTING first writes again what is owed (R135, R143, R144). -/
def Part.beginCheck (p : Part) (origin : CheckFrom) : Part :=
  let pos := if p.loader.verdictOwed && origin != .startup then CheckPos.rewriteVerdict else .readGeneration
  p.checkAt { origin := origin, pos := pos, generation := 0, words := [] }

/-- The statistics part of a cycle open, after the commit check (R166): the period, and the read of the stat ask word. -/
def Part.statOpen (p : Part) : Part :=
  let period := p.loader.settings.statPeriod
  let count := if period = 0 then 0 else p.faults.periodCount + 1
  let p := { p with faults :=
    { p.faults with periodCount := count, periodDue := period != 0 && decide (period ≤ count), askReading := true,
                    triggered := p.faults.triggered || (p.faults.snapState == SnapState.owed && p.faults.snapshot.isNone) } }
  p.issueRead .statAsk Config.offStatAsk

/-- A commit check ends, and what waits for its end goes on (R31, R154, R21, R113, R166). -/
def Part.checkEnd (p : Part) (origin : CheckFrom) : Part :=
  let p := p.modLoader fun l => { l with check := none }
  match origin with
  | .opening =>
    let p := if p.sched.nodeOpen = .waitCommit then p.nodeOpen fun _ => false else p
    let p := { p with sched := { p.sched with loaderReady := true } }
    p.statOpen
  | .nudge =>
    let p := p.writeOwed.scanTrigger
    if p.loader.checkOwed then (p.modLoader fun l => { l with checkOwed := false }).beginCheck .nudge else p
  | .owed => if p.loader.checkOwed then (p.modLoader fun l => { l with checkOwed := false }).beginCheck .nudge else p
  | .startup => p

/-! ## Accepted and refused (R141 to R143) -/

/-- The countdowns that a commit loads are those that stood still before it (R17, step 3). -/
def countdownLoaded (before after : NodeRecord) : Bool := before.countdown.isNone && after.countdown.isSome

/-- Whether an origin byte is a node event's: DATA, BID or ALERT (Table 11-7). -/
def isNodeOrigin (b : Byte) : Bool := b == 0 || b == 1 || b == 2

/-- Last accepted of an enabled entry after a start-up commit (R110, step 4): from its kept status record if that has its line
address and is valid, and in place of it from the newest event record if that is a node event from its line address. -/
def restoredEvents (e : NodeEvents) (address : Byte) (kept : KeptStatus) (newest : Option Word) : NodeEvents :=
  let e := if kept.address = address ∧ kept.valid then { e with accepted := kept.accepted, valid := true } else e
  match newest with
  | some w =>
    if isNodeOrigin (byteAt w 0) ∧ byteAt w 1 = address then { e with accepted := byteAt w 2, valid := true } else e
  | none => e

/-- The event unit loads last accepted for every enabled entry after the start-up commit (R110, step 4). -/
def Part.restoreAccepted (p : Part) : Part :=
  match p.ladder.startup with
  | some s =>
    { p with events := { p.events with
        nodes := tabMap (fun i e =>
          if (p.node i).applied.enabled then restoredEvents e (p.node i).applied.address (s.kept.get i) s.newest else e)
          p.events.nodes } }
  | none => p

/-- An accepted commit is handed to the units in the order of R142, and its publication begins with the status records (R143), in
start-up those of all 48 records in increasing directory index (R25; log 39). At a cycle open the node table goes on with R17 at
once. -/
def Part.acceptCommit (p : Part) (d : Directory) (c : Check) (v : Verdict) : Part :=
  let before := p.table.records
  let new := tabMap (fun _ e => DirEntry.applied e) d.entries
  let oldSize := p.loader.settings.inBytes
  let p := p.parcelCommit new
  let p := p.nodeCommit new d.settings.inBytes
  let p := p.clearShadow d.settings.inBytes oldSize
  let p := p.windowCommit d.settings.initialWindow
  let p := p.modLoader fun l => { l with settings := d.settings, accepted := c.generation, refused := none, verdict := v }
  let p := p.count .commitsAccepted
  let p := match c.origin with
    | .opening => p.nodeOpen fun i => countdownLoaded (before.get i) (p.node i)
    | .startup => allNodes.foldl (fun p i => p.queueStatus i false) p.restoreAccepted
    | .nudge | .owed => p
  p.checkAt { c with pos := .awaitStatus, words := [] }

/-- A refused commit: the refused generation and the verdict (R141); CONFIG-REFUSED follows the verdict's write (log 17). -/
def Part.refuseCommit (p : Part) (c : Check) (v : Verdict) : Part :=
  let p := p.modLoader fun l => { l with refused := some c.generation, verdict := v }
  p.checkAt { c with pos := .writeVerdict, words := [] }

/-- The directory read is judged (R137). -/
def Part.judgeCopy (p : Part) (c : Check) : Part :=
  let d := directoryOf c.words.reverse
  let j := judge d (if p.ladder.state = .run then some p.loader.settings else none)
  let v := j.verdict c.generation
  if j.code = .accepted then p.acceptCommit d c v else p.refuseCommit c v

/-- The directory read and found whole is judged, at rest once the line is next held: a commit is applied in HELD, at a cycle open and in
STARTING only (R142, R156; log 37). -/
def Part.copyRead (p : Part) (c : Check) : Part :=
  if p.ladder.state.pauses then p.checkAt { c with pos := .awaitHeld } else p.judgeCopy c

/-- A directory read at rest is judged. -/
def Part.judgeKept (p : Part) : Part :=
  match p.loader.check with
  | some c => if c.pos = .awaitHeld then p.judgeCopy c else p
  | none => p

/-- CONFIG-REFUSED is reported with verdict code and entry index (R141, Table 11-12). -/
def Part.reportRefused (p : Part) : Part :=
  p.report .configRefused (p.loader.verdict.entry ++ p.loader.verdict.code.code)

/-- The generation word has been read (R135); in STARTING the directory is judged whatever it reads (R144). -/
def Part.generationRead (p : Part) (c : Check) (g : Word) : Part :=
  let go := p.checkAt { c with pos := .readDirectory, generation := g, words := [] }
  if c.origin = .startup then go
  else if g = p.loader.accepted then (p.modLoader fun l => { l with refused := none }).checkEnd c.origin
  else if p.loader.refused = some g then p.checkEnd c.origin
  else go

/-- An access of the commit check has completed; `w` is the word read. The rewrite of what is owed writes the accepted generation word
where it is owed or the last verdict is ACCEPTED, and the verdict word alone otherwise; words published whole by a later commit stay
owed until then (R143; log 42). -/
def Part.continueCheck (p : Part) (w : Word) : Part :=
  match p.loader.check with
  | none => p
  | some c =>
    match c.pos with
    | .rewriteVerdict =>
      if p.loader.generationOwed || p.loader.verdict.code == .accepted then p.checkAt { c with pos := .rewriteGeneration }
      else (p.modLoader fun l => { l with verdictOwed := false }).checkAt { c with pos := .readGeneration }
    | .rewriteGeneration =>
      let p := p.modLoader fun l => { l with verdictOwed := false, generationOwed := false }
      (if p.loader.verdict.code = .accepted then p.setCause .commit else p).checkAt { c with pos := .readGeneration }
    | .readGeneration => p.generationRead c w
    | .readDirectory =>
      let c := { c with words := w :: c.words }
      if c.words.length < directoryWords then p.checkAt c else p.checkAt { c with pos := .rereadGeneration }
    | .rereadGeneration =>
      if w = c.generation then p.copyRead c
      else if c.origin = .startup then p.checkAt { c with pos := .readGeneration, words := [] }
      else p.checkEnd c.origin
    | .awaitHeld | .awaitStatus => p
    | .writeVerdict =>
      if p.loader.verdict.code = .accepted then p.checkAt { c with pos := .writeGeneration }
      else p.reportRefused.checkEnd c.origin
    | .writeGeneration => (p.setCause .commit).checkEnd c.origin

/-- A write of the verdict word or of the accepted generation word has failed: what was not written is owed (R143), and a refusal is
reported all the same (R141; log 17). -/
def Part.verdictFailed (p : Part) : Part :=
  match p.loader.check.map Check.pos with
  | some .writeVerdict =>
    if p.loader.verdict.code = .accepted then p.modLoader fun l => { l with verdictOwed := true, generationOwed := true }
    else (p.modLoader fun l => { l with verdictOwed := true }).reportRefused
  | some .writeGeneration => p.modLoader fun l => { l with verdictOwed := true, generationOwed := true }
  | _ => p

/-- An access of the commit check has failed, outside STARTING (R135, R136, R143; log 33). -/
def Part.checkFailed (p : Part) : Part :=
  match p.loader.check with
  | none => p
  | some c =>
    match c.pos with
    | .rewriteVerdict | .rewriteGeneration => p.checkAt { c with pos := .readGeneration }
    | .readGeneration | .readDirectory | .rereadGeneration => p.checkEnd c.origin
    | .awaitHeld | .awaitStatus => p
    | .writeVerdict | .writeGeneration => p.verdictFailed.checkEnd c.origin

/-- The verdict word is written once the status records of the commit have been (R143); those asked for meanwhile for another reason
are waited for too (log 41). In STARTING CAUSE.NODE is set then if any record changed state (R25). -/
def Part.settleCheck (p : Part) : Part :=
  match p.loader.check with
  | some c =>
    if c.pos = .awaitStatus ∧ p.table.writes = [] then
      let p := if p.ladder.state = .starting ∧ p.table.records.toList.any (fun r => r.state != .excluded) then
          p.setCause .node
        else p
      p.checkAt { c with pos := .writeVerdict }
    else p
  | none => p

end Sys2Proof.Machine
end

