-- ==== Sys2Proof/Machine/Snapshots.lean ====
section
/-! DEFINITION. Statistics snapshots (R166 to R168). -/

namespace Sys2Proof.Machine

/-- The fault and interrupt unit changed. -/
def Part.modFaults (p : Part) (f : FaultUnit → FaultUnit) : Part := { p with faults := f p.faults }

/-- The next odd snapshot sequence value: by 1 from an even one, by 2 from an odd one (R167). -/
def nextOdd (seq : Word) : Word := if seq.getLsbD 0 then seq + 2 else seq + 1

/-- How many words a snapshot writes: the odd value, 26 of the block, three of each record, the even value (R167). -/
def snapshotWords : Nat := 1 + 26 + 3 * 48 + 1

/-- The words of the statistics block after the sequence word: cycle number, ask echo, counters (Table 11-6). -/
def snapshotBlock (s : Snapshot) (k : Nat) : Word :=
  match k with
  | 0 => s.cycle
  | 1 => s.ask
  | k + 2 => if h : k < 24 then s.counters.get ⟨k, h⟩ else 0

/-- The three words of a record that a snapshot writes, in increasing address order: the last good cycle as it stands, poll total and
miss total from the copy (R167, Table 11-5). -/
def Part.snapshotRecord (p : Part) (s : Snapshot) (i : NodeIx) (k : Nat) : Nat × Word :=
  let base := Config.offStatusRecord i.val
  match k with
  | 0 => (base + 0x08, (p.node i).lastGood)
  | 1 => (base + 0x10, (s.totals.get i).1)
  | _ => (base + 0x14, (s.totals.get i).2)

/-- The write at a snapshot's position: offset and word. -/
def Part.snapshotWrite (p : Part) (s : Snapshot) : Nat × Word :=
  if s.pos = 0 then (Config.offStatistics, p.faults.snapSeq)
  else if s.pos < 27 then (Config.offStatistics + 4 * s.pos, snapshotBlock s (s.pos - 1))
  else
    let n := s.pos - 27
    if h : n / 3 < 48 then p.snapshotRecord s ⟨n / 3, h⟩ (n % 3)
    else (Config.offStatistics, p.faults.snapSeq)

/-- A snapshot at a position; the even value is taken as its write is issued. -/
def Part.snapshotAt (p : Part) (s : Snapshot) : Part :=
  let p := p.modFaults fun f =>
    { f with snapshot := some s, snapSeq := if s.pos + 1 = snapshotWords then f.snapSeq + 1 else f.snapSeq }
  let write := p.snapshotWrite s
  p.issueWrite .snapshot write.1 write.2

/-- A snapshot begins: the copy, the next odd value, and its write (R167). -/
def Part.beginSnapshot (p : Part) : Part :=
  let s : Snapshot :=
    { pos := 0, counters := p.faults.counters, cycle := p.sched.cycle, ask := p.faults.askSeen,
      totals := tabMap (fun _ r => (r.pollTotal, r.missTotal)) p.table.records }
  (p.modFaults fun f => { f with snapState := .writing, snapSeq := nextOdd f.snapSeq }).snapshotAt s

/-- A snapshot has ended, whole or with an error: the owed one begins where the ladder allows (R166, R168). -/
def Part.endSnapshot (p : Part) : Part :=
  let p := p.modFaults fun f => { f with snapshot := none }
  match p.faults.snapState with
  | .owed => if p.ladder.state.worksMemory then p.beginSnapshot else p
  | .writing | .idle => p.modFaults fun f => { f with snapState := .idle }

/-- A word of the snapshot in progress has been written. -/
def Part.continueSnapshot (p : Part) : Part :=
  match p.faults.snapshot with
  | some s => if s.pos + 1 < snapshotWords then p.snapshotAt { s with pos := s.pos + 1 } else p.endSnapshot
  | none => p

/-- Whether the access in progress of a snapshot is its even write. -/
def Part.snapshotAtEnd (p : Part) : Bool :=
  match p.faults.snapshot with
  | some s => s.pos + 1 == snapshotWords
  | none => false

/-- A trigger, by the snapshot state (R166). -/
def Part.triggerSnapshot (p : Part) : Part :=
  match p.faults.snapState, p.faults.snapshot with
  | .writing, some _ => p.modFaults fun f => { f with snapState := .owed }
  | .owed, some _ => p
  | _, none => if p.ladder.state.worksMemory then p.beginSnapshot else p.modFaults fun f => { f with snapState := .owed }
  | .idle, some _ => p

/-- The trigger of an open is taken once both of its ways are decided (R166; log 27). -/
def Part.settleSnapshot (p : Part) : Part :=
  if p.faults.triggered && !p.faults.periodDue && !p.faults.askReading then
    (p.modFaults fun f => { f with triggered := false }).triggerSnapshot
  else p

/-- STAT_PERIOD_EXPIRY: the period count is 0 again and a snapshot is triggered (R166). -/
def Part.periodExpired (p : Part) : Part :=
  p.modFaults fun f => { f with periodCount := 0, periodDue := false, triggered := true }

/-- The stat ask word has been read (R166). -/
def Part.statAskRead (p : Part) (w : Word) : Part :=
  p.modFaults fun f =>
    { f with askReading := false, askSeen := w, triggered := f.triggered || f.askSeen != w }

/-- The read of the stat ask word has failed (R166). -/
def Part.statAskFailed (p : Part) : Part := p.modFaults fun f => { f with askReading := false }

/-- The request list once a snapshot has been cut: its word in progress goes on as no one's, and one that waits is not written, since
RESTING and the rungs below it make no snapshot writes (R168). -/
def cutAccesses : List Access → List Access
  | [] => []
  | a :: rest => (if a.source = .snapshot then { a with source := .cut } else a) :: rest.filter (·.source != .snapshot)

/-- The ladder leaves HELD for RESTING: a snapshot in progress is ended at its word in progress (R168). -/
def Part.cutSnapshot (p : Part) : Part :=
  let p := p.modFaults fun f =>
    { f with snapshot := none, snapState := if f.snapState = .writing then .idle else f.snapState }
  { p with bus := cutAccesses p.bus }

end Sys2Proof.Machine
end

