-- ==== Sys2Proof/Machine/Scheduler.lean ====
section
/-! DEFINITION. The line scheduler (Chapter 2): the cycle open, the poll list, the budget, the optional phases, and what each exchange's
outcome leads to in RUN. -/

namespace Sys2Proof.Machine

/-- The scheduler changed. -/
def Part.modSched (p : Part) (f : Scheduler → Scheduler) : Part := { p with sched := f p.sched }

/-! ## Time and the budget (R28, R36) -/

/-- Time passes on the cycle timer, up to its next expiry. -/
def Part.passTime (p : Part) (dt : Nat) : Part := p.modSched fun s => { s with timer := s.timer.map (· - dt) }

/-- The overrun latch is clear and the next expiry has not occurred (R36, R89; log 32). -/
def Scheduler.timeLeft (s : Scheduler) : Bool :=
  !s.overrun && (match s.timer with | some left => decide (0 < left) | none => false)

/-- What lasts `bt` byte times at worst fits before the next expiry with the close allowance (R36). -/
def Part.fits (p : Part) (bt : Nat) : Bool :=
  p.sched.timeLeft &&
    (match p.sched.timer with | some left => decide (budgetTime p.loader.settings.bitRate bt ≤ left) | none => false)

/-- The effective reply timeout of a node. -/
def Part.timeoutOf (p : Part) (i : NodeIx) : Nat := effectiveTimeout p.loader.settings (p.node i).applied

/-! ## The cycle open (R29, R31) -/

/-- A cycle starts: its number, the count, and the open announced to the units (R29, R31). -/
def Part.startCycle (p : Part) : Part :=
  let interval := p.loader.settings.windowInterval
  let p := p.modSched fun s =>
    { s with state := .opening, cycle := s.cycle + 1, interval := interval, pollList := [], attempts := 0, fetchRead := false,
             withdrawRead := none, loaderReady := false, imageReady := false, nodeOpen := .waitCommit,
             parcelOpen := if s.parcelOpen = .done then .waiting else s.parcelOpen,
             parcelOwed := if s.parcelOpen = .done then s.parcelOwed else s.parcelOwed + 1 }
  let p := p.count .cyclesStarted
  let p := p.beginCheck .opening
  let p := p.issueRead .outTake Config.offOutputPublish
  p.requestTaken false

/-- Failed answers are written again at an open, after the loader's and the node table's steps (R128); answer failed and fault-hold are
judged here, not when the open is announced (DESIGN CHOICE, log 60). -/
def Part.openRewrites (p : Part) : Part :=
  if p.sched.parcelOpen = .waiting ∧ p.sched.loaderReady ∧ p.sched.nodeOpen = .ready then
    p.retryAnswers.modSched fun s => { s with parcelOpen := .rewriting }
  else p

/-- Once those writes have ended, patience is lowered (R128, R124). -/
def Part.openPatience (p : Part) : Part :=
  if p.sched.parcelOpen = .rewriting ∧ p.rewritesAnswers = false then
    p.lowerPatience.modSched fun s => { s with parcelOpen := .expiring }
  else p

/-- Once no entry is out of patience, the scan trigger of the open is taken (R113); the steps of an open announced meanwhile come next
(log 47). -/
def Part.openScan (p : Part) : Part :=
  if p.sched.parcelOpen = .expiring ∧ p.parcels.queue.all (fun e => !e.outOfPatience) then
    (p.modSched fun s =>
      { s with parcelOpen := if s.parcelOwed = 0 then .done else .waiting, parcelOwed := s.parcelOwed - 1 }).scanTrigger
  else p

/-- The parcel unit's steps of an open (R113, R124, R128). The scheduler waits for none of their accesses (R31), and what of them the ladder
leaves RUN before waits until it is in RUN again (R129; log 47). -/
def Part.settleParcelOpen (p : Part) : Part :=
  if p.ladder.state = .run then p.openRewrites.openPatience.openScan else p

/-- Readiness is complete (R31), and the time-driven steps of the open have been taken (log 14). -/
def Part.openIsReady (p : Part) : Bool :=
  p.sched.state == .opening && p.sched.loaderReady && p.sched.nodeOpen == .ready && p.sched.imageReady &&
    p.sched.parcelOpen != .expiring

/-! ## The poll list (R32, R33) -/

/-- Whether a record is due in a cycle (R32). -/
def NodeEntry.due (e : NodeEntry) (cycle : Word) : Bool := cycle.toNat % e.periodClass == e.phase

/-- The directory indices in increasing order counted cyclically from `start`. -/
def cyclicFrom (start : NodeIx) : List NodeIx := allNodes.drop start.val ++ allNodes.take start.val

/-- A probe candidate (R33): in PROBING and due. -/
def Part.candidate (p : Part) (i : NodeIx) : Bool :=
  (p.node i).state == .probing && (p.node i).applied.due p.sched.cycle

/-- The ranking of the probe candidates: the marked ones first (R33). -/
def Part.probeRanking (p : Part) : List NodeIx :=
  let all := (cyclicFrom p.sched.probeStart).filter p.candidate
  all.filter (fun i => p.sched.passedOver.get i) ++ all.filter (fun i => !p.sched.passedOver.get i)

/-- The poll list, POLL and PROBE entries in increasing directory index, given the candidates chosen (R33). -/
def Part.pollListOf (p : Part) (chosen : List NodeIx) : List PollEntry :=
  allNodes.filterMap fun i =>
    if (p.node i).state.inService && (p.node i).applied.due p.sched.cycle then some (.poll i)
    else if chosen.contains i then some (.probe i)
    else none

/-- POLLING is entered: the poll list is built and the probe rotation updated (R33). -/
def Part.enterPolling (p : Part) : Part :=
  let chosen := p.probeRanking.take 2
  let list := p.pollListOf chosen
  let marks := tabMap (fun i m =>
    if p.candidate i then !chosen.contains i else if (p.node i).state = .probing then m else false) p.sched.passedOver
  p.modSched fun s =>
    { s with state := .polling, pollList := list, passedOver := marks,
             probeStart := match chosen.getLast? with | some i => i + 1 | none => s.probeStart }

/-! ## The close -/

/-- The line work of the cycle is done: CLOSING, and the close is signalled (R39, R40). -/
def Part.enterClosing (p : Part) : Part :=
  let p := { p with parcels := { p.parcels with passPos := none } }
  (p.modSched fun s => { s with state := .closing }).beginClose

/-! ## The parcel phase (R39, R118 to R123) -/

/-- An entry eligible for an exchange (R118). -/
def Part.parcelEligible (p : Part) (e : Parcel) : Bool :=
  (p.node e.node).state.inService &&
    match e.transfer with
    | .sending _ | .asking _ => true
    | .finishing => e.abandonOwed
    | .waiting =>
      (p.parcels.queue.all fun o => o.slot == e.slot || o.node != e.node || !o.inTransfer) &&
      ((p.parcels.queue.takeWhile (·.slot != e.slot)).all fun o => o.node != e.node || o.transfer != .waiting)

/-- The place of a slot's entry in the queue. -/
def Part.placeOf (p : Part) (slot : SlotIx) : Nat := (p.parcels.queue.takeWhile (·.slot != slot)).length

/-- The first entry at or after `pos` that is eligible and has had no exchange in this pass (R118), nor a failed withdraw read in
this phase (R119). -/
def Part.offered (p : Part) (pos : Nat) : Option Parcel :=
  (p.parcels.queue.drop pos).find? fun e => p.parcelEligible e && !e.given && !e.passed

/-- An entry's exchange is named: the scheduler performs it where it fits (R39), and the pass goes on behind the entry (R118).
`f` is what naming does to the entry; an exchange that does not fit leaves the entry as it was, a first SEG included (log 53). -/
def Part.nameExchange (p : Part) (e : Parcel) (bt : Nat) (f : Parcel → Parcel) (ex : Exchange) (frame : List Byte) : Part :=
  if p.fits bt then
    let pos := p.placeOf e.slot + 1
    let p := p.modParcel e.slot fun e => { f e with given := true }
    let p := { p with parcels := { p.parcels with passPos := some pos, passNamed := true } }
    (p.modSched fun s => { s with state := .parcelling }).give ex frame
  else p.enterClosing

/-- The line address of an entry's node. -/
def Part.addressOf (p : Part) (i : NodeIx) : Byte := (p.node i).applied.address

/-- The request segment an entry sends next. -/
def Transfer.segment : Transfer → Nat
  | .sending n => n
  | .waiting | .asking _ | .finishing => 0

/-- The SEG of an entry in WAITING or SENDING (R120). -/
def Part.nameSeg (p : Part) (e : Parcel) : Part :=
  let n := e.transfer.segment
  let length := e.request.length
  let tag := parcelTag e.slot e.ask
  let segment := segmentByte n (n == lastSegment length)
  let data := (e.request.drop (48 * n)).take 48
  p.nameExchange e (74 + p.timeoutOf e.node) (fun e => { e with transfer := .sending n, segSent := true })
    (.seg e.node e.slot tag segment)
    (encodeFrame .seg 0 (p.addressOf e.node)
      (tag :: segment :: e.operation.code :: BitVec.ofNat 8 length :: e.parameter.extractLsb' 8 8 ::
        e.parameter.extractLsb' 0 8 :: data))

/-- The NEXT of an entry in ASKING n (R121). -/
def Part.nameNext (p : Part) (e : Parcel) (n : Nat) : Part :=
  let tag := parcelTag e.slot e.ask
  let wanted : Byte := BitVec.ofNat 8 n
  p.nameExchange e (72 + p.timeoutOf e.node) id (.next e.node e.slot tag wanted)
    (encodeFrame .next 0 (p.addressOf e.node) [tag, wanted])

/-- The ABANDON of an entry in FINISHING (R123). -/
def Part.nameAbandon (p : Part) (e : Parcel) : Part :=
  p.nameExchange e 10 id (.abandon e.node e.slot)
    (encodeFrame .abandon 0 (p.addressOf e.node) [parcelTag e.slot e.ask])

/-- An entry is served: its withdraw number is read before a SEG (R119), or its NEXT or ABANDON is named. -/
def Part.serveParcel (p : Part) (e : Parcel) : Part :=
  match e.transfer with
  | .waiting | .sending _ =>
    let p := { p with parcels := { p.parcels with passPos := some (p.placeOf e.slot) } }
    let p := p.modSched fun s => { s with withdrawRead := some e.slot }
    p.readWithdraw .withdraw e.slot
  | .asking n => p.nameNext e n
  | .finishing => p.nameAbandon e

/-- A new pass begins at the head (R118). -/
def Part.newPass (p : Part) : Part :=
  { p with parcels :=
      { p.parcels with passPos := some 0, passNamed := false,
                       queue := p.parcels.queue.map fun e => { e with given := false } } }

/-- The scheduler asks the parcel unit for its next exchange (R39, R118). -/
def Part.parcelNext (p : Part) : Part :=
  match p.offered (p.parcels.passPos.getD 0) with
  | some e => p.serveParcel e
  | none =>
    if p.parcels.passNamed then
      let p := p.newPass
      match p.offered 0 with
      | some e => p.serveParcel e
      | none => p.enterClosing
    else p.enterClosing

/-- The parcel phase begins: a new pass, and no entry passed over. -/
def Part.parcelPhase (p : Part) : Part :=
  let p := p.newPass
  let p := { p with parcels := { p.parcels with queue := p.parcels.queue.map fun (e : Parcel) => { e with passed := false } } }
  p.parcelNext

/-- Whether an entry's next exchange is a SEG (R120). -/
def Parcel.sendsNext (e : Parcel) : Bool :=
  match e.transfer with
  | .waiting | .sending _ => true
  | .asking _ | .finishing => false

/-- The withdraw number of an entry has been read before a SEG (R119). An entry that is due none any more is passed over for this
request, or offered its ABANDON. -/
def Part.withdrawRead (p : Part) (slot : SlotIx) (w : Word) : Part :=
  let p := p.modSched fun s => { s with withdrawRead := none }
  match p.parcelOf slot with
  | some e =>
    if p.parcelEligible e && e.sendsNext then
      if halfAt w 0 = e.ask then
        if e.segSent then
          let p := p.abandonParcel slot .withdrawn
          p.nameAbandon e
        else (p.finishParcel slot .withdrawn 0).parcelNext
      else p.nameSeg e
    else p.parcelNext
  | none => p.parcelNext

/-- The read of the withdraw number before a SEG has failed: the entry is passed over for the rest of the phase (R119). -/
def Part.withdrawLost (p : Part) (slot : SlotIx) : Part :=
  let p := p.modSched fun s => { s with withdrawRead := none }
  (p.modParcel slot fun e => { e with passed := true }).parcelNext

/-- A failed attempt of a SEG or NEXT of an entry in SENDING or ASKING; the third one fails the parcel (R120 to R122). -/
def Part.parcelAttemptFailed (p : Part) (slot : SlotIx) : Part :=
  match p.parcelOf slot with
  | some e =>
    match e.transfer with
    | .sending _ | .asking _ =>
      let p := p.modParcel slot fun e => { e with attempts := e.attempts + 1 }
      if e.attempts + 1 = Config.parcelAttempts then p.abandonParcel slot .transferFailed else p
    | .waiting | .finishing => p
  | none => p

/-- A GOOD SEGACK of the SEG with a segment byte (R120). An entry that has timed out meanwhile (log 47) keeps its outcome, and the SEGACK
of the LAST segment takes it past its cut-off all the same (R119; log 56). -/
def Part.segAcked (p : Part) (slot : SlotIx) (segment : Byte) : Part :=
  p.modParcel slot fun e =>
    match e.transfer with
    | .sending n =>
      if n = lastSegment e.request.length then { e with attempts := 0, pastCutoff := true, transfer := .asking 0 }
      else { e with attempts := 0, transfer := .sending (n + 1) }
    | .finishing => { e with pastCutoff := e.pastCutoff || segment.getLsbD 7 }
    | .waiting | .asking _ => e

/-- Whether the SEGREP for segment `n` is consistent (R121). -/
def Parcel.consistent (e : Parcel) (n : Nat) (f : Frame) : Bool :=
  let total := (payloadByte f.payload 3).toNat
  decide (total ≤ 240) && (n == 0 || total == e.total) && f.payload.length - 4 == min 48 (total - 48 * n) &&
    (payloadByte f.payload 1).getLsbD 7 == (n == lastSegment total)

/-- A GOOD SEGREP for segment `n` of an entry in ASKING `n` (R121). It is dropped for an entry that has timed out meanwhile (log 56). -/
def Part.segReplied (p : Part) (slot : SlotIx) (n : Nat) (f : Frame) : Part :=
  match p.parcelOf slot with
  | some e =>
    if e.transfer ≠ .asking n then p
    else if f.flag 0 then p.modParcel slot fun e => { e with attempts := 0 }
    else if e.consistent n f then
      let total := (payloadByte f.payload 3).toNat
      let p := p.modParcel slot fun e =>
        { e with reply := e.reply.take (48 * n) ++ f.payload.drop 4, total := total, attempts := 0 }
      if n = lastSegment total then
        let status := payloadByte f.payload 2
        p.finishParcel slot (if status = 0 then .done else .nodeRejected) status
      else p.modParcel slot fun e => { e with transfer := .asking (n + 1) }
    else p.parcelAttemptFailed slot
  | none => p

/-! ## The fetch phase (R38, R96) -/

/-- The worst case of a FETCH attempt (Table 3-8). -/
def Part.fetchWorst (p : Part) (i : NodeIx) : Nat := 38 + p.timeoutOf i

/-- A FETCH attempt is handed to the frame engine with the ack as it stands (R98). -/
def Part.giveFetch (p : Part) (i : NodeIx) : Part :=
  let ack := p.ackOf i
  p.give (.fetch i ack) (fetchFrame (p.addressOf i) ack)

/-- A named node's FETCH begins, if its first attempt fits; otherwise its place is released and the phase ends (R38, R96). -/
def Part.beginFetch (p : Part) (i : NodeIx) : Part :=
  let p := p.nameNode i
  if p.fits (p.fetchWorst i) then
    let retries := (p.node i).applied.retries
    (p.modSched fun s => { s with state := .fetching, attempts := retries }).giveFetch i
  else p.releasePlace.parcelPhase

/-- The scheduler asks the event unit for a FETCH (R38, R96). While it waits for the read, and while the parcel phase waits for a
withdraw read, the state of the phase before stands (log 45). -/
def Part.fetchNext (p : Part) : Part :=
  match p.firstEligible with
  | none => p.parcelPhase
  | some i =>
    if 0 < p.events.freePlaces then p.beginFetch i
    else (p.modSched fun s => { s with fetchRead := true }).requestTaken true

/-- The fetch phase begins (R96, step 1). -/
def Part.fetchPhase (p : Part) : Part := p.newRound.fetchNext

/-- The read that a FETCH request waited for has ended (R96, step 4). -/
def Part.fetchAfterRead (p : Part) : Part :=
  let p := p.modSched fun s => { s with fetchRead := false }
  match p.firstEligible with
  | none => p.parcelPhase
  | some i => if 0 < p.events.freePlaces then p.beginFetch i else (p.count .fetchesDeferred).parcelPhase

/-- A FETCH exchange has ended GOOD: the ack is confirmed first, then the outcome is taken (R98, R11, R99 to R102). -/
def Part.fetchGood (p : Part) (i : NodeIx) (ack : Option Byte) (f : Frame) : Part :=
  ((p.confirmAck i ack).goodEvent i).fetchReply i f

/-- A FETCH attempt of the fetch phase has failed (R38, R103). -/
def Part.fetchAttemptFailed (p : Part) (i : NodeIx) : Part :=
  if p.sched.attempts = 0 then ((p.releasePlace).miss i).fetchNext
  else if p.fits (p.fetchWorst i) then (p.modSched fun s => { s with attempts := s.attempts - 1 }).giveFetch i
  else p.releasePlace.parcelPhase

/-! ## The window phase (R37, R89) -/

/-- The worst case of a window (Table 3-8). -/
def windowWorst (w : WindowSize) : Nat := 11 + 12 * w.slots

/-- Whether the window interval and the cycle number call for a window (R37). -/
def Scheduler.windowDue (s : Scheduler) : Bool := s.interval != 0 && s.cycle.toNat % s.interval == 0

/-- The window phase, and on to the fetch phase where no window is opened (R37, R89). -/
def Part.windowPhase (p : Part) : Part :=
  if p.sched.windowDue then
    if p.fits (windowWorst p.windows.size) then (p.modSched fun s => { s with state := .windowing }).openWindow
    else (p.windowNotFitted p.sched.timeLeft).fetchPhase
  else p.fetchPhase

/-! ## The poll phase (R34, R35) -/

/-- A POLL attempt is handed to the frame engine (R34, step 3). -/
def Part.givePoll (p : Part) (i : NodeIx) (ack : Option Byte) (slice : List Byte) : Part :=
  (p.count .pollsSent).give (.poll i ack) (pollFrame (p.addressOf i) ack (p.frames.toggles.get i) slice)

/-- The next attempt of a POLL exchange: the ack, then the output slice (R34, R69). -/
def Part.pollAttempt (p : Part) (i : NodeIx) : Part :=
  let ack := p.ackOf i
  let e := (p.node i).applied
  match p.images.inUse with
  | none => p.givePoll i ack (List.replicate e.outLength 0)
  | some bank =>
    if e.outLength = 0 then p.givePoll i ack []
    else
      let job : SliceRead := { node := i, ack := ack, got := [], left := sliceWordCount e.outOffset e.outLength }
      let p := { p with images := { p.images with slice := some job } }
      p.issueSlice bank e 0

/-- A word of the output slice has been read (R69). -/
def Part.continueSlice (p : Part) (w : Word) : Part :=
  match p.images.slice, p.images.inUse with
  | some job, some bank =>
    let e := (p.node job.node).applied
    let got := w :: job.got
    if job.left ≤ 1 then
      let p := { p with images := { p.images with slice := none } }
      p.givePoll job.node job.ack (sliceBytes e.outOffset e.outLength got.reverse)
    else
      let job := { job with got := got, left := job.left - 1 }
      let p := { p with images := { p.images with slice := some job } }
      p.issueSlice bank e got.length
  | _, _ => p

/-- A read of the output slice has failed: the whole slice is zeros (R69). -/
def Part.sliceFailed (p : Part) : Part :=
  match p.images.slice with
  | some job =>
    let p := { p with images := { p.images with slice := none } }
    p.givePoll job.node job.ack (List.replicate (p.node job.node).applied.outLength 0)
  | none => p

/-- The next entry of the poll list begins, or the optional phases do (R34, R35). -/
def Part.pollNext (p : Part) : Part :=
  match p.sched.pollList with
  | [] => p.windowPhase
  | .poll i :: rest =>
    let retries := (p.node i).applied.retries
    let p := p.modSched fun s => { s with pollList := rest, attempts := retries }
    let p := p.modNode i fun r => { r with pollTotal := r.pollTotal + 1 }
    let p := { p with frames := { p.frames with toggles := tabModify p.frames.toggles i not } }
    p.pollAttempt i
  | .probe i :: rest =>
    let p := p.modSched fun s => { s with pollList := rest }
    (p.count .probesSent).give (.probe i) (encodeFrame .probe 0 (p.addressOf i) [])

/-- A POLL attempt has failed (R34). -/
def Part.pollAttemptFailed (p : Part) (i : NodeIx) : Part :=
  let p := p.count .pollAttemptFailures
  if p.sched.attempts = 0 then (p.miss i).pollNext
  else (p.modSched fun s => { s with attempts := s.attempts - 1 }).pollAttempt i

/-! ## Outcomes in RUN (R59) -/

/-- The outcome of an exchange is returned to the scheduler, taken by the units, and the next exchange or phase is chosen. `reply` is
the frame of a GOOD outcome. -/
def Part.takeOutcome (p : Part) (ex : Exchange) (reply : Option Frame) : Part :=
  match ex, reply with
  | .poll i ack, some f => ((p.confirmAck i ack).goodData i f).pollNext
  | .poll i _, none => p.pollAttemptFailed i
  | .probe i, some f => (p.goodIdent i f).pollNext
  | .probe _, none => p.pollNext
  | .fetch i ack, some f => (p.fetchGood i ack f).fetchNext
  | .fetch i _, none => p.fetchAttemptFailed i
  | .seg i slot _ segment, some _ => ((p.setLastGood i).segAcked slot segment).parcelNext
  | .seg _ slot _ _, none => (p.parcelAttemptFailed slot).parcelNext
  | .next i slot _ wanted, some f => ((p.setLastGood i).segReplied slot wanted.toNat f).parcelNext
  | .next _ slot _ _, none => (p.parcelAttemptFailed slot).parcelNext
  | .abandon _ _, _ | .window, _ | .hold, _ | .rest, _ | .rouse, _ => p

/-- SLOT_END: the slot's report is taken; after the last slot the window ends, the frame engine listens again, and the fetch phase
follows (R62, R83, R87). -/
def Part.slotEnd (p : Part) (heard : SlotHeard) : Part :=
  let report := slotReport heard p.frames.spill (p.frames.slotClash heard)
  let p := p.takeSlot report
  if p.frames.slot + 1 < p.windows.size.slots then
    { p with frames := { p.frames with slot := p.frames.slot + 1, spill := slotRunsOn heard p.frames.spill, clash := false } }
  else (p.endWindow.frameState .listening).fetchPhase

/-- ABANDON_SENT (R123). -/
def Part.abandonSent (p : Part) (slot : SlotIx) : Part :=
  ((p.frameState .listening).abandonDone slot).parcelNext

/-! ## The end of a close in RUN (R42) -/

/-- The ladder stays in RUN: a late start, or STOPPED until the next expiry. -/
def Part.closeInRun (p : Part) : Part :=
  if p.sched.overrun then (p.modSched fun s => { s with overrun := false }).startCycle
  else p.modSched fun s => { s with state := .stopped }

/-- CYCLE_TIMER_EXPIRY (R29, R30): the timer runs on for its next period. -/
def Part.cycleExpiry (p : Part) : Part :=
  let period := p.loader.settings.cyclePeriod * Config.periodUnit
  let p := p.modSched fun s => { s with timer := some period }
  if p.sched.state = .stopped then p.startCycle
  else if p.sched.overrun then p.count .expiriesSkipped
  else ((p.modSched fun s => { s with overrun := true }).count .cycleOverruns).report .cycleOverrun 0

end Sys2Proof.Machine
end

