-- ==== Sys2Proof/Machine/Ladder.lean ====
section
/-! DEFINITION. The ladder controller (Chapter 9): requests, the rungs and the moves between them, held-line service, NUDGE, ALERT, and
start-up. -/

namespace Sys2Proof.Machine

/-- The ladder controller changed. -/
def Part.modLadder (p : Part) (f : Ladder → Ladder) : Part := { p with ladder := f p.ladder }

/-- The state word is written with a ladder state and the current start-up count (R145). -/
def Part.writeState (p : Part) (state : LadderState) : Part :=
  p.issueWrite .stateWord Config.offState (stateWord state p.ladder.startCount)

/-! ## Entering the rungs -/

/-- RUN is entered (R44, R151): CAUSE.LADDER, the cycle timer started from this instant (R28), and the first cycle. -/
def Part.enterRun (p : Part) : Part :=
  let p := p.modLadder fun l => { l with state := .run, pending := none }
  let p := (p.setCause .ladder).frameState .listening
  let period := p.loader.settings.cyclePeriod * Config.periodUnit
  (p.modSched fun s => { s with timer := some period }).startCycle

/-- HELD is entered from RUN, STARTING or ROUSING (R150): the scheduler is stopped and the HOLD frame given. `named` tells whether the
request taken named HELD. Accesses that waited for it are issued (log 37). -/
def Part.enterHeld (p : Part) (named : Bool) : Part :=
  let p := p.resumeWork.modLadder fun l => { l with state := .held, holdSent := false, heldNamed := named }
  let p := p.modSched fun s => { s with state := .stopped, timer := none, overrun := false }
  (p.frameState .listening).giveBroadcast .hold .hold

/-- RESTING is entered (R155, R157): a snapshot in progress is cut (R168), the parcel unit's accesses are set aside (R129), wake-seen is
cleared, the state word written, carrier sensed, and CAUSE.LADDER set. The state word comes behind the accesses on the request list
(R170). -/
def Part.enterResting (p : Part) : Part :=
  let p := p.cutSnapshot.parkParcels
  let p := p.modLadder fun l => { l with state := .resting, wakeSeen := false }
  ((p.frameState .sensing).setCause .ladder).writeState .resting

/-- ROUSING is entered (R156): state word, then the ROUSE frame. A STILL on its way is given up (log 12). -/
def Part.enterRousing (p : Part) : Part :=
  let p := (p.modLadder fun l => { l with state := .rousing, stilling := false }).writeState .rousing
  (p.frameState .listening).giveBroadcast .rouse .rouse

/-- The way to STILL begins in RESTING: the state word is written with STILL before the line clock stops (R145, R157). -/
def Part.beginStill (p : Part) : Part := (p.modLadder fun l => { l with stilling := true }).writeState .still

/-- SETTLING is entered (R157): the line clock restarted, the settle timer started with 2 ms. -/
def Part.enterSettling (p : Part) : Part :=
  p.modLadder fun l => { l with state := .settling, lineClock := true, settle := some Config.settleMs }

/-! ## Start-up (R149) -/

/-- Start-up fails: the pending slot is emptied and the ladder returns to IDLE (R149). A sweep cut so sets no CAUSE.PARCEL for the slots
it has answered (log 48), and status record writes cut so no CAUSE.NODE for the states the start-up commit has changed (log 54). -/
def Part.startupFail (p : Part) : Part :=
  let p := p.modLadder fun l => { l with state := .idle, pending := none, startup := none }
  let p := p.modLoader fun l => { l with check := none }
  { p with table := { p.table with writes := [] } }

/-- Start-up stands at a step whose access is a read of the word at `offset`. -/
def Part.startupRead (p : Part) (s : Startup) (pos : StartPos) (offset : Nat) : Part :=
  (p.modLadder fun l => { l with startup := some { s with pos := pos } }).issueRead .startup offset

/-- Start-up stands at a step whose access is a write. -/
def Part.startupWrite (p : Part) (s : Startup) (pos : StartPos) (offset : Nat) (w : Word) : Part :=
  (p.modLadder fun l => { l with startup := some { s with pos := pos } }).issueWrite .startup offset w

/-- Step 1: the working units take the values they have after a soft reset; the cycle number, the counters, CAUSE, MASK and FAULT
are not changed. -/
def Part.resetWorkingUnits (p : Part) : Part :=
  { p with table := NodeTable.reset, images := ImageUnit.reset, events := EventUnit.reset, windows := WindowUnit.reset,
           parcels := ParcelUnit.reset, loader := Loader.reset }

/-- What start-up has kept as it begins. -/
def Startup.first : Startup :=
  { pos := .version, version := 0, newest := none, kept := tabFill 48 { address := 0, accepted := 0, valid := false },
    swept := false }

/-- AREA nonzero and a multiple of 4096 (R149, step 2). -/
def areaValid (area : Word) : Bool := area != 0 && area.extractLsb' 0 12 == 0

/-- STARTING is entered on a RUN or HOLD request taken in IDLE, which goes to the pending slot (R149, steps 1 to 3). -/
def Part.enterStarting (p : Part) (area : Word) (r : Request) : Part :=
  let p := (p.modLadder fun l => { l with state := .starting, pending := some r }).resetWorkingUnits
  if areaValid area then p.startupRead Startup.first .version Config.offVersion
  else (p.report .areaLayout 1).startupFail

/-- The state start-up is about to enter (R149): RUN for a pending RUN, HELD for any other. -/
def startupTarget (pending : Option Request) : LadderState := if pending = some .run then .run else .held

/-- Step 7: the start-up count is raised and the state word written. -/
def Part.startupFinal (p : Part) (s : Startup) : Part :=
  let p := p.modLadder fun l => { l with startCount := l.startCount + 1 }
  p.startupWrite s .finalWord Config.offState (stateWord (startupTarget p.ladder.pending) p.ladder.startCount)

/-- The sweep goes on to the slot after `slot`, or ends (R131). -/
def Part.sweepNext (p : Part) (s : Startup) (slot : SlotIx) : Part :=
  if slot.val < 15 then p.startupRead s (.sweepAsk (slot + 1)) (Config.offSlot (slot.val + 1))
  else (if s.swept then p.setCause .parcel else p).startupFinal s

/-- Step 7 has completed: take owed and scan owed are set and the pending request is taken (R149, R68, R131). `w` is the state word
written; a request that came since then and leads elsewhere has the state word written at the entry (R145; log 36). -/
def Part.startupDone (p : Part) (w : Word) : Part :=
  let p := p.modLadder fun l => { l with startup := none }
  let p := { p with images := { p.images with takeOwed := true }, parcels := { p.parcels with scanOwed := true } }
  let target := startupTarget p.ladder.pending
  let p := if w = stateWord target p.ladder.startCount then p else p.writeState target
  match p.ladder.pending with
  | some .run => p.enterRun
  | some .hold => (p.modLadder fun l => { l with pending := none }).enterHeld true
  | some .rest | some .still | none => p.enterHeld false

/-- The words of a status record that start-up takes: the change count, the line address, and the event part (R25, R110). -/
def Part.keepStatusWord (p : Part) (s : Startup) (i : NodeIx) (k : Nat) (w : Word) : Part × Startup :=
  if k = 0 then (p, { s with kept := tabModify s.kept i fun r => { r with address := byteAt w 0 } })
  else if k = 1 then (p.modNode i fun r => { r with changeCount := halfAt w 0 }, s)
  else if k = 3 then
    (p, { s with kept := tabModify s.kept i fun r => { r with accepted := byteAt w 0, valid := w.getLsbD 8 } })
  else (p, s)

/-- An access of start-up has completed; `w` is the word read or written. -/
def Part.startupStep (p : Part) (w : Word) : Part :=
  match p.ladder.startup with
  | none => p
  | some s =>
    match s.pos with
    | .version => p.startupRead { s with version := w } .stateWord Config.offState
    | .stateWord =>
      if s.version = 1 then
        (p.modLadder fun l => { l with startCount := halfAt w 1 }).startupRead s .inUse Config.offOutputInUse
      else (p.report .areaLayout 2).startupFail
    | .inUse =>
      let p := { p with images := { p.images with countTaken := w.extractLsb' 8 24 } }
      p.startupRead s .inputPublish Config.offInputPublish
    | .inputPublish =>
      let p := { p with images :=
        { p.images with publishCount := w.extractLsb' 8 24, lastPublished := bankOf (byteAt w 0) } }
      p.startupRead s .eventsWritten Config.offEventsWritten
    | .eventsWritten =>
      let p := { p with events := { p.events with written := w, taken := w - 64 } }
      if w = 0 then p.startupRead s (.status 0 0) (Config.offStatusRecord 0)
      else p.startupRead s (.newest 0) (Config.offEventRecord ((w - 1).toNat % Config.eventRecords))
    | .newest k =>
      let s := if k = 0 then { s with newest := some w } else s
      if k.val < 7 then
        p.startupRead s (.newest (k + 1))
          (Config.offEventRecord ((p.events.written - 1).toNat % Config.eventRecords) + 4 * (k.val + 1))
      else p.startupRead s (.status 0 0) (Config.offStatusRecord 0)
    | .status i k =>
      let kept := p.keepStatusWord s i k.val w
      let p := kept.1
      let s := kept.2
      if k.val < 5 then p.startupRead s (.status i (k + 1)) (Config.offStatusRecord i.val + 4 * (k.val + 1))
      else if i.val < 47 then p.startupRead s (.status (i + 1) 0) (Config.offStatusRecord (i.val + 1))
      else (p.modLadder fun l => { l with startup := some { s with pos := .commit } }).beginCheck .startup
    | .commit => p
    | .sweepAsk slot => p.startupRead s (.sweepTaken slot (halfAt w 0)) (Config.offSlot slot.val + 0x100)
    | .sweepTaken slot ask => p.startupRead s (.sweepAnswer slot ask (halfAt w 0)) (Config.offSlot slot.val + 0x104)
    | .sweepAnswer slot ask taken =>
      if taken = ask ∧ halfAt w 0 ≠ taken then
        p.startupWrite s (.sweepOutcome slot taken) (Config.offSlot slot.val + 0x108) (answerWord .interrupted 0 0)
      else p.sweepNext s slot
    | .sweepOutcome slot taken =>
      p.startupWrite s (.sweepNumber slot taken) (Config.offSlot slot.val + 0x104) (0#16 ++ taken)
    | .sweepNumber slot _ => (p.count .parcelsOtherwise).sweepNext { s with swept := true } slot
    | .finalWord => p.startupDone w

/-- The start-up commit has ended: the sweep follows an accepted one, and a refused one makes start-up fail (R144, R149). -/
def Part.settleStartup (p : Part) : Part :=
  match p.ladder.startup with
  | some s =>
    if p.ladder.state = .starting ∧ s.pos = .commit ∧ p.loader.check = none then
      if p.loader.verdict.code = .accepted then p.startupRead s (.sweepAsk 0) (Config.offSlot 0)
      else p.startupFail
    else p
  | none => p

/-! ## Requests (R147, R148) -/

/-- No memory work of the held line is under way (R147). -/
def Part.workQuiet (p : Part) : Bool :=
  p.loader.check.isNone && p.table.writes.isEmpty && p.parcels.walk == .idle && p.parcels.answers.isEmpty &&
    p.events.takenRead.isNone && p.events.appending.isNone

/-- The held line is quiet (R147). -/
def Part.heldQuiet (p : Part) : Bool := p.ladder.holdSent && p.frames.exchange.isNone && p.workQuiet

/-- LADDER-SKIP, with ladder state and request as its detail (R148, Table 11-12). -/
def Part.skipRequest (p : Part) (r : Request) : Part :=
  p.report .ladderSkip (0#8 ++ BitVec.ofNat 4 r.code ++ BitVec.ofNat 4 p.ladder.state.code)

/-- The slot is empty. -/
def Part.emptySlot (p : Part) : Part := p.modLadder fun l => { l with pending := none }

/-- A request is placed in the pending request slot, replacing whatever it held (R147). -/
def Part.keepPending (p : Part) (r : Request) : Part := p.modLadder fun l => { l with pending := some r }

/-- A request is taken and judged by Table 9-3 in the states in which requests are taken but RUN; `area` is the AREA register. -/
def Part.takeRequest (p : Part) (area : Word) (r : Request) : Part :=
  let p := p.emptySlot
  match p.ladder.state, r with
  | .idle, .run | .idle, .hold => p.enterStarting area r
  | .idle, .rest | .idle, .still => p.skipRequest r
  | .held, .run => if p.ladder.faultHold then p.keepPending .run else (p.writeState .run).enterRun
  | .held, .hold => p
  | .held, .rest => p.giveBroadcast .rest .rest
  | .held, .still => p.skipRequest r
  | .resting, .run => p.skipRequest r
  | .resting, .hold => p.enterRousing
  | .resting, .rest => p
  | .resting, .still => p.beginStill
  | .still, .rest => p.enterSettling
  | .still, .run | .still, .hold | .still, .still => p.skipRequest r
  | .starting, _ | .run, _ | .heldService, _ | .rousing, _ | .settling, _ => p.keepPending r

/-- Whether a request written now is taken at once (R147). -/
def Part.takesAtOnce (p : Part) : Bool :=
  match p.ladder.state with
  | .idle | .still | .resting => true
  | .held => p.heldQuiet
  | .starting | .run | .heldService | .rousing | .settling => false

/-- A request is written (R147). -/
def Part.requestWritten (p : Part) (area : Word) (r : Request) : Part :=
  if p.takesAtOnce then p.takeRequest area r else p.keepPending r

/-- The pending request is taken, if there is one and this is a moment at which requests are taken. -/
def Part.takePending (p : Part) (area : Word) : Part :=
  match p.ladder.pending with
  | some r => if p.takesAtOnce then p.takeRequest area r else p
  | none => p

/-! ## The hold check (R41, R43, R150, R158) -/

/-- Whether the ladder leaves RUN at the hold check. -/
def Part.leavesRun (p : Part) : Bool := p.ladder.pending == some .hold || p.ladder.faultHold

/-- The pending request judged as from RUN; a RUN request under the fault hold stays pending (R150). -/
def Part.judgeInRun (p : Part) : Part :=
  match p.ladder.pending with
  | none => p
  | some .run => if p.ladder.faultHold then p else p.emptySlot
  | some .hold => p.emptySlot
  | some .rest => p.emptySlot.skipRequest .rest
  | some .still => p.emptySlot.skipRequest .still

/-- HELD is entered from RUN: state word and HOLD frame. -/
def Part.leaveRun (p : Part) (named : Bool) : Part := (p.enterHeld named).writeState .held

/-- The completion of a close (R41, R42). -/
def Part.closeComplete (p : Part) : Part :=
  if p.ladder.state = .run then
    if p.leavesRun then p.judgeInRun.leaveRun (p.ladder.pending == some .hold) else p.judgeInRun.closeInRun
  else p

/-- The hold check at a MEMORY fault while no cycle is in progress (R43). -/
def Part.holdCheckStopped (p : Part) : Part :=
  if p.ladder.state = .run ∧ p.sched.state = .stopped ∧ p.ladder.faultHold then
    p.judgeInRun.leaveRun (p.ladder.pending == some .hold)
  else p

/-! ## Held-line service (R97, R152) -/

/-- Whether the ladder may go to HELD-SERVICE (R152; not during a commit check, log 18). -/
def Part.serviceAllowed (p : Part) : Bool :=
  p.ladder.state == .held && p.ladder.holdSent && !p.ladder.faultHold && p.ladder.pending.isNone && p.canName &&
    p.frames.exchange.isNone && p.loader.check.isNone

/-- Service ends, and the commit check owed is made (R152, R135). -/
def Part.endService (p : Part) : Part :=
  let p := p.modLadder fun l => { l with state := .held, serviceWait := false, serviceRead := false }
  if p.loader.checkOwed then (p.modLoader fun l => { l with checkOwed := false }).beginCheck .owed else p

/-- A FETCH exchange of service begins, with no budget check. -/
def Part.serveNode (p : Part) (i : NodeIx) : Part :=
  let retries := (p.node i).applied.retries
  ((p.nameNode i).modSched fun s => { s with attempts := retries }).giveFetch i

/-- A node is named where the list has a free place; otherwise the events-taken word is read first (R96, steps 3 and 4). -/
def Part.serviceName (p : Part) (i : NodeIx) : Part :=
  if 0 < p.events.freePlaces then p.serveNode i
  else (p.modLadder fun l => { l with serviceRead := true }).requestTaken true

/-- Some node of the queue has no intake under way. -/
def Part.queueWaits (p : Part) : Bool := p.events.queue.any fun i => !(p.nodeEvents i).intake

/-- The ladder controller asks the event unit for a node (R97, R152). A request and the fault hold end service as they stand now: a hold set
and cleared again during the FETCH that has ended does not (log 58). -/
def Part.serviceNext (p : Part) : Part :=
  if p.ladder.pending.isSome || p.ladder.faultHold then p.endService
  else
    match p.firstEligible with
    | some i => p.serviceName i
    | none =>
      if p.events.queue.isEmpty then p.endService
      else if p.queueWaits then
        let p := p.newRound
        match p.firstEligible with
        | some i => p.serviceName i
        | none => p.endService
      else p.modLadder fun l => { l with serviceWait := true }

/-- HELD-SERVICE is entered, with a new round (R152, R97; log 24). -/
def Part.enterService (p : Part) : Part :=
  ((p.modLadder fun l => { l with state := .heldService, serviceWait := false, serviceRead := false }).newRound).serviceNext

/-- The read that a request of service waited for has ended (R96 step 4, R97). -/
def Part.serviceAfterRead (p : Part) : Part :=
  let p := p.modLadder fun l => { l with serviceRead := false }
  match p.firstEligible with
  | some i => if 0 < p.events.freePlaces then p.serveNode i else (p.count .fetchesDeferred).endService
  | none => p.serviceNext

/-- The outcome of an exchange is returned to the ladder controller in HELD-SERVICE (R152). -/
def Part.serviceOutcome (p : Part) (ex : Exchange) (reply : Option Frame) : Part :=
  match ex, reply with
  | .fetch i ack, some f => (p.fetchGood i ack f).serviceNext
  | .fetch i _, none =>
    if p.sched.attempts = 0 then (p.releasePlace.miss i).serviceNext
    else (p.modSched fun s => { s with attempts := s.attempts - 1 }).giveFetch i
  | .poll _ _, _ | .probe _, _ | .seg _ _ _ _, _ | .next _ _ _ _, _ | .abandon _ _, _ | .window, _ | .hold, _ | .rest, _
  | .rouse, _ => p

/-- What a waiting service does as things change: it ends at once on a request or the fault hold, also while it waits for its read of the
events-taken word (log 52), and asks again when the event unit can name a node or has none left (R152). -/
def Part.settleService (p : Part) : Part :=
  if p.ladder.state = .heldService ∧ (p.ladder.serviceWait ∨ p.ladder.serviceRead) then
    if p.ladder.pending.isSome || p.ladder.faultHold then p.endService
    else if p.ladder.serviceWait && (p.events.queue.isEmpty || p.queueWaits) then
      (p.modLadder fun l => { l with serviceWait := false }).serviceNext
    else p
  else p

/-! ## NUDGE and ALERT (R153, R154) -/

/-- A NUDGE, by the ladder state (R154). -/
def Part.nudge (p : Part) : Part :=
  match p.ladder.state with
  | .run => (p.requestTaken false).scanTrigger
  | .held =>
    let p := if p.loader.check.isNone then p.beginCheck .nudge else p.modLoader fun l => { l with checkOwed := true }
    p.requestTaken false
  | .heldService => ((p.modLoader fun l => { l with checkOwed := true }).scanTrigger).requestTaken false
  | .idle | .starting | .resting | .rousing | .still | .settling => p

/-- An ALERT is taken in the held line (R153). -/
def Part.takeAlert (p : Part) (address : Byte) : Part :=
  let p := (p.count .alertsReceived).requestTaken false
  match p.enabledAt address with
  | some i => p.nodeAlert i
  | none => p.sighting address .alert 0

/-- HELD or HELD-SERVICE. -/
def LadderState.isHeld : LadderState → Bool
  | .held | .heldService => true
  | .idle | .starting | .run | .resting | .rousing | .still | .settling => false

/-- Whether what arrives now is unsolicited (R60, R61): LISTENING, or the turnaround after a frame that awaits no reply. -/
def FrameEngine.unsolicited (f : FrameEngine) : Bool :=
  f.state == .listening || (f.state == .guarding && f.outcome.isNone)

/-- An unsolicited frame, or what is damaged of a stretch (`none`): an intact ALERT from a line address is taken in the held line, and
anything else is a stray (R61). -/
def Part.unsolicitedFrame (p : Part) (frame : Option Frame) : Part :=
  match frame with
  | some f => if f.isGoodAlert && p.ladder.state.isHeld then p.takeAlert f.address else p.strayFrame
  | none => p.strayFrame

/-- What arrives unsolicited, each frame and each damaged stretch by itself, but for the rest of a stretch counted before (R61). -/
def Part.unsolicitedItems (p : Part) (items : List LineItem) : Part :=
  let q := (framesHeard (p.frames.uncounted items)).foldl Part.unsolicitedFrame p
  { q with frames := q.frames.heard items }

/-- An onset of carrier in RESTING (R155). -/
def Part.lineActivity (p : Part) : Part :=
  if p.ladder.wakeSeen then p else (p.modLadder fun l => { l with wakeSeen := true }).setCause .wake

/-! ## Frames of the ladder, and its timers (R150, R155 to R157) -/

/-- The HOLD frame has been sent: CAUSE.LADDER if the request taken named HELD, and a pending request is taken (R150). -/
def Part.holdFrameSent (p : Part) (area : Word) : Part :=
  let named := p.ladder.heldNamed
  let p := (p.frameState .listening).modLadder fun l => { l with holdSent := true, heldNamed := false }
  (if named then p.setCause .ladder else p).takePending area

/-- The REST frame has been sent: RESTING is entered (R155), and a request kept meanwhile is taken there (log 19). -/
def Part.restFrameSent (p : Part) (area : Word) : Part := p.enterResting.takePending area

/-- Whether the held line has become quiet for a request that waits for it (R147). -/
def Part.quietDue (p : Part) : Bool := p.heldQuiet && p.ladder.pending.isSome

/-- The ROUSE frame has been sent: the rouse timer starts (R156). -/
def Part.rouseFrameSent (p : Part) : Part :=
  let time := p.loader.settings.rouseTime
  (p.frameState .listening).modLadder fun l => { l with rouse := some time }

/-- The rouse timer expires (R156): HELD, whose HOLD frame sets CAUSE.LADDER. What the parcel unit has kept at rest it takes now, and a
commit check that has ended its reads at rest judges (log 37). -/
def Part.rouseExpired (p : Part) : Part :=
  (((p.modLadder fun l => { l with rouse := none }).enterHeld true).writeState .held).resumeParcels.judgeKept

/-- The settle timer expires with no soft reset waiting (R157): RESTING, then a pending request. -/
def Part.settleExpired (p : Part) (area : Word) : Part :=
  ((p.modLadder fun l => { l with settle := none }).enterResting).takePending area

/-- The write of the state word for STILL has ended: the ladder enters STILL (R157). -/
def Part.enterStill (p : Part) : Part :=
  let p := p.modLadder fun l => { l with state := .still, stilling := false, lineClock := false }
  (p.frameState .off).setCause .ladder

/-- A state word write has ended, without or with an error (R145; log 12). -/
def Part.stateWordEnded (p : Part) : Part :=
  if p.ladder.state == .resting && p.ladder.stilling && !(p.bus.any fun a => a.source == .stateWord) then p.enterStill
  else p

end Sys2Proof.Machine
end

