-- ==== Sys2Proof/Machine/Completion.lean ====
section
/-! DEFINITION. The bus-master engine's completions (R170, R171): what the access does in host memory, and how the block that issued it
goes on. -/

namespace Sys2Proof.Machine

/-! ## What follows without a further event -/

/-- What comes about as soon as it can, without an event of its own: the steps of a cycle open, the verdict after the status
records, the sweep after the start-up commit, a snapshot once its triggers are decided, an append that was held back, and what
a waiting service does. -/
def Part.settle (p : Part) : Part :=
  (((((((p.settleNodeOpen).settleCheck).settleStartup).settleParcelOpen).settleSnapshot).startAppend).settleService)

/-! ## The block goes on -/

/-- A read of the events-taken word has ended; a FETCH request that waited for it is answered first, then a note is asked for
(R96, R97, R106, R107; log 21). -/
def Part.afterTaken (p : Part) : Part :=
  match p.ladder.state with
  | .run => if p.sched.fetchRead then p.fetchAfterRead else p
  | .heldService => if p.ladder.serviceRead then p.serviceAfterRead else p
  | .idle | .starting | .held | .resting | .rousing | .still | .settling => p

/-- A read of the events-taken word has ended with a value (R106). -/
def Part.takenEnded (p : Part) (w : Word) : Part :=
  match p.events.takenRead with
  | some r =>
    let valid := p.events.takenValid w
    let p := (p.takenValue w r.onFetch).afterTaken
    if valid then p.offerNote else p
  | none => p

/-- The slot whose withdraw number the parcel phase of RUN waits for. -/
def Part.withdrawWaits (p : Part) : Option SlotIx := if p.ladder.state = .run then p.sched.withdrawRead else none

/-- The read of a withdraw number before a SEG has ended with a value. -/
def Part.withdrawEnded (p : Part) (w : Word) : Part :=
  match p.withdrawWaits with
  | some slot => p.withdrawRead slot w
  | none => p

/-- An access has completed, and its block goes on (R170). `w` is the word read or written; the access is off the list. -/
def Part.accessDone (p : Part) (source : Source) (w : Word) : Part :=
  match source with
  | .stateWord => p.stateWordEnded
  | .startup => if p.ladder.state = .starting then p.startupStep w else p
  | .loader => p.continueCheck w
  | .status k => p.statusStep k
  | .outTake => p.outputTake w
  | .outInUse => p.imageIsReady
  | .slice => p.continueSlice w
  | .close => p.continueClose w
  | .cycleWord => p.closeComplete
  | .eventsTaken => p.takenEnded w
  | .append => p.continueAppend
  | .walk => p.takeParcelEnd (.walk (some w))
  | .withdraw => p.withdrawEnded w
  | .answer => p.takeParcelEnd (.answer (some w))
  | .statAsk => p.statAskRead w
  | .snapshot => p.continueSnapshot
  | .cut => p

/-- An access has failed, and its block handles the failure (R171, and the rule of each block). -/
def Part.blockFailed (p : Part) (source : Source) : Part :=
  match source with
  | .stateWord => p.stateWordEnded
  | .startup => p
  | .loader => p.checkFailed
  | .status _ => p.statusFailed
  | .outTake => p.imageIsReady
  | .outInUse => p.imageIsReady
  | .slice => p.sliceFailed
  | .close => p.endClose
  | .cycleWord => p.closeComplete
  | .eventsTaken => p.takenLost.afterTaken
  | .append => p.appendFailed
  | .walk => p.takeParcelEnd (.walk none)
  | .withdraw =>
    match p.withdrawWaits with
    | some slot => p.withdrawLost slot
    | none => p
  | .answer => p.takeParcelEnd (.answer none)
  | .statAsk => p.statAskFailed
  | .snapshot => p.endSnapshot
  | .cut => p

/-- What a failed access of start-up leaves behind as start-up ends: a verdict or a generation that is owed, and a refusal reported
(R143, R141), or a status record that is owed (R21). -/
def Part.startupLoss (p : Part) (source : Source) : Part :=
  match source with
  | .loader => p.verdictFailed
  | .status _ => p.oweStatus
  | .stateWord | .startup | .outTake | .outInUse | .slice | .close | .cycleWord | .eventsTaken | .append | .walk | .withdraw
  | .answer | .statAsk | .snapshot | .cut => p

/-- An access has ended with an error response: MEMORY with its offset (R171, R160), the failure handled, in STARTING start-up ended
(R149), and the hold check made where no cycle is in progress (R43). -/
def Part.accessFailed (p : Part) (a : Access) : Part :=
  let p := p.report .memory (BitVec.ofNat 16 a.offset)
  if p.ladder.state = .starting then (p.startupLoss a.source).startupFail
  else (p.blockFailed a.source).holdCheckStopped

/-! ## The access in host memory -/

/-- Whether the engine performs accesses: in STILL and SETTLING it performs none (R170). -/
def LadderState.busRuns : LadderState → Bool
  | .still | .settling => false
  | .idle | .starting | .run | .held | .heldService | .resting | .rousing => true

/-- Memory after an access without error: a write stores its word in one transfer, a read finds what the host has stored (R170; log 2). -/
def Access.memAfter (a : Access) (area : Word) (host : Option Word) (mem : Memory) : Memory :=
  match a.write with
  | some w => mem.writeWord (busAddress area a.offset) w
  | none =>
    match host with
    | some w => mem.writeWord (busAddress area a.offset) w
    | none => mem

/-- The word an access without error carries: the one written, or the one read from memory as it stands at the transfer (R170). -/
def Access.value (a : Access) (area : Word) (mem : Memory) : Word :=
  match a.write with
  | some w => w
  | none => mem.readWord (busAddress area a.offset)

/-! ## Machine steps over the whole state -/

/-- The blocks act on an event, what follows comes about, and the accesses issued together take their places (R170). The cut of a
snapshot leaves fewer of the old accesses on the list (R168). -/
def State.act (s : State) (f : Part → Part) : State :=
  { s with part := (f s.part).settle.arbitrate (min s.part.bus.length (f s.part).bus.length) }

/-- The blocks act on an event that nothing else follows from. -/
def State.plain (s : State) (f : Part → Part) : State := { s with part := f s.part }

/-- A soft reset takes effect (R159, R169, R177): every block at its reset values, AREA and MASK kept, the exchange area not written. -/
def State.softReset (s : State) : State :=
  { s with port := { s.port with view := false }, part := { Part.reset with arb := s.part.arb } }

/-- A full reset (R159, R177); `pinLow` tells whether RESET_N stays low. -/
def State.fullReset (s : State) (pinLow : Bool) : State :=
  { s with port := { Port.reset with resetLow := pinLow }, part := { Part.reset with arb := s.part.arb } }

/-- The access in progress, if the engine performs any. -/
def State.current (s : State) : Option Access :=
  if s.part.ladder.state.busRuns then s.part.bus.head? else none

/-- The access in progress completes without error: memory, then its block (R170), or the soft reset that waited for it (R175). -/
def State.complete (s : State) (host : Option Word) (dt : Nat) : State :=
  match s.current with
  | none => s
  | some a =>
    let mem := a.memAfter s.port.area host s.mem
    let w := a.value s.port.area mem
    let s := { s with mem := mem }
    if s.part.ladder.softPending then s.softReset
    else
      let rest : State := { s with part := { s.part with bus := s.part.bus.tail } }
      rest.act fun p => (p.passTime dt).accessDone a.source w

/-- The access in progress ends with an error response: memory unchanged (R171). -/
def State.fail (s : State) (dt : Nat) : State :=
  match s.current with
  | none => s
  | some a =>
    if s.part.ladder.softPending then s.softReset
    else
      let rest : State := { s with part := { s.part with bus := s.part.bus.tail } }
      rest.act fun p => (p.passTime dt).accessFailed a

/-- The access in progress completes if `mine` holds of it; otherwise the event cannot fall and the state stays (log 1). -/
def State.completeIf (s : State) (mine : Access → Bool) (host : Option Word) (dt : Nat) : State :=
  match s.current with
  | some a => if mine a then s.complete host dt else s
  | none => s

end Sys2Proof.Machine
end

