-- ==== Sys2Proof/Machine/Port.lean ====
section
/-! DEFINITION. The register side of the system port (R173 to R177). -/

namespace Sys2Proof.Machine

/-! ## Reads -/

/-- Register offsets in the window (Section 11.4). -/
def regIdent : Nat := 0x00
def regArea : Nat := 0x04
def regControl : Nat := 0x08
def regCause : Nat := 0x0C
def regMask : Nat := 0x10
def regFault : Nat := 0x14

/-- CONTROL as it reads (Table 11-11). -/
def Ladder.controlWord (l : Ladder) : Word :=
  0#17 ++ BitVec.ofBool l.resetWaiting ++ BitVec.ofBool l.faultHold ++ BitVec.ofBool l.wakeSeen ++
    BitVec.ofNat 4 l.state.code ++ 0#5 ++ BitVec.ofNat 3 ((l.pending.map Request.code).getD 0)

/-- A 32-bit read of the register at an offset of the window; 0 while RESET_N is low (R173), and at an unused offset. -/
def State.readRegister (s : State) (offset : Nat) : Word :=
  if s.port.resetLow then 0
  else if offset = regIdent then Config.identValue
  else if offset = regArea then s.port.area
  else if offset = regControl then s.part.ladder.controlWord
  else if offset = regCause then 0#24 ++ s.part.faults.cause
  else if offset = regMask then 0#24 ++ s.port.mask
  else if offset = regFault then s.part.faults.capture.read s.port.view
  else 0

/-- The interrupt output: true is high, released (R164). -/
def State.irqN (s : State) : Bool := Sys2Proof.Machine.irqN s.part.faults.cause s.port.mask

/-! ## Misuse (R173) -/

/-- PORT-MISUSE is reported, with the kind and the register offset (Table 11-12). -/
def State.misuse (s : State) (kind offset : Nat) : State :=
  s.plain fun p => p.report .portMisuse (BitVec.ofNat 8 kind ++ BitVec.ofNat 8 offset)

/-- The kind of misuse of an access but for its width, at the register `reg` (R173). Kind 4 names two offsets only, and the REQUEST field is
in the byte at the offset of CONTROL, which an access at a higher offset does not write. -/
def State.wideMisuse (s : State) (a : PortAccess) (reg : Nat) : Option Nat :=
  if a.offset.toNat = 0x18 ∨ a.offset.toNat = 0x1C then some 4
  else if a.write then
    if reg = regArea then if s.part.ladder.state = .idle then none else some 1
    else if reg = regIdent then some 2
    else if a.offset.toNat = regControl then if 5 ≤ (a.data.extractLsb' 0 3).toNat then some 3 else none
    else none
  else none

/-- The offset of the register an access falls in. -/
def registerOf (a : PortAccess) : Nat := a.offset.toNat - a.offset.toNat % 4

/-- The kind of misuse of an access. Which of two kinds is reported of a narrow access that is a misuse otherwise too is a free
value (log 9). -/
def State.misuseKind (s : State) (a : PortAccess) : Option Nat :=
  match a.narrow, s.wideMisuse a (registerOf a) with
  | false, k => k
  | true, none => some 5
  | true, some k => if Config.narrowKindReported (registerOf a) a.write then some 5 else some k

/-- What an access of the window that reads is answered with: 0 for a misuse, the register at its offset otherwise (R173). -/
def State.readAccess (s : State) (a : PortAccess) : Word :=
  if (s.misuseKind a).isSome then 0 else s.readRegister a.offset.toNat

/-! ## Writes of CONTROL (R175) -/

/-- The request a REQUEST field names. -/
def requestOf (code : Nat) : Option Request :=
  match code with
  | 1 => some .run
  | 2 => some .hold
  | 3 => some .rest
  | 4 => some .still
  | _ => none

/-- The bits of CONTROL that a write of a request makes, with NUDGE in bit 4. -/
def controlBits (code : Nat) (nudge : Bool) : Word := BitVec.ofNat 32 (code + if nudge then 16 else 0)

/-- A soft reset is started (R175, R170, R159). -/
def State.startSoftReset (s : State) : State :=
  match s.part.ladder.state with
  | .still =>
    s.plain fun p => p.modLadder fun l => { l with resetWaiting := true, lineClock := true, settle := some Config.settleMs }
  | .settling => s.plain fun p => p.modLadder fun l => { l with resetWaiting := true }
  | .idle | .starting | .run | .held | .heldService | .resting | .rousing =>
    if s.part.bus.isEmpty then s.softReset else s.plain fun p => p.modLadder fun l => { l with softPending := true }

/-- A soft reset has been written and has not taken effect: CONTROL writes set nothing (R175, R159). -/
def Ladder.resetUnderWay (l : Ladder) : Bool := l.softPending || l.resetWaiting

/-- A write of CONTROL (R173, R175). -/
def State.writeControl (s : State) (v : Word) : State :=
  if s.port.resetLow then s
  else if 5 ≤ (v.extractLsb' 0 3).toNat then s.misuse 3 regControl
  else if s.part.ladder.resetUnderWay then s
  else if v.getLsbD 31 then s.startSoftReset
  else
    match requestOf (v.extractLsb' 0 3).toNat with
    | some r => s.act fun p => (if v.getLsbD 4 then p.nudge else p).requestWritten s.port.area r
    | none => if v.getLsbD 4 && s.part.ladder.state.worksMemory then s.act Part.nudge else s

/-! ## Writes of the other registers -/

/-- A write of AREA (R174). -/
def State.writeArea (s : State) (v : Word) : State :=
  if s.port.resetLow then s
  else if s.part.ladder.state = .idle then { s with port := { s.port with area := v } }
  else s.misuse 1 regArea

/-- What clearing CAUSE.WAKE and CAUSE.FAULT does besides (R155, R162, R158; log 34). Clearing CAUSE.WAKE clears wake-seen in every ladder
state, STILL and SETTLING among them (R163; log 57). -/
def Part.writeCause (p : Part) (area : Word) (v : Byte) : Part :=
  let wake := v.getLsbD CauseBit.wake.position && p.hasCause .wake
  let fault := v.getLsbD CauseBit.fault.position && p.hasCause .fault
  let p := { p with faults := { p.faults with cause := p.faults.cause &&& ~~~ v } }
  let p := if wake then p.modLadder fun l => { l with wakeSeen := false } else p
  if fault then
    let p := p.clearFault.modLadder fun l => { l with faultHold := false }
    if p.ladder.state = .held then p.takePending area else p
  else p

/-- Whether a write of CAUSE ends the fault hold in HELD, so that a pending request is taken (R158; log 34). -/
def State.endsHold (s : State) (v : Byte) : Bool :=
  s.part.ladder.state == .held && s.part.ladder.pending.isSome && v.getLsbD CauseBit.fault.position &&
    s.part.hasCause .fault

/-- A write of CAUSE (R163, R176). -/
def State.writeCause (s : State) (v : Word) : State :=
  if s.port.resetLow then s
  else if s.endsHold (v.extractLsb' 0 8) then s.act fun p => p.writeCause s.port.area (v.extractLsb' 0 8)
  else s.plain fun p => p.writeCause s.port.area (v.extractLsb' 0 8)

/-- A write of MASK (R164, R176). -/
def State.writeMask (s : State) (v : Word) : State :=
  if s.port.resetLow then s else { s with port := { s.port with mask := v.extractLsb' 0 8 } }

/-- A write of FAULT (R176): bit 0 selects the view. -/
def State.writeView (s : State) (v : Word) : State :=
  if s.port.resetLow then s else { s with port := { s.port with view := v.getLsbD 0 } }

end Sys2Proof.Machine
end

