-- ==== Sys2Proof/Machine/Resets.lean ====
section
/-! DEFINITION. The meanings of the reset commands. -/

namespace Sys2Proof.Machine

/-- What a command ends in. -/
abbrev Result := Host.Outcome State Fault Refusal

/-- FULL_RESET (R159, R177): every block at once at its reset values; memory is not written. -/
def execFullReset (pinLow : Bool) (s : State) : Result := .next (s.fullReset pinLow)

/-- The SOFT_RESET bit of CONTROL. -/
def softResetBit : Word := 0x80000000

/-- SOFT_RESET (R175): a write of CONTROL with SOFT_RESET set; `control` gives its other bits. -/
def execSoftReset (control : Word) (s : State) : Result := .next (s.writeControl (control ||| softResetBit))

/-- SOFT_RESET_TAKES_EFFECT (R170, R175, R159): the current memory word completes with a soft reset waiting for it, or the settle timer
expires with reset waiting set; otherwise no soft reset waits (log 1). -/
def execSoftResetTakesEffect (s : State) : Result :=
  if s.part.ladder.resetWaiting then .next s.softReset
  else if s.part.ladder.softPending then
    .next (match s.current with | some _ => s.complete none 0 | none => s.softReset)
  else .next s

/-- RESET_N_RELEASE (R173): the register side answers accesses again. -/
def execResetNRelease (s : State) : Result := .next { s with port := { s.port with resetLow := false } }

end Sys2Proof.Machine
end

