-- ==== Sys2Proof/Machine/Timers.lean ====
section
/-! DEFINITION. The meanings of the expiries of timers and counts, and of a cycle open's readiness. -/

namespace Sys2Proof.Machine

/-- The blocks act on an event where it can fall; elsewhere the state stays (log 1). -/
def State.actIf (s : State) (can : Bool) (f : Part → Part) : Result := .next (if can then s.act f else s)

/-- As `actIf`, for an event that nothing else follows from. -/
def State.plainIf (s : State) (can : Bool) (f : Part → Part) : Result := .next (if can then s.plain f else s)

/-- CYCLE_TIMER_EXPIRY (R29, R30). -/
def execCycleTimerExpiry (s : State) : Result :=
  s.actIf (s.part.ladder.state == .run && s.part.sched.timer.isSome) fun p => p.cycleExpiry

/-- REPROBE_COUNTDOWN_EXPIRY (R16, R17), in RUN: countdowns do not move outside it (R23). -/
def execReprobeCountdownExpiry (i : NodeIx) (s : State) : Result :=
  s.actIf (s.part.ladder.state == .run && s.part.sched.nodeOpen == .expiring && (s.part.node i).reprobeDue) fun p => p.reprobe i

/-- PATIENCE_EXPIRY (R124), in RUN: entries keep their patience while the line is held (R129). -/
def execPatienceExpiry (slot : SlotIx) (s : State) : Result :=
  s.actIf (s.part.ladder.state == .run && s.part.sched.parcelOpen == .expiring &&
    (s.part.parcelOf slot).any (·.outOfPatience)) fun p => p.patienceExpired slot

/-- STAT_PERIOD_EXPIRY (R166). -/
def execStatPeriodExpiry (s : State) : Result := s.actIf s.part.faults.periodDue fun p => p.periodExpired

/-- CYCLE_DIVISOR_REACHED (R78). -/
def execCycleDivisorReached (s : State) : Result := s.plainIf s.part.faults.divisorDue fun p => p.divisorReached

/-- OPEN_READY (R31, R33): POLLING, and the first entry of the poll list or the optional phases. -/
def execOpenReady (dt : Nat) (s : State) : Result :=
  s.actIf s.part.openIsReady fun p => (p.passTime dt).enterPolling.pollNext

/-- ROUSE_TIMER_EXPIRY (R156). -/
def execRouseTimerExpiry (s : State) : Result :=
  s.actIf (s.part.ladder.state == .rousing && s.part.ladder.rouse.isSome) fun p => p.rouseExpired

/-- SETTLE_TIMER_EXPIRY (R157, R159): a waiting soft reset takes effect, or RESTING is entered. -/
def execSettleTimerExpiry (s : State) : Result :=
  if s.part.ladder.settle.isSome && s.part.ladder.resetWaiting then .next s.softReset
  else s.actIf (s.part.ladder.settle.isSome && s.part.ladder.state == .settling) fun p => p.settleExpired s.port.area

/-- HELD_LINE_QUIET (R147): the pending request is taken once the held line is quiet. -/
def execHeldLineQuiet (s : State) : Result :=
  s.actIf (s.part.ladder.state == .held && s.part.quietDue) fun p => p.takePending s.port.area

/-- HELD_SERVICE_ENTRY (R152, R97). -/
def execHeldServiceEntry (s : State) : Result := s.actIf s.part.serviceAllowed fun p => p.enterService

end Sys2Proof.Machine
end

