-- ==== Sys2Proof/Machine/Line.lean ====
section
/-! DEFINITION. The meanings of the events on the field line (Chapters 3, 5 and 9). -/

namespace Sys2Proof.Machine

/-- FRAME_START (R52). -/
def execFrameStart (s : State) : Result :=
  s.plainIf (s.part.frames.state == .sending && !s.part.frames.onLine) fun p => p.frameStart

/-- REQUEST_SENT (R52, R53, R60, R62). -/
def execRequestSent (s : State) : Result :=
  s.plainIf (s.part.frames.state == .sending && s.part.frames.onLine) fun p => p.requestSent

/-- REPLY_TIMER_LIMIT (R53). -/
def execReplyTimerLimit (s : State) : Result :=
  s.plainIf (s.part.frames.state == .awaiting) fun p => p.replyTimerLimit

/-- REPLY_FRAME_END (R53 to R57): the stretch of carrier that is taken as the reply has ended (log 10). -/
def execReplyFrameEnd (items : List LineItem) (s : State) : Result :=
  s.plainIf s.part.frames.takesReply fun p => p.replyFrameEnd items

/-- Whether a clash bears on what the frame engine does (R58, R62). -/
def FrameEngine.seesClash (f : FrameEngine) : Bool :=
  match f.state with
  | .awaiting | .receiving | .guarding | .slotting | .listening => true
  | .off | .sensing | .sending => false

/-- LINE_CLASH (R58, R62). -/
def execLineClash (s : State) : Result := s.plainIf s.part.frames.seesClash Part.lineClash

/-- The reply handed on with an outcome: with GOOD the frame, with a failed outcome none (R59). -/
def FrameEngine.reply (f : FrameEngine) : Option Frame := if f.outcome = some .good then f.rx else none

/-- An outcome is returned to the scheduler in RUN, to the ladder controller in held-line service (R59). -/
def Part.returnOutcome (p : Part) : Part :=
  match p.frames.exchange with
  | none => p
  | some ex =>
    let reply := p.frames.reply
    let p := p.frameState .listening
    match p.ladder.state with
    | .run => p.takeOutcome ex reply
    | .heldService => p.serviceOutcome ex reply
    | .idle | .starting | .held | .resting | .rousing | .still | .settling => p

/-- GUARD_END (R59). -/
def execGuardEnd (dt : Nat) (s : State) : Result :=
  s.actIf (s.part.frames.state == .guarding && s.part.frames.outcome.isSome) fun p => (p.passTime dt).returnOutcome

/-- SLOT_END (R62, R83, R87). -/
def execSlotEnd (heard : SlotHeard) (dt : Nat) (s : State) : Result :=
  s.actIf (s.part.ladder.state == .run && s.part.frames.state == .slotting) fun p => (p.passTime dt).slotEnd heard

/-- Whether the frame engine is in the turnaround after a frame of an exchange that awaits no reply (R60). -/
def FrameEngine.hasSent (f : FrameEngine) (ex : Exchange) : Bool := f.state == .guarding && f.exchange == some ex

/-- The slot of the ABANDON whose turnaround has passed. -/
def FrameEngine.abandoned (f : FrameEngine) : Option SlotIx :=
  match f.state, f.exchange with
  | .guarding, some (.abandon _ slot) => some slot
  | _, _ => none

/-- ABANDON_SENT (R60, R123). -/
def execAbandonSent (dt : Nat) (s : State) : Result :=
  match s.part.ladder.state, s.part.frames.abandoned with
  | .run, some slot => .next (s.act fun p => (p.passTime dt).abandonSent slot)
  | _, _ => .next s

/-- HOLD_FRAME_SENT (R60, R150). -/
def execHoldFrameSent (s : State) : Result :=
  s.actIf (s.part.ladder.state == .held && s.part.frames.hasSent .hold) fun p => p.holdFrameSent s.port.area

/-- REST_FRAME_SENT (R60, R155). -/
def execRestFrameSent (s : State) : Result :=
  s.actIf (s.part.ladder.state == .held && s.part.frames.hasSent .rest) fun p => p.restFrameSent s.port.area

/-- ROUSE_FRAME_SENT (R60, R156). -/
def execRouseFrameSent (s : State) : Result :=
  s.plainIf (s.part.ladder.state == .rousing && s.part.frames.hasSent .rouse) fun p => p.rouseFrameSent

/-- A frame or a stretch of carrier that begins now, by what the frame engine does (R53, R58, R60, R61): unsolicited, the reply
awaited, carrier in a reply guard, an onset in RESTING, or, while the next frame waits for the line, the rest of a late reply (log 49). -/
def Part.carrier (p : Part) (items : List LineItem) : Part :=
  if p.frames.unsolicited then p.unsolicitedItems items
  else
    match p.frames.state with
    | .awaiting | .receiving => p.replyFrameEnd items
    | .guarding => p.carrierInGuard items
    | .sensing => p.lineActivity
    | .sending => p.unsolicitedItems (items.takeWhile (· != .gap))
    | .off | .listening | .slotting => p

/-- Whether carrier that begins now bears on what the frame engine does. -/
def FrameEngine.hears (f : FrameEngine) : Bool :=
  match f.state with
  | .listening | .awaiting | .receiving | .guarding | .sensing => true
  | .off | .sending | .slotting => false

/-- Whether the rest of a late reply is still heard, while the next frame waits for a quiet line (R52, R61; log 49). -/
def FrameEngine.hearsOn (f : FrameEngine) : Bool := f.state == .sending && f.late && !f.onLine

/-- ALERT (R61, R153): an intact ALERT frame from an address, which has ended. Being intact it is of no stretch counted before (log 59). -/
def execAlert (address : Byte) (s : State) : Result :=
  s.actIf s.part.frames.hears fun p => p.quietPassed.carrier (alertItems address ++ [.gap])

/-- UNSOLICITED_FRAME (R61): a frame or stretch of carrier nobody asked for. -/
def execUnsolicitedFrame (items : List LineItem) (s : State) : Result :=
  s.actIf (s.part.frames.hears || s.part.frames.hearsOn) fun p => p.carrier items

/-- LINE_ACTIVITY (R61, R155): an onset of carrier in RESTING. -/
def execLineActivity (s : State) : Result := s.plainIf (s.part.frames.state == .sensing) fun p => p.lineActivity

end Sys2Proof.Machine
end

