-- ==== Sys2Proof/Machine/BusCommands.lean ====
section
/-! DEFINITION. The meanings of the bus-master engine's completions. A row of its own for an access completes that access only
(log 16); MEMORY_ACCESS_COMPLETE completes any. -/

namespace Sys2Proof.Machine

/-- MEMORY_ACCESS_COMPLETE (R170). -/
def execMemoryAccessComplete (host : Option Word) (dt : Nat) (s : State) : Result := .next (s.complete host dt)

/-- MEMORY_ERROR_RESPONSE (R171, R160). -/
def execMemoryErrorResponse (dt : Nat) (s : State) : Result := .next (s.fail dt)

/-- STARTUP_STEP_COMPLETE (R149): an access of start-up completes. -/
def execStartupStepComplete (host : Option Word) (s : State) : Result :=
  .next (s.completeIf (fun _ => s.part.ladder.state == .starting) host 0)

/-- APPEND_COMPLETE (R104): the events-written word's write completes. -/
def execAppendComplete (s : State) : Result :=
  .next (s.completeIf (fun a => a.source == .append && s.part.appendAtPublish) none 0)

/-- EVENTS_TAKEN_READ (R106): the read of the events-taken word completes. -/
def execEventsTakenRead (host : Option Word) (dt : Nat) (s : State) : Result :=
  .next (s.completeIf (fun a => a.source == .eventsTaken) host dt)

/-- WITHDRAW_CHECK (R119): a read of a withdraw number completes, before a SEG or before an answer. -/
def execWithdrawCheck (host : Option Word) (dt : Nat) (s : State) : Result :=
  .next (s.completeIf
    (fun a => a.source == .withdraw || (a.source == .answer && s.part.parcels.answering == some .checking)) host dt)

/-- The word the access in progress will have read. -/
def State.nextValue (s : State) (a : Access) (host : Option Word) : Word :=
  a.value s.port.area (a.memAfter s.port.area host s.mem)

/-- SLOT_VISIT (R114, R178): the read that decides the slot under visit completes. -/
def execSlotVisit (host : Option Word) (s : State) : Result :=
  .next (s.completeIf (fun a => a.source == .walk && s.part.visitDecides (s.nextValue a host)) host 0)

/-- ANSWER_WRITE_COMPLETE (R116, R127): an answer-number write completes. -/
def execAnswerWriteComplete (s : State) : Result :=
  .next (s.completeIf (fun a => a.source == .answer && s.part.answerAtNumber) none 0)

/-- HOLD_WORD_READ (R74): the read of the input hold word completes. -/
def execHoldWordRead (host : Option Word) (s : State) : Result :=
  .next (s.completeIf (fun a => a.source == .close && s.part.images.close.any (·.fill.isNone)) host 0)

/-- INPUT_PUBLISH (R75): the input publish word's write completes. -/
def execInputPublish (s : State) : Result :=
  .next (s.completeIf (fun a => a.source == .close && s.part.closeAtPublish) none 0)

/-- CLOSE_COMPLETE (R40, R41): the anchor cycle-number write ends. -/
def execCloseComplete (s : State) : Result := .next (s.completeIf (fun a => a.source == .cycleWord) none 0)

/-- SNAPSHOT_END (R167): the even sequence write completes. -/
def execSnapshotEnd (s : State) : Result :=
  .next (s.completeIf (fun a => a.source == .snapshot && s.part.snapshotAtEnd) none 0)

end Sys2Proof.Machine
end

