-- ==== Sys2Proof/Machine/Registers.lean ====
section
/-! DEFINITION. The meanings of the register writes (R173 to R176, R147, R154). -/

namespace Sys2Proof.Machine

/-- REQUEST_RUN (R147, R148): a write of CONTROL with REQUEST 1. -/
def execRequestRun (nudge : Bool) (s : State) : Result := .next (s.writeControl (controlBits 1 nudge))

/-- REQUEST_HOLD (R147, R148): a write of CONTROL with REQUEST 2. -/
def execRequestHold (nudge : Bool) (s : State) : Result := .next (s.writeControl (controlBits 2 nudge))

/-- REQUEST_REST (R147, R148): a write of CONTROL with REQUEST 3. -/
def execRequestRest (nudge : Bool) (s : State) : Result := .next (s.writeControl (controlBits 3 nudge))

/-- REQUEST_STILL (R147, R148): a write of CONTROL with REQUEST 4. -/
def execRequestStill (nudge : Bool) (s : State) : Result := .next (s.writeControl (controlBits 4 nudge))

/-- NUDGE (R154, R175): a write of CONTROL with NUDGE set and no request. -/
def execNudge (s : State) : Result := .next (s.writeControl (controlBits 0 true))

/-- AREA_WRITE (R174). -/
def execAreaWrite (value : Word) (s : State) : Result := .next (s.writeArea value)

/-- CAUSE_WRITE (R162, R163). -/
def execCauseWrite (value : Word) (s : State) : Result := .next (s.writeCause value)

/-- MASK_WRITE (R164). -/
def execMaskWrite (value : Word) (s : State) : Result := .next (s.writeMask value)

/-- FAULT_VIEW_WRITE (R176). -/
def execFaultViewWrite (value : Word) (s : State) : Result := .next (s.writeView value)

/-- PORT_MISUSE (R173): the access is ignored, or read as 0, and reported; an access that is no misuse is not this event (log 1). -/
def execPortMisuse (a : PortAccess) (s : State) : Result :=
  if s.port.resetLow then .next s
  else
    match s.misuseKind a with
    | some k => .next (s.misuse k (registerOf a))
    | none => .next s

end Sys2Proof.Machine
end

