-- ==== Sys2Proof/Machine/Dispatch.lean ====
section
/-! DEFINITION. One arm per command of the table, each one direct call of its meaning. -/

namespace Sys2Proof.Machine

def exec (i : Instr) (s : State) : Host.Outcome State Fault Refusal :=
  match i with
  | .fullReset pinLow => Sys2Proof.Machine.execFullReset pinLow s
  | .softReset control => Sys2Proof.Machine.execSoftReset control s
  | .softResetTakesEffect => Sys2Proof.Machine.execSoftResetTakesEffect s
  | .requestRun nudge => Sys2Proof.Machine.execRequestRun nudge s
  | .requestHold nudge => Sys2Proof.Machine.execRequestHold nudge s
  | .requestRest nudge => Sys2Proof.Machine.execRequestRest nudge s
  | .requestStill nudge => Sys2Proof.Machine.execRequestStill nudge s
  | .nudge => Sys2Proof.Machine.execNudge s
  | .areaWrite value => Sys2Proof.Machine.execAreaWrite value s
  | .causeWrite value => Sys2Proof.Machine.execCauseWrite value s
  | .maskWrite value => Sys2Proof.Machine.execMaskWrite value s
  | .faultViewWrite value => Sys2Proof.Machine.execFaultViewWrite value s
  | .portMisuse access => Sys2Proof.Machine.execPortMisuse access s
  | .startupStepComplete host => Sys2Proof.Machine.execStartupStepComplete host s
  | .cycleTimerExpiry => Sys2Proof.Machine.execCycleTimerExpiry s
  | .reprobeCountdownExpiry node => Sys2Proof.Machine.execReprobeCountdownExpiry node s
  | .patienceExpiry slot => Sys2Proof.Machine.execPatienceExpiry slot s
  | .statPeriodExpiry => Sys2Proof.Machine.execStatPeriodExpiry s
  | .openReady dt => Sys2Proof.Machine.execOpenReady dt s
  | .frameStart => Sys2Proof.Machine.execFrameStart s
  | .requestSent => Sys2Proof.Machine.execRequestSent s
  | .replyTimerLimit => Sys2Proof.Machine.execReplyTimerLimit s
  | .replyFrameEnd items => Sys2Proof.Machine.execReplyFrameEnd items s
  | .lineClash => Sys2Proof.Machine.execLineClash s
  | .guardEnd dt => Sys2Proof.Machine.execGuardEnd dt s
  | .slotEnd heard dt => Sys2Proof.Machine.execSlotEnd heard dt s
  | .appendComplete => Sys2Proof.Machine.execAppendComplete s
  | .eventsTakenRead host dt => Sys2Proof.Machine.execEventsTakenRead host dt s
  | .withdrawCheck host dt => Sys2Proof.Machine.execWithdrawCheck host dt s
  | .abandonSent dt => Sys2Proof.Machine.execAbandonSent dt s
  | .slotVisit host => Sys2Proof.Machine.execSlotVisit host s
  | .answerWriteComplete => Sys2Proof.Machine.execAnswerWriteComplete s
  | .holdWordRead host => Sys2Proof.Machine.execHoldWordRead host s
  | .inputPublish => Sys2Proof.Machine.execInputPublish s
  | .cycleDivisorReached => Sys2Proof.Machine.execCycleDivisorReached s
  | .closeComplete => Sys2Proof.Machine.execCloseComplete s
  | .holdFrameSent => Sys2Proof.Machine.execHoldFrameSent s
  | .heldLineQuiet => Sys2Proof.Machine.execHeldLineQuiet s
  | .heldServiceEntry => Sys2Proof.Machine.execHeldServiceEntry s
  | .alert address => Sys2Proof.Machine.execAlert address s
  | .unsolicitedFrame items => Sys2Proof.Machine.execUnsolicitedFrame items s
  | .restFrameSent => Sys2Proof.Machine.execRestFrameSent s
  | .lineActivity => Sys2Proof.Machine.execLineActivity s
  | .rouseFrameSent => Sys2Proof.Machine.execRouseFrameSent s
  | .rouseTimerExpiry => Sys2Proof.Machine.execRouseTimerExpiry s
  | .settleTimerExpiry => Sys2Proof.Machine.execSettleTimerExpiry s
  | .memoryAccessComplete host dt => Sys2Proof.Machine.execMemoryAccessComplete host dt s
  | .memoryErrorResponse dt => Sys2Proof.Machine.execMemoryErrorResponse dt s
  | .snapshotEnd => Sys2Proof.Machine.execSnapshotEnd s
  | .resetNRelease => Sys2Proof.Machine.execResetNRelease s

end Sys2Proof.Machine
end

