-- ==== Sys2Proof/Safety.lean ====
section
/-! DEFINITION. The terms the statements use beside the machine's own: host memory in canonical form, the bytes of a word, the
command that writes a request, the stray set after a sighting, what the optional phases of a cycle do, the words of an answer, and the
laws the node table and the three queues keep. -/

namespace Sys2Proof.Machine

/-- Host memory is in its canonical form. -/
def State.memoryOk (s : State) : Prop := s.mem.wf = true

/-- The bytes of the word at `address`. -/
def inWord (address a : Nat) : Prop := address ≤ a ∧ a < address + 4

/-- The command that writes a request into CONTROL, with NUDGE set in the same write or not (R147). -/
def requestCommand (r : Request) (nudge : Bool) : Instr :=
  match r with
  | .run => .requestRun nudge
  | .hold => .requestHold nudge
  | .rest => .requestRest nudge
  | .still => .requestStill nudge

/-- The register side takes requests and NUDGE: RESET_N is high and no soft reset has been written that has yet to take effect
(R173, R175). -/
def State.takesControl (s : State) : Prop := s.port.resetLow = false ∧ s.part.ladder.resetUnderWay = false

/-! ## Start-up -/

/-- The sweep passes on from a slot (R131): the next slot's ask number is read; after the last slot CAUSE.PARCEL is set if a slot has
been answered, the start-up count is raised and the state word written with it (R149, step 7). -/
def Startup.sweepPasses (u : Startup) (slot : SlotIx) (s t : State) : Prop :=
  if slot.val < 15 then t.part.ladder.startup = some { u with pos := .sweepAsk (slot + 1) }
  else
    t.part.ladder.startup = some { u with pos := .finalWord } ∧
    t.part.ladder.startCount = s.part.ladder.startCount + 1 ∧
    (u.swept = true → t.part.hasCause .parcel = true) ∧
    { offset := 0x40,
      write := some (stateWord (if s.part.ladder.pending = some .run then .run else .held) (s.part.ladder.startCount + 1)),
      source := .startup } ∈ t.part.bus

/-! ## Accesses -/

/-- A block asks for an access: it is on the request list, or, where the line rests, may wait off it until the line is held (log 37). -/
def Part.asks (p : Part) (a : Access) : Prop := a ∈ p.requested ∧ (p.ladder.state.pauses = false → a ∈ p.bus)

/-! ## The loss policy -/

/-- The loss policy applied to a shadow (R18, R71): under CLEAR the bytes of the entry's slice within an image of `size` bytes are
zero, and every other byte, under KEEP every byte, is as before. -/
def lossApplied (e : NodeEntry) (size : Nat) (before after : Memory) : Prop :=
  ∀ k, after.readByte k =
    if e.loss = .clear ∧ e.inOffset ≤ k ∧ k < e.inOffset + e.inLength ∧ k < size then 0 else before.readByte k

/-! ## The stray set -/

/-- The stray set after a sighting (R90, R91). An entry of the address counts it, up to 255; a BID sets its kind; it is NOTE-PENDING where
it was, or where its count has reached twice its count at last note. An address without an entry gets one at the end, in NOTE-PENDING with
count 1 and with kind 0 from an ALERT, unless 16 are held. Every other entry stays. -/
def sighted (before : List Stray) (address : Byte) (origin : StrayOrigin) (kind : Byte) (after : List Stray) : Prop :=
  if ∃ e ∈ before, e.address = address then
    after.length = before.length ∧
    ∀ (k : Nat) (e e' : Stray), before[k]? = some e → after[k]? = some e' →
      (e.address ≠ address → e' = e) ∧
      (e.address = address →
        e'.address = address ∧ e'.origin = e.origin ∧ e'.lastNote = e.lastNote ∧
        e'.count = (if e.count = 255 then 255 else e.count + 1) ∧
        e'.kind = (if origin = .bid then kind else e.kind) ∧
        (e'.pendingNote = true ↔ e.pendingNote = true ∨ 2 * e.lastNote ≤ e'.count))
  else if before.length < 16 then
    after = before ++ [{ address := address, origin := origin, kind := if origin = .bid then kind else 0, count := 1, lastNote := 0,
                         pendingNote := true }]
  else after = before

/-! ## The optional phases of a cycle

Each relation below holds of `p`, the part as the phase begins or asks for its next exchange but with the cycle timer not yet moved, of
`t`, the part after the step, and of `dt`, the half microseconds the step lets pass on the cycle timer before the phase. -/

/-- The overrun latch is clear and the next expiry of the cycle timer is still to come `dt` on (R36, R89). -/
def Part.beforeExpiry (p : Part) (dt : Nat) : Prop := p.sched.overrun = false ∧ ∃ left, p.sched.timer = some left ∧ dt < left

/-- What lasts `bt` byte times at worst fits `dt` on (R36): before the next expiry, and with the close allowance of 40 µs not later than
it. One byte time is 20, 10, 5 or 2.5 µs by the bit rate. -/
def Part.fitsIn (p : Part) (dt bt : Nat) : Prop :=
  p.beforeExpiry dt ∧ ∃ left, p.sched.timer = some left ∧ dt + bt * Config.byteTime p.loader.settings.bitRate + 80 ≤ left

/-- The effective reply timeout of a node's record in byte times (R2). -/
def Part.replyTime (p : Part) (i : NodeIx) : Nat :=
  if (p.node i).applied.replyTimeout = 0 then p.loader.settings.defaultTimeout else (p.node i).applied.replyTimeout

/-- The frame engine has been given an exchange and its frame, and waits for the turnaround (R52). -/
def Part.gives (t : Part) (ex : Exchange) (bytes : List Byte) : Prop :=
  t.frames.state = .sending ∧ t.frames.onLine = false ∧ t.frames.exchange = some ex ∧ t.frames.tx = bytes

/-- An exchange of the parcel phase is given where it fits, and the phase ends where it does not (R39). -/
def Part.parcelGiven (p t : Part) (dt bt : Nat) (ex : Exchange) (bytes : List Byte) : Prop :=
  (p.fitsIn dt bt → t.sched.state = .parcelling ∧ t.gives ex bytes) ∧ (¬ p.fitsIn dt bt → t.sched.state = .closing)

/-- The tag of an entry: the low 4 bits of the ask number above the slot index (R57). -/
def Parcel.tag (e : Parcel) : Byte := e.ask.extractLsb' 0 4 ++ BitVec.ofNat 4 e.slot.val

/-- The SEG of segment `n` of an entry (R120): its tag, the segment byte with LAST where `n` is the last of the request's segments, at
least one, of 48 bytes, the operation, the length, the parameter index, and the request's bytes of that segment. -/
def Part.segGiven (p t : Part) (dt : Nat) (e : Parcel) (n : Nat) : Prop :=
  let segment : Byte := BitVec.ofBool (decide (n = (e.request.length + 47) / 48 - 1)) ++ 0#4 ++ BitVec.ofNat 3 n
  p.parcelGiven t dt (74 + p.replyTime e.node) (.seg e.node e.slot e.tag segment)
    (encodeFrame .seg 0 (p.node e.node).applied.address
      ([e.tag, segment, e.operation.code, BitVec.ofNat 8 e.request.length, e.parameter.extractLsb' 8 8, e.parameter.extractLsb' 0 8] ++
        (e.request.drop (48 * n)).take 48))

/-- The NEXT of an entry in ASKING `n`: its tag and the wanted segment (R121). -/
def Part.nextGiven (p t : Part) (dt : Nat) (e : Parcel) (n : Nat) : Prop :=
  p.parcelGiven t dt (72 + p.replyTime e.node) (.next e.node e.slot e.tag (BitVec.ofNat 8 n))
    (encodeFrame .next 0 (p.node e.node).applied.address [e.tag, BitVec.ofNat 8 n])

/-- The ABANDON of an entry: its tag (R123). -/
def Part.abandonGiven (p t : Part) (dt : Nat) (e : Parcel) : Prop :=
  p.parcelGiven t dt 10 (.abandon e.node e.slot) (encodeFrame .abandon 0 (p.node e.node).applied.address [e.tag])

/-- An entry is served in its pass (R118, R119): before a SEG its withdraw number is read; its NEXT or ABANDON is given. -/
def Part.parcelServed (p t : Part) (dt : Nat) (e : Parcel) : Prop :=
  match e.transfer with
  | .waiting | .sending _ => t.sched.withdrawRead = some e.slot ∧
      t.asks { offset := 0x2000 + 512 * e.slot.val + 0x004, write := none, source := .withdraw }
  | .asking n => p.nextGiven t dt e n
  | .finishing => p.abandonGiven t dt e

/-- The parcel phase begins (R39, R118): the first entry of the queue that is eligible is served, and with none the cycle closes. -/
def Part.parcelPhaseBegins (p t : Part) (dt : Nat) : Prop :=
  match p.parcels.queue.find? p.parcelEligible with
  | some e => p.parcelServed t dt e
  | none => t.sched.state = .closing

/-- The list has a free place (R106). -/
def EventUnit.hasPlace (e : EventUnit) : Prop :=
  e.takenInvalid = false ∧ e.appendStopped = false ∧ (e.written - e.taken).toNat + e.claimed < 64

/-- The scheduler asks the event unit for a FETCH (R38, R96), `eligible` telling which nodes of the queue are. The first of them is named
where the list has a free place: its FETCH is given with a place claimed where it fits, and else the place is released and the parcel phase
begins. With no free place the events-taken word is read, by a read under way or one asked for; with no node the parcel phase begins. -/
def Part.fetchAsked (p t : Part) (dt : Nat) (eligible : NodeIx → Bool) : Prop :=
  match p.events.queue.find? eligible with
  | none => t.events.claimed = p.events.claimed ∧ p.parcelPhaseBegins t dt
  | some i =>
    let owed := (p.nodeEvents i).ackOwed
    let accepted := (p.nodeEvents i).accepted
    (p.events.hasPlace → p.fitsIn dt (38 + p.replyTime i) →
      t.sched.state = .fetching ∧ t.sched.attempts = (p.node i).applied.retries ∧ t.events.claimed = p.events.claimed + 1 ∧
      t.gives (.fetch i (if owed then some accepted else none))
        (encodeFrame .fetch (if owed then 1 else 0) (p.node i).applied.address [if owed then accepted else 0])) ∧
    (p.events.hasPlace → ¬ p.fitsIn dt (38 + p.replyTime i) →
      t.events.claimed = p.events.claimed ∧ p.parcelPhaseBegins t dt) ∧
    (¬ p.events.hasPlace →
      t.events.claimed = p.events.claimed ∧ t.sched.fetchRead = true ∧ t.events.takenRead.isSome = true ∧
      (p.events.takenRead = none → t.asks { offset := 0x14, write := none, source := .eventsTaken }))

/-- The fetch phase begins (R96): fetched-this-turn is cleared, so every node of the queue without an intake under way is eligible. -/
def Part.fetchPhaseBegins (p t : Part) (dt : Nat) : Prop := p.fetchAsked t dt fun i => !(p.nodeEvents i).intake

/-- The optional phases begin (R37, R82, R89). A window that is due and fits is opened: WINDOWING, its tallies at 0, and the WINDOW frame
with its size and the last-clash byte. One that is due and does not fit halves the size, down to 2, with the streak at 0, where the latch is
clear and the expiry still to come, and changes nothing else; the fetch phase then begins, as where none is due. -/
def Part.optionalPhasesBegin (p t : Part) (dt : Nat) : Prop :=
  let w := p.windows
  let due := p.sched.interval ≠ 0 ∧ p.sched.cycle.toNat % p.sched.interval = 0
  let fits := p.fitsIn dt (11 + 12 * w.size.slots)
  (due → fits →
    t.sched.state = .windowing ∧ t.events.claimed = p.events.claimed ∧
    t.gives .window (encodeFrame .window 0 0 [BitVec.ofNat 8 w.size.slots, if w.lastClash then 1 else 0]) ∧
    t.windows = { w with isOpen := true, tallies := { empty := 0, bid := 0, stray := 0, clash := 0 } }) ∧
  (due → ¬ fits →
    (p.beforeExpiry dt →
      t.windows.size.slots = max 2 (w.size.slots / 2) ∧ t.windows = { w with size := t.windows.size, streak := 0 }) ∧
    (¬ p.beforeExpiry dt → t.windows = w) ∧ p.fetchPhaseBegins t dt) ∧
  (¬ due → t.windows = w ∧ p.fetchPhaseBegins t dt)

/-- The part as a phase begins behind an outcome or a slot: nodes, parcels and events as that has left them, which the phase's first
choice leaves so, but for the places claimed, `claimed` of them, and the read of the events-taken word; everything else as before. -/
def Part.behind (p t : Part) (claimed : Nat) : Part :=
  { p with table := t.table, parcels := t.parcels, events := { t.events with claimed := claimed, takenRead := p.events.takenRead } }

/-! ## The words of an answer -/

/-- The writes of an entry's answer (R127). For DONE and NODE-REJECTED the reply's bytes come first, in whole words from 0x110 up, the last
one padded with zeros; then at 0x108 the reply length, or 0, the node status and the outcome's code (Table 11-8); and last the answer number
at 0x104. -/
def Parcel.answeredBy (e : Parcel) (writes : List (Nat × Word)) : Prop :=
  let base := 0x2000 + 512 * e.slot.val
  let length := if e.outcome = .done ∨ e.outcome = .nodeRejected then e.total else 0
  let code : Byte :=
    match e.outcome with
    | .done => 1 | .nodeRejected => 2 | .nodeUnavailable => 3 | .nodeLost => 4 | .transferFailed => 5 | .timedOut => 6
    | .withdrawn => 7 | .refusedRequest => 8 | .interrupted => 9
  ∃ reply : List Word, reply.length = (length + 3) / 4 ∧
    (∀ (k : Nat) (word : Word) (b : Fin 4), reply[k]? = some word →
      word.extractLsb' (8 * b.val) 8 = if 4 * k + b.val < length then (e.reply[4 * k + b.val]?).getD 0 else 0) ∧
    writes = reply.mapIdx (fun k word => (base + 0x110 + 4 * k, word)) ++
      [(base + 0x108, BitVec.ofNat 16 length ++ e.nodeStatus ++ code), (base + 0x104, 0#16 ++ e.ask)]

/-! ## The node table's law (R4) -/

/-- Table 1-1's ranges of an applied part, whether the record is enabled or cleared; the line address has its range where the record
is enabled. -/
def NodeEntry.inRange (e : NodeEntry) : Prop :=
  e.periodClass ∈ [1, 2, 4, 8] ∧ e.phase < e.periodClass ∧ e.outLength ≤ 63 ∧ e.inLength ≤ 64 ∧ e.retries ≤ 3 ∧
    1 ≤ e.missLimit ∧ e.missLimit ≤ 15 ∧ (e.replyTimeout = 0 ∨ 4 ≤ e.replyTimeout) ∧ e.replyTimeout ≤ 255 ∧ e.reprobeDelay ≤ 255 ∧
    (e.enabled = true → 1 ≤ e.address.toNat ∧ e.address.toNat ≤ 250)

/-- What miss count and re-probe countdown are in each node state (Table 1-3). -/
def NodeRecord.stateLaw (r : NodeRecord) : Prop :=
  match r.state with
  | .excluded | .probing | .live | .misfit => r.missCount = 0 ∧ r.countdown = none
  | .suspect => 1 ≤ r.missCount ∧ r.missCount < r.applied.missLimit ∧ r.countdown = none
  | .lost => r.missCount = r.applied.missLimit ∧ (r.countdown = none ↔ r.applied.reprobeDelay = 0)

/-- A record obeys Table 1-3, is EXCLUDED exactly while not enabled, and outside LIVE and SUSPECT has DEGRADED and FRESH-THIS-CYCLE
clear (R4, R5, R6). -/
def NodeRecord.lawful (r : NodeRecord) : Prop :=
  r.applied.inRange ∧ r.stateLaw ∧ (r.applied.enabled = false ↔ r.state = .excluded) ∧
    (r.state.inService = false → r.degraded = false ∧ r.fresh = false)

/-- Every record is lawful, and no two enabled records have one line address (R4, R83). -/
def Part.recordsOk (p : Part) : Prop :=
  (∀ i, (p.node i).lawful) ∧
  ∀ i j, (p.node i).applied.enabled = true → (p.node j).applied.enabled = true →
    (p.node i).applied.address = (p.node j).applied.address → i = j

/-! ## The queues' laws -/

/-- The fetch queue: each node stands in it at most once, exactly while its latch is set, and only in LIVE or SUSPECT with events
enabled (R94, R95, R108). -/
def Part.queueOk (p : Part) : Prop :=
  p.events.queue.Nodup ∧
  ∀ i, (i ∈ p.events.queue ↔ (p.nodeEvents i).latch = true) ∧
    (i ∈ p.events.queue → (p.node i).state.inService = true ∧ (p.node i).applied.eventsEnabled = true)

/-- The exchange given to the frame engine is a FETCH. -/
def FrameEngine.fetching (f : FrameEngine) : Bool :=
  match f.exchange with
  | some (.fetch _ _) => true
  | _ => false

/-- The places that must be claimed: one for each append whose record is not yet published, and one for the FETCH under way
(R96, R104, R107). -/
def Part.placesNeeded (p : Part) : Nat :=
  (p.events.appends.length - (if p.events.appending.any (9 ≤ ·) then 1 else 0)) +
    (if (p.ladder.state = .run ∨ p.ladder.state = .heldService) ∧ p.frames.fetching = true then 1 else 0)

/-- The event list: the backlog and the claimed places together never exceed its 64 records, and a place stands claimed for whatever
needs one (R96, R106); in STARTING none is claimed and nothing is appended (R110). -/
def Part.placesOk (p : Part) : Prop :=
  p.events.backlog + p.events.claimed ≤ 64 ∧ p.placesNeeded ≤ p.events.claimed ∧
  (p.ladder.state = .starting → p.events.claimed = 0 ∧ p.events.appends = [])

/-- The slot that a walk has found fit to be judged, or is taking (R114, R115). -/
def Walk.judging : Walk → Option SlotIx
  | .visit slot _ (_ :: _ :: _ :: _) | .copying slot _ _ _ | .taking slot _ _ _ => some slot
  | .visit _ _ _ | .idle | .total | .answering _ _ => none

/-- Whether a walk is taking a parcel. -/
def Walk.takes : Walk → Bool
  | .copying _ _ _ _ | .taking _ _ _ _ => true
  | .idle | .total | .visit _ _ _ | .answering _ _ => false

/-- The parcel queue: at most six entries, the one being taken counted; one entry to a slot, and none to the slot being judged; one in
transfer to a node; none in WAITING has sent a segment (R111, R112, R114, R118). -/
def Part.parcelsOk (p : Part) : Prop :=
  p.parcels.queue.length + (if p.parcels.walk.takes then 1 else 0) ≤ 6 ∧
  (p.parcels.queue.map Parcel.slot).Nodup ∧
  (∀ slot, p.parcels.walk.judging = some slot → p.parcelOf slot = none) ∧
  (∀ e ∈ p.parcels.queue, e.transfer = .waiting → e.segSent = false) ∧
  (∀ a ∈ p.parcels.queue, ∀ b ∈ p.parcels.queue, a.inTransfer = true → b.inTransfer = true → a.node = b.node → a.slot = b.slot)

end Sys2Proof.Machine
end

