-- ==== Sys2Proof/Certificates/Slice0/Obligations.lean ====
section
/-! DEFINITION. The statements for the provers. Each docstring names the rule of spec/ it formalises; a clause that rests on a
choice of the model's names its log entry (notes/assumptions). -/

open Sys2Proof Sys2Proof.Machine

/-! ## The machine and its queue -/

/-- A step runs the command at the front of the queue on the queue's rest (00_scope; log 7). -/
def Obligations.StepRunsFrontCommand : Prop :=
  ∀ (c : Instr) (rest : List Instr) (s : State), step { s with pending := c :: rest } = exec c { s with pending := rest }

/-- The part never stops: every command answers a next state in every state, and changes no command that waits behind it. Its faults
are captured and it goes on (Table 10-1, R160); an event that cannot fall leaves the state as it is (log 1). -/
def Obligations.EveryCommandAnswersNext : Prop :=
  ∀ (c : Instr) (s : State), ∃ t, exec c s = .next t ∧ t.pending = s.pending

/-! ## Resets -/

/-- R177, Table 11-13: the register values after a full reset (at once) and after a soft reset that takes effect. -/
def Obligations.RegistersAfterReset : Prop :=
  (∀ s : State, ∃ t, exec (.fullReset false) s = .next t ∧
    t.readRegister regIdent = 0x4C642001 ∧ t.readRegister regArea = 0 ∧ t.readRegister regControl = 0 ∧
    t.readRegister regCause = 0 ∧ t.readRegister regMask = 0 ∧ t.port.view = false ∧
    ∀ view, { t with port := { t.port with view := view } }.readRegister regFault = 0) ∧
  (∀ s : State, s.port.resetLow = false → s.part.ladder.resetUnderWay = true →
    ∃ t, exec .softResetTakesEffect s = .next t ∧
      t.readRegister regIdent = 0x4C642001 ∧ t.readRegister regArea = s.readRegister regArea ∧
      t.readRegister regControl = 0 ∧ t.readRegister regCause = 0 ∧ t.readRegister regMask = s.readRegister regMask ∧
      t.port.view = false ∧ ∀ view, { t with port := { t.port with view := view } }.readRegister regFault = 0)

/-- A full reset takes every block to its reset values at once, from every state, writes no memory, and leaves RESET_N as the
command says (R159, R177, R24, R27, R65, R66, R81, R93, R112, R132, R146, R169). The free choices (log 4) stand outside the
part. -/
def Obligations.FullResetTakesEveryBlock : Prop :=
  ∀ (low : Bool) (s : State),
    exec (.fullReset low) s =
      .next { port := { area := 0, mask := 0, view := false, resetLow := low },
              part := { Part.reset with arb := s.part.arb }, mem := s.mem, pending := s.pending }

/-- A soft reset that waits takes every block to its reset values, keeps AREA and MASK, and lets the memory word in progress complete
first; while it waits for the settle timer no word is in progress (R170, R175, R159). That every command which ends the word is the
reset's taking effect, and that an error response on it is so too, with no report, is the model's choice (log 29). -/
def Obligations.SoftResetTakesEffect : Prop :=
  (∀ s : State, s.part.ladder.resetUnderWay = true →
    ∃ t, exec .softResetTakesEffect s = .next t ∧
      t.part = { Part.reset with arb := s.part.arb } ∧ t.port = { s.port with view := false } ∧
      (s.part.ladder.resetWaiting = true ∨ s.current = none → t.mem = s.mem) ∧
      (∀ x, s.part.ladder.resetWaiting = false → s.current = some x → t.mem = x.memAfter s.port.area none s.mem)) ∧
  (∀ (s : State) (x : Access) (host : Option Word) (dt : Nat), s.part.ladder.softPending = true → s.current = some x →
    (∃ t, exec (.memoryAccessComplete host dt) s = .next t ∧ t.part = { Part.reset with arb := s.part.arb } ∧
      t.mem = x.memAfter s.port.area host s.mem) ∧
    (∃ t, exec (.memoryErrorResponse dt) s = .next t ∧ t.part = { Part.reset with arb := s.part.arb } ∧ t.mem = s.mem))

/-- A write of CONTROL with SOFT_RESET set (R175): in STILL and SETTLING it sets reset waiting, in STILL with the line clock
restarted and the settle timer at 2 ms (R159); elsewhere it takes effect at once with no memory word in progress, and waits for the
word otherwise (R170). Its other bits are ignored. Between its write and the moment it takes effect, writes of CONTROL make no
request, no NUDGE and no further soft reset (R175, R159). With a REQUEST code of 5 to 7 in the same write it is a misuse of kind 3 in
every ladder state: it is ignored whole, SOFT_RESET included, and reported (R173). -/
def Obligations.SoftResetWritten : Prop :=
  (∀ (s : State) (v : Word), s.takesControl → (v.extractLsb' 0 3).toNat ≤ 4 →
    exec (.softReset v) s = .next (
      if s.part.ladder.state = .still then
        { s with part := { s.part with ladder :=
            { s.part.ladder with resetWaiting := true, lineClock := true, settle := some 2 } } }
      else if s.part.ladder.state = .settling then
        { s with part := { s.part with ladder := { s.part.ladder with resetWaiting := true } } }
      else if s.part.bus = [] then
        { s with port := { s.port with view := false }, part := { Part.reset with arb := s.part.arb } }
      else { s with part := { s.part with ladder := { s.part.ladder with softPending := true } } })) ∧
  (∀ (s : State) (r : Request) (nudge : Bool) (v : Word), s.part.ladder.resetUnderWay = true →
    (v.extractLsb' 0 3).toNat ≤ 4 →
    exec (requestCommand r nudge) s = .next s ∧ exec .nudge s = .next s ∧ exec (.softReset v) s = .next s) ∧
  (∀ (s : State) (v : Word), s.port.resetLow = false → 5 ≤ (v.extractLsb' 0 3).toNat →
    exec (.softReset v) s = .next { s with part := s.part.report .portMisuse 0x0308 } ∧
    (s.part.report .portMisuse 0x0308).ladder = s.part.ladder ∧ (s.part.report .portMisuse 0x0308).hasCause .fault = true)

/-- While RESET_N is low the register side ignores writes and answers reads with 0, and reports no misuse; the release lets it answer
again (R173). -/
def Obligations.ResetNLow : Prop :=
  (∀ (s : State) (r : Request) (nudge : Bool) (v : Word) (a : PortAccess) (offset : Nat), s.port.resetLow = true →
    exec (requestCommand r nudge) s = .next s ∧ exec .nudge s = .next s ∧ exec (.softReset v) s = .next s ∧
    exec (.areaWrite v) s = .next s ∧ exec (.causeWrite v) s = .next s ∧ exec (.maskWrite v) s = .next s ∧
    exec (.faultViewWrite v) s = .next s ∧ exec (.portMisuse a) s = .next s ∧ s.readRegister offset = 0) ∧
  (∀ s : State, exec .resetNRelease s = .next { s with port := { s.port with resetLow := false } })

/-! ## Host memory -/

/-- Every step keeps host memory in canonical form. -/
def Obligations.MemoryCanonicalKept : Prop :=
  ∀ s t : State, s.memoryOk → step s = .next t → t.memoryOk

/-- A word written reads back, least significant byte at the lowest address (R170, R172). -/
def Obligations.WordWrittenReadsBack : Prop :=
  ∀ (m : Memory) (a : Nat) (w : Word), m.wf = true →
    (m.writeWord a w).readWord a = w ∧
    ∀ k : Fin 4, (m.writeWord a w).readByte (a + k.val) = w.extractLsb' (8 * k.val) 8

/-- Whatever command runs, every byte of host memory outside the word of the access in progress reads as before, and with no access in
progress every byte does (R170). In STILL and SETTLING the part makes no access, and no command changes memory (R145, R170). -/
def Obligations.OnlyCurrentWordChanges : Prop :=
  (∀ (c : Instr) (s t : State), exec c s = .next t → ∀ a : Nat,
    (∀ x, s.current = some x → ¬ inWord (busAddress s.port.area x.offset) a) → t.mem.readByte a = s.mem.readByte a) ∧
  (∀ (c : Instr) (s t : State), s.part.ladder.state = .still ∨ s.part.ladder.state = .settling → exec c s = .next t →
    t.mem = s.mem)

/-- The access in progress completes: a write's word stands in memory, a read finds the word the host has stored there and changes
nothing else of memory (R170; the operand that tells what the host stored: log 2). -/
def Obligations.AccessCompletes : Prop :=
  ∀ (s : State) (x : Access) (host : Option Word) (dt : Nat), s.memoryOk → s.current = some x →
    ∃ t, exec (.memoryAccessComplete host dt) s = .next t ∧
      (∀ w, x.write = some w → t.mem.readWord (busAddress s.port.area x.offset) = w) ∧
      (∀ w, x.write = none → host = some w → t.mem.readWord (busAddress s.port.area x.offset) = w) ∧
      (x.write = none → host = none → t.mem = s.mem)

/-- An access that ends with an error response: memory keeps its contents, CAUSE.FAULT is set, the capture takes MEMORY with the word's
offset if CAUSE.FAULT was clear, and the fault hold starts outside STARTING (R171, R160, R158), whatever the block that issued the
access then does. -/
def Obligations.ErrorResponseReported : Prop :=
  ∀ (s : State) (x : Access) (dt : Nat), s.current = some x → s.part.ladder.softPending = false →
    ∃ t, exec (.memoryErrorResponse dt) s = .next t ∧
      t.mem = s.mem ∧ t.port = s.port ∧ t.part.hasCause .fault = true ∧
      (s.part.hasCause .fault = false →
        t.part.faults.capture.valid = true ∧ t.part.faults.capture.code = 1 ∧
        t.part.faults.capture.detail = BitVec.ofNat 16 x.offset ∧ t.part.faults.capture.cycle = s.part.sched.cycle) ∧
      (s.part.ladder.state ≠ .starting → t.part.ladder.faultHold = true)

/-! ## Registers -/

/-- A write of AREA replaces the value in IDLE, unchecked; outside IDLE the value stays and PORT-MISUSE of kind 1 at offset 0x04 is
reported (R174, R173). -/
def Obligations.AreaWritten : Prop :=
  ∀ (s : State) (v : Word), s.port.resetLow = false →
    exec (.areaWrite v) s = .next (
      if s.part.ladder.state = .idle then { s with port := { s.port with area := v } }
      else { s with part := s.part.report .portMisuse 0x0104 })

/-- AREA cannot change outside IDLE but by a full reset (R174). -/
def Obligations.AreaFixedOutsideIdle : Prop :=
  ∀ (s t : State) (c : Instr) (rest : List Instr), s.pending = c :: rest → s.part.ladder.state ≠ .idle → step s = .next t →
    t.port.area = s.port.area ∨ (t.port.area = 0 ∧ ∃ low, c = .fullReset low)

/-- R164: the host writes MASK and reads it back; a full reset clears it, a soft reset keeps it, nothing else changes it; and IRQ_N is low
while at least one CAUSE bit is set whose MASK bit is also set, and high otherwise, so it is high after either reset. -/
def Obligations.MaskAndInterruptOutput : Prop :=
  (∀ (s : State) (v : Word), s.port.resetLow = false →
    ∃ t, exec (.maskWrite v) s = .next t ∧ t.part = s.part ∧ t.mem = s.mem ∧ t.port.area = s.port.area ∧
      t.readRegister regMask = v &&& 0xFF) ∧
  (∀ (c : Instr) (s t : State), exec c s = .next t →
    t.port.mask = s.port.mask ∨ (t.port.mask = 0 ∧ ∃ low, c = .fullReset low) ∨ ∃ v, c = .maskWrite v) ∧
  (∀ s : State, s.irqN = false ↔ ∃ b : CauseBit, s.part.hasCause b = true ∧ s.port.mask.getLsbD b.position = true) ∧
  (∀ (low : Bool) (s : State), ∃ t, exec (.fullReset low) s = .next t ∧ t.port.mask = 0 ∧ t.part.faults.cause = 0 ∧
    t.irqN = true) ∧
  (∀ s : State, s.part.ladder.resetUnderWay = true →
    ∃ t, exec .softResetTakesEffect s = .next t ∧ t.port.mask = s.port.mask ∧ t.part.faults.cause = 0 ∧ t.irqN = true) ∧
  (∀ s : State, s.part.faults.cause = 0 → s.irqN = true)

/-- A write of CAUSE clears the bits written with 1 and leaves the others (R163). Clearing CAUSE.WAKE clears wake-seen (R155), in
every ladder state alike: the model's choice (log 57).
Clearing CAUSE.FAULT while it is set empties the capture and ends the fault hold, and with it already clear the capture and the hold
stay (R162). This holds but where CAUSE.FAULT is cleared in HELD with a request pending, which is FaultHoldEnds. -/
def Obligations.CauseWritten : Prop :=
  ∀ (s : State) (v : Word), s.port.resetLow = false → s.endsHold (v.extractLsb' 0 8) = false →
    ∃ t, exec (.causeWrite v) s = .next t ∧
      t.part.faults.cause = s.part.faults.cause &&& ~~~ (v.extractLsb' 0 8) ∧
      t.part.ladder.wakeSeen =
        (s.part.ladder.wakeSeen && !(v.getLsbD 5 && s.part.hasCause .wake)) ∧
      t.part.ladder.faultHold = (s.part.ladder.faultHold && !(v.getLsbD 6 && s.part.hasCause .fault)) ∧
      t.part.faults.capture =
        (if v.getLsbD 6 ∧ s.part.hasCause .fault then
          { valid := false, code := 0, detail := 0, cycle := 0, further := 0 }
        else s.part.faults.capture) ∧
      t.part.faults.counters = s.part.faults.counters ∧ t.part.ladder.state = s.part.ladder.state ∧
      t.part.ladder.pending = s.part.ladder.pending ∧ t.part.bus = s.part.bus ∧ t.mem = s.mem ∧ t.port = s.port

/-- R161: a fault report is captured in full while CAUSE.FAULT is clear, and counted up to 255 while it is set. R160: it sets
CAUSE.FAULT, and MEMORY, and no other code, raises "memory errors" by 1 and sets fault-hold outside STARTING. -/
def Obligations.FaultCaptured : Prop :=
  ∀ (p : Part) (code : FaultCode) (detail : Half),
    (p.hasCause .fault = false →
      (p.report code detail).faults.capture =
        { valid := true, code := code.code, detail := detail, cycle := p.sched.cycle, further := 0 }) ∧
    (p.hasCause .fault = true →
      (p.report code detail).faults.capture.valid = p.faults.capture.valid ∧
      (p.report code detail).faults.capture.code = p.faults.capture.code ∧
      (p.report code detail).faults.capture.detail = p.faults.capture.detail ∧
      (p.report code detail).faults.capture.cycle = p.faults.capture.cycle ∧
      (p.report code detail).faults.capture.further.toNat = min 255 (p.faults.capture.further.toNat + 1)) ∧
    (p.report code detail).hasCause .fault = true ∧
    (p.report .memory detail).counter .memoryErrors = p.counter .memoryErrors + 1 ∧
    (p.report .memory detail).ladder.faultHold = (p.ladder.faultHold || p.ladder.state != .starting) ∧
    (code ≠ .memory → (p.report code detail).faults.counters = p.faults.counters ∧
      (p.report code detail).ladder = p.ladder)

/-- The misuses of the register window and the detail each reports (R173, Table 11-12). The access changes nothing else, and the fault
hold is not started; a misuse that reads returns 0, and so does every narrow read. For a narrow access the register offset is that of
the register it falls in, and only a narrow access that is a misuse of no other kind is stated here (log 9): a narrow write above the
byte at 0x08 writes no REQUEST, and kind 4 is of the offsets 0x18 and 0x1C only. -/
def Obligations.PortMisuseReported : Prop :=
  (∀ (s : State) (a : PortAccess) (kind : Byte), s.port.resetLow = false →
    (a.narrow = false ∧ a.write = true ∧ a.offset = 0x04 ∧ s.part.ladder.state ≠ .idle ∧ kind = 1 ∨
     a.narrow = false ∧ a.write = true ∧ a.offset = 0x00 ∧ kind = 2 ∨
     a.narrow = false ∧ a.write = true ∧ a.offset = 0x08 ∧ 5 ≤ (a.data.extractLsb' 0 3).toNat ∧ kind = 3 ∨
     a.narrow = false ∧ (a.offset = 0x18 ∨ a.offset = 0x1C) ∧ kind = 4 ∨
     a.narrow = true ∧ a.write = false ∧ a.offset ≠ 0x18 ∧ a.offset ≠ 0x1C ∧ kind = 5 ∨
     a.narrow = true ∧ a.write = true ∧ kind = 5 ∧
      (0x04 ≤ a.offset.toNat ∧ a.offset.toNat < 0x08 ∧ s.part.ladder.state = .idle ∨
       a.offset = 0x08 ∧ (a.data.extractLsb' 0 3).toNat < 5 ∨
       0x09 ≤ a.offset.toNat ∧ a.offset ≠ 0x18 ∧ a.offset ≠ 0x1C)) →
    exec (.portMisuse a) s =
      .next { s with part := s.part.report .portMisuse (kind ++ BitVec.ofNat 8 (a.offset.toNat / 4 * 4)) } ∧
    (s.part.report .portMisuse (kind ++ BitVec.ofNat 8 (a.offset.toNat / 4 * 4))).ladder = s.part.ladder ∧
    s.readAccess a = 0) ∧
  (∀ (s : State) (a : PortAccess), a.narrow = true → s.readAccess a = 0)

/-- FAULT presents the capture in the view selected: view 0 the valid flag, code, further-fault count and detail, view 1 the cycle
number. A write of FAULT selects the view by its bit 0 and changes nothing else; a read of CAUSE or MASK returns the eight bits
(R176, Table 11-11). -/
def Obligations.FaultViews : Prop :=
  (∀ (s : State) (v : Word), s.port.resetLow = false →
    exec (.faultViewWrite v) s = .next { s with port := { s.port with view := v.getLsbD 0 } }) ∧
  (∀ s : State, s.port.resetLow = false →
    (s.readRegister regCause).extractLsb' 0 8 = s.part.faults.cause ∧ (s.readRegister regCause).extractLsb' 8 24 = 0 ∧
    (s.readRegister regMask).extractLsb' 0 8 = s.port.mask ∧ (s.readRegister regMask).extractLsb' 8 24 = 0 ∧
    (s.port.view = true → s.readRegister regFault = s.part.faults.capture.cycle) ∧
    (s.port.view = false →
      (s.readRegister regFault).getLsbD 31 = s.part.faults.capture.valid ∧
      (s.readRegister regFault).extractLsb' 24 4 = s.part.faults.capture.code ∧
      (s.readRegister regFault).extractLsb' 16 8 = s.part.faults.capture.further ∧
      (s.readRegister regFault).extractLsb' 0 16 = s.part.faults.capture.detail))

/-- CONTROL reads back the pending request, ladder state, wake-seen, fault-hold and reset waiting in their places, and 0 elsewhere:
NUDGE and SOFT_RESET read as 0 (R175, Table 11-11). -/
def Obligations.ControlReadsBack : Prop :=
  ∀ s : State, s.port.resetLow = false →
    ((s.readRegister regControl).extractLsb' 0 3).toNat = (s.part.ladder.pending.map Request.code).getD 0 ∧
    (s.readRegister regControl).extractLsb' 3 5 = 0 ∧
    ((s.readRegister regControl).extractLsb' 8 4).toNat = s.part.ladder.state.code ∧
    (s.readRegister regControl).getLsbD 12 = s.part.ladder.wakeSeen ∧
    (s.readRegister regControl).getLsbD 13 = s.part.ladder.faultHold ∧
    (s.readRegister regControl).getLsbD 14 = s.part.ladder.resetWaiting ∧
    (s.readRegister regControl).extractLsb' 15 17 = 0

/-! ## Requests and the ladder -/

/-- The transitions of the ladder table (Table 9-3, R149, R152, R156, R157), one command at a time: those of a move by itself, and those
in which a request kept pending is taken at the rung just reached. That a HOLD kept since REST was taken leads from HELD through RESTING
to ROUSING in one step is the model's inference (log 19). -/
def Obligations.LadderTransitions : Prop :=
  ∀ (c : Instr) (s t : State), exec c s = .next t → t.part.ladder.state ≠ s.part.ladder.state →
    (t.part.ladder.state = .idle ∧ t.part = { Part.reset with arb := s.part.arb }) ∨
    (s.part.ladder.state, t.part.ladder.state) ∈
      [(.idle, .starting), (.starting, .idle), (.starting, .run), (.starting, .held), (.run, .held), (.held, .run),
       (.held, .heldService), (.heldService, .held), (.held, .resting), (.resting, .rousing), (.rousing, .held),
       (.resting, .still), (.still, .settling), (.settling, .resting)] ∨
    (s.part.ladder.pending ≠ none ∧
      (s.part.ladder.state, t.part.ladder.state) ∈ [(.held, .rousing), (.settling, .rousing)])

/-- The line scheduler's rest outside RUN: STOPPED, its timer stopped and its overrun latch clear (R26, R28, R41). -/
def Obligations.SchedulerStoppedOutsideRun : Prop :=
  ∀ s t : State,
    (s.part.ladder.state ≠ .run →
      s.part.sched.state = .stopped ∧ s.part.sched.timer = none ∧ s.part.sched.overrun = false) →
    step s = .next t →
    (t.part.ladder.state ≠ .run →
      t.part.sched.state = .stopped ∧ t.part.sched.timer = none ∧ t.part.sched.overrun = false)

/-- After reset the invariants hold: memory is in its canonical form, the scheduler at rest outside RUN, and the node table, the fetch
queue, the event list and the parcel queue obey their laws (R24, R27, R93, R112, R146). -/
def Obligations.InvariantsHoldAtReset : Prop :=
  State.reset.memoryOk ∧ State.reset.part.ladder.state ≠ .run ∧ State.reset.part.sched.state = .stopped ∧
  State.reset.part.sched.timer = none ∧ State.reset.part.sched.overrun = false ∧
  State.reset.part.recordsOk ∧ State.reset.part.queueOk ∧ State.reset.part.placesOk ∧ State.reset.part.parcelsOk

/-- Every step keeps the node table's law (R1, R4, R5, R6): in each record the applied part within the ranges of Table 1-1, that of the
line address where the record is enabled, the miss count and the re-probe countdown as Table 1-3 gives them for its state, EXCLUDED
exactly while not enabled, and DEGRADED and FRESH-THIS-CYCLE clear outside LIVE and SUSPECT; and no two enabled records with one line
address (R83). -/
def Obligations.NodeTableLawKept : Prop :=
  ∀ s t : State, s.part.recordsOk → step s = .next t → t.part.recordsOk

/-- Every step keeps the laws of the three queues. Fetch queue: each node once, exactly while its latch is set, in LIVE or SUSPECT with
events enabled (R94, R95, R108). Event list: backlog and claimed places together at most 64, with a place claimed for each append not
yet published and for the FETCH under way (R96, R106), where the scheduler stands in STOPPED outside RUN, the invariant of
SchedulerStoppedOutsideRun (R26). Parcel queue: at most six entries, one to a slot, one in transfer to a node, and
no segment sent in WAITING (R111, R114, R118). -/
def Obligations.QueueLawsKept : Prop :=
  (∀ s t : State, s.part.queueOk → step s = .next t → t.part.queueOk) ∧
  (∀ s t : State, (s.part.ladder.state ≠ .run → s.part.sched.state = .stopped) → s.part.placesOk → step s = .next t →
    t.part.placesOk) ∧
  (∀ s t : State, s.part.parcelsOk → step s = .next t → t.part.parcelsOk)

/-- A captured fault stays captured: while CAUSE.FAULT is set, the first fault's code, detail and cycle number change by no command but
a write of 1 to CAUSE.FAULT and the resets (R161, R162). -/
def Obligations.FirstFaultKept : Prop :=
  ∀ (c : Instr) (s t : State), exec c s = .next t → s.part.hasCause .fault = true →
    (t.part.hasCause .fault = true ∧ t.part.faults.capture.valid = s.part.faults.capture.valid ∧
      t.part.faults.capture.code = s.part.faults.capture.code ∧
      t.part.faults.capture.detail = s.part.faults.capture.detail ∧
      t.part.faults.capture.cycle = s.part.faults.capture.cycle) ∨
    t.part = { Part.reset with arb := s.part.arb } ∨ ∃ v : Word, c = .causeWrite v ∧ v.getLsbD 6 = true

/-- The fault hold, once set, ends by no command but a write of 1 to CAUSE.FAULT and the resets (R158). -/
def Obligations.FaultHoldKept : Prop :=
  ∀ (c : Instr) (s t : State), exec c s = .next t → s.part.ladder.faultHold = true →
    t.part.ladder.faultHold = true ∨ t.part = { Part.reset with arb := s.part.arb } ∨
    ∃ v : Word, c = .causeWrite v ∧ v.getLsbD 6 = true

/-- A request that leaves the ladder where it is (R148, Table 9-3). LADDER-SKIP: the slot is emptied, ladder state and request reported,
the fault hold not started and CAUSE.LADDER not set. "No change": the request is consumed without a fault, a cause or a move. A NUDGE
in the same write has no effect in these states but in HELD, where the request then waits (RequestKeptPending). That RESTING includes
the time of STILL's state word is the model's inference (log 12). -/
def Obligations.RequestLeavesLadder : Prop :=
  (∀ (s : State) (r : Request) (nudge : Bool), s.takesControl →
    (s.part.ladder.state = .idle ∧ (r = .rest ∨ r = .still) ∨
     s.part.ladder.state = .still ∧ (r = .run ∨ r = .hold ∨ r = .still) ∨
     s.part.ladder.state = .resting ∧ r = .run ∨
     s.part.ladder.state = .held ∧ s.part.heldQuiet = true ∧ nudge = false ∧ r = .still) →
    ∃ t, exec (requestCommand r nudge) s = .next t ∧
      t.part.ladder.state = s.part.ladder.state ∧ t.part.ladder.pending = none ∧
      t.part.ladder.faultHold = s.part.ladder.faultHold ∧ t.part.hasCause .fault = true ∧
      t.part.hasCause .ladder = s.part.hasCause .ladder ∧ t.part.faults.counters = s.part.faults.counters ∧
      (s.part.hasCause .fault = false →
        t.part.faults.capture.code = 6 ∧
        (t.part.faults.capture.detail.extractLsb' 0 4).toNat = s.part.ladder.state.code ∧
        (t.part.faults.capture.detail.extractLsb' 4 4).toNat = r.code)) ∧
  (∀ (s : State) (r : Request) (nudge : Bool), s.takesControl →
    (s.part.ladder.state = .held ∧ s.part.heldQuiet = true ∧ nudge = false ∧ r = .hold ∨
     s.part.ladder.state = .resting ∧ r = .rest) →
    ∃ t, exec (requestCommand r nudge) s = .next t ∧
      t.part.ladder.state = s.part.ladder.state ∧ t.part.ladder.pending = none ∧
      t.part.faults.cause = s.part.faults.cause ∧ t.part.faults.capture = s.part.faults.capture ∧
      t.part.faults.counters = s.part.faults.counters ∧ t.part.frames = s.part.frames)

/-- Where requests wait (R147): the request replaces whatever the slot held, and the ladder stays. In HELD a NUDGE in the same write
finds work first, so that the request waits (R175). The conditions on start-up and on service leave out only states in which the wait
of one of them is over at the write: start-up at its commit with the check ended, and a service that waits. -/
def Obligations.RequestKeptPending : Prop :=
  ∀ (s : State) (r : Request) (nudge : Bool), s.takesControl →
    (s.part.ladder.state = .run ∨ s.part.ladder.state = .rousing ∨ s.part.ladder.state = .settling ∨
     s.part.ladder.state = .starting ∧
       (∀ u, s.part.ladder.startup = some u → ¬ (u.pos = .commit ∧ s.part.loader.check = none)) ∨
     s.part.ladder.state = .heldService ∧ s.part.ladder.serviceWait = false ∧ s.part.ladder.serviceRead = false ∨
     s.part.ladder.state = .held ∧ (s.part.heldQuiet = false ∧ nudge = false ∨ nudge = true)) →
    ∃ t, exec (requestCommand r nudge) s = .next t ∧
      t.part.ladder.pending = some r ∧ t.part.ladder.state = s.part.ladder.state ∧
      t.part.faults.capture = s.part.faults.capture ∧ t.mem = s.mem ∧ t.port = s.port

/-- A RUN request taken in HELD, as it is written or out of the pending slot once the held line is quiet (R151, R44, R29). With the fault
hold clear the state word is written with RUN, RUN is entered, CAUSE.LADDER set, the cycle timer started for one period and the first
cycle started, and no frame is given; under the fault hold the request is kept pending (R158). -/
def Obligations.RunTakenInHeld : Prop :=
  ∀ (s : State) (c : Instr), s.takesControl → s.part.ladder.state = .held → s.part.heldQuiet = true →
    c = .requestRun false ∨ c = .heldLineQuiet ∧ s.part.ladder.pending = some .run →
    ∃ t, exec c s = .next t ∧
      (s.part.ladder.faultHold = false →
        t.part.ladder.state = .run ∧ t.part.ladder.pending = none ∧ t.part.hasCause .ladder = true ∧
        (∃ x ∈ t.part.bus, x.source = .stateWord ∧ x.offset = 0x40 ∧
          x.write = some (stateWord .run s.part.ladder.startCount)) ∧
        t.part.frames.exchange = none ∧ t.part.frames.state = .listening ∧
        t.part.sched.state = .opening ∧ t.part.sched.cycle = s.part.sched.cycle + 1 ∧
        t.part.sched.timer = some (s.part.loader.settings.cyclePeriod * 20) ∧
        t.part.counter .cyclesStarted = s.part.counter .cyclesStarted + 1) ∧
      (s.part.ladder.faultHold = true →
        t.part.ladder.state = .held ∧ t.part.ladder.pending = some .run ∧ t.part.sched.cycle = s.part.sched.cycle ∧
        t.part.frames = s.part.frames)

/-- Clearing CAUSE.FAULT in HELD with a request pending ends the fault hold and empties the capture (R158, R162). With the held line quiet
the request is then taken: a RUN to RUN and its first cycle (R158); that a HOLD, a REST and a STILL are taken then too, as Table 9-3
judges them in HELD, is the model's inference (log 34). With the line not quiet the request stays pending. -/
def Obligations.FaultHoldEnds : Prop :=
  ∀ (s : State) (v : Word) (r : Request), s.port.resetLow = false → s.part.ladder.state = .held →
    s.part.ladder.pending = some r → s.part.hasCause .fault = true → v.getLsbD 6 = true →
    ∃ t, exec (.causeWrite v) s = .next t ∧ t.part.ladder.faultHold = false ∧
      (s.part.heldQuiet = false ∨ r ≠ .still →
        t.part.hasCause .fault = false ∧ t.part.faults.capture.valid = false) ∧
      (s.part.heldQuiet = false →
        t.part.ladder.state = .held ∧ t.part.ladder.pending = some r ∧ t.part.frames = s.part.frames) ∧
      (s.part.heldQuiet = true → r = .run →
        t.part.ladder.state = .run ∧ t.part.ladder.pending = none ∧ t.part.hasCause .ladder = true ∧
        t.part.sched.cycle = s.part.sched.cycle + 1) ∧
      (s.part.heldQuiet = true → r ≠ .run → t.part.ladder.state = .held ∧ t.part.ladder.pending = none) ∧
      (s.part.heldQuiet = true → r = .hold → t.part.frames = s.part.frames) ∧
      (s.part.heldQuiet = true → r = .rest →
        t.part.frames.exchange = some .rest ∧ t.part.frames.tx = encodeFrame .rest 0 0 []) ∧
      (s.part.heldQuiet = true → r = .still →
        t.part.hasCause .fault = true ∧ t.part.faults.capture.code = 6 ∧ t.part.faults.capture.detail = 0x0043)

/-- REST taken in HELD gives the REST frame, broadcast with no payload; its being sent enters RESTING with wake-seen clear, the state word
written, CAUSE.LADDER set and the receiver sensing, whatever a NUDGE or an ALERT has started meanwhile (R155). A snapshot in progress is
over then, and of its accesses only the word in progress goes on (R168). The other accesses on the request list stay there, and the
state word comes behind them (R170), but for the parcel unit's behind the word in progress, which leave the list. In RESTING, ROUSING,
STILL and SETTLING the parcel unit takes no trigger and writes nothing, and its entries keep their state (R129): no command changes them
nor puts a word of that unit on the request list. That what the parcel unit's accesses and a scan trigger would have done there, and what
the other blocks ask for afterwards, waits until HELD is next entered is the model's choice (log 37). -/
def Obligations.RestFromHeld : Prop :=
  let ofParcels : Access → Bool := fun x => x.source == .walk || x.source == .withdraw || x.source == .answer
  let rests : State → State → Prop := fun s t =>
    t.part.ladder.state = .resting ∧ t.part.ladder.wakeSeen = false ∧
    t.part.frames.state = .sensing ∧ t.part.frames.exchange = none ∧ t.part.hasCause .ladder = true ∧
    t.part.faults.capture = s.part.faults.capture ∧
    t.part.faults.snapshot = none ∧ t.part.faults.snapState ≠ .writing ∧
    (∀ x ∈ t.part.bus, x.source ≠ .snapshot) ∧ (∀ x ∈ t.part.parked, x ∈ s.part.parked ∨ x.source ≠ .snapshot) ∧
    (∃ first, t.part.bus =
        first ++ [{ offset := 0x40, write := some (stateWord .resting s.part.ladder.startCount), source := .stateWord }] ∧
      first.filter (·.source != .cut) =
        (s.part.bus.take 1 ++ (s.part.bus.drop 1).filter (!ofParcels ·)).filter
          (fun x => x.source != .cut && x.source != .snapshot) ∧
      (∀ x ∈ s.part.bus, x.source = .cut → x ∈ first) ∧
      (∀ y, s.part.bus.head? = some y → y.source = .snapshot → first.head? = some { y with source := .cut }) ∧
      (∀ x ∈ first, x.source = .cut →
        x ∈ s.part.bus ∨ ∃ y, s.part.bus.head? = some y ∧ y.source = .snapshot ∧ x = { y with source := .cut })) ∧
    s.part.parked ++ (s.part.bus.drop 1).filter ofParcels <+: t.part.parked ∧ t.part.parcels = s.part.parcels
  (∀ s : State, s.takesControl → s.part.ladder.state = .held → s.part.heldQuiet = true →
    ∃ t, exec (.requestRest false) s = .next t ∧ t.part.ladder.state = .held ∧ t.part.ladder.pending = none ∧
      t.part.frames.state = .sending ∧ t.part.frames.exchange = some .rest ∧
      t.part.frames.tx = encodeFrame .rest 0 0 []) ∧
  (∀ s : State, s.part.ladder.state = .held → s.part.frames.state = .guarding → s.part.frames.exchange = some .rest →
    s.part.ladder.pending = none → ∃ t, exec .restFrameSent s = .next t ∧ rests s t) ∧
  (∀ (c : Instr) (s t : State), s.part.ladder.state ∈ [.resting, .rousing, .still, .settling] →
    s.part.sched.state = .stopped → exec c s = .next t → t.part.ladder.state ∈ [.resting, .rousing, .still, .settling] →
    t.part.parcels =
      { s.part.parcels with keptEnd := t.part.parcels.keptEnd, keptTrigger := t.part.parcels.keptTrigger } ∧
    ∀ x ∈ t.part.bus, ofParcels x = true → x ∈ s.part.bus)

/-- HOLD taken in RESTING enters ROUSING with the ROUSE frame; its being sent starts the rouse timer; the timer's expiry enters HELD with
the HOLD frame (R156, R150), where the memory work that waited at rest goes on: the model's choice (log 37). So a scan trigger kept at
rest is taken there, and the parcel unit acts there on the access that was in progress as RESTING was entered: an answer-number write frees
its entry, a taken number's write creates one. That a HOLD gives up a STILL whose state word is still being written is the model's
inference (log 12). -/
def Obligations.HoldFromResting : Prop :=
  (∀ (s : State) (nudge : Bool), s.takesControl → s.part.ladder.state = .resting →
    ∃ t, exec (.requestHold nudge) s = .next t ∧ t.part.ladder.state = .rousing ∧ t.part.ladder.pending = none ∧
      t.part.frames.state = .sending ∧ t.part.frames.tx = encodeFrame .rouse 0 0 []) ∧
  (∀ s : State, s.part.ladder.state = .rousing → s.part.frames.state = .guarding → s.part.frames.exchange = some .rouse →
    ∃ t, exec .rouseFrameSent s = .next t ∧ t.part.ladder.state = .rousing ∧
      t.part.ladder.rouse = some s.part.loader.settings.rouseTime ∧ t.part.frames.state = .listening) ∧
  (∀ s : State, s.part.ladder.state = .rousing → s.part.ladder.rouse.isSome = true →
    ∃ t, exec .rouseTimerExpiry s = .next t ∧ t.part.ladder.state = .held ∧ t.part.ladder.rouse = none ∧
      t.part.ladder.pending = s.part.ladder.pending ∧ t.part.ladder.holdSent = false ∧
      t.part.frames.state = .sending ∧ t.part.frames.tx = encodeFrame .hold 0 0 [] ∧
      t.part.parked = [] ∧ (∀ x, x ∈ s.part.bus ∨ x ∈ s.part.parked → x ∈ t.part.bus) ∧
      t.part.parcels.keptEnd = none ∧ t.part.parcels.keptTrigger = false ∧
      (s.part.parcels.keptEnd = none → s.part.parcels.keptTrigger = true → t.part.parcels.walk ≠ .idle ∧
        (s.part.parcels.walk = .idle →
          t.part.parcels.walk = .total ∧ t.part.asks { offset := 0x10, write := none, source := .walk })) ∧
      (∀ word last slot e rest, s.part.parcels.keptEnd = some (.answer (some word)) →
        s.part.parcels.answering = some (.writing [last]) → s.part.parcels.answers = .entry slot :: rest →
        s.part.parcelOf slot = some e → t.part.parcelOf slot = none ∧ t.part.hasCause .parcel = true) ∧
      (∀ word slot left h request, s.part.parcels.keptEnd = some (.walk (some word)) →
        s.part.parcels.walk = .taking slot left h request →
        t.part.counter .parcelsTaken = s.part.counter .parcelsTaken + 1 ∧
        ∃ e ∈ t.part.parcels.queue, e.slot = slot ∧ e.ask = h.ask ∧ e.node = h.node))

/-- STILL taken in RESTING writes the state word with STILL, and the end of that write enters STILL: frame engine OFF, line clock stopped,
CAUSE.LADDER set (R157, R145). That the ladder stays in RESTING until the write has ended is log 12. -/
def Obligations.StillFromResting : Prop :=
  (∀ (s : State) (nudge : Bool), s.takesControl → s.part.ladder.state = .resting →
    ∃ t, exec (.requestStill nudge) s = .next t ∧ t.part.ladder.state = .resting ∧ t.part.ladder.stilling = true ∧
      t.part.ladder.pending = none ∧
      ∃ x ∈ t.part.bus, x.source = .stateWord ∧ x.offset = 0x40 ∧
        x.write = some (stateWord .still s.part.ladder.startCount)) ∧
  (∀ (s : State) (x : Access) (rest : List Access) (w : Word) (dt : Nat), s.memoryOk →
    s.part.ladder.state = .resting → s.part.ladder.stilling = true → s.part.ladder.softPending = false →
    s.part.bus = x :: rest → x.source = .stateWord → x.write = some w → (∀ y ∈ rest, y.source ≠ .stateWord) →
    ∃ t, exec (.memoryAccessComplete none dt) s = .next t ∧ t.part.ladder.state = .still ∧
      t.part.ladder.stilling = false ∧ t.part.ladder.lineClock = false ∧ t.part.frames.state = .off ∧
      t.part.ladder.pending = s.part.ladder.pending ∧
      t.part.hasCause .ladder = true ∧ t.mem.readWord (busAddress s.port.area x.offset) = w)

/-- REST taken in STILL enters SETTLING: the line clock restarted, the settle timer at 2 ms. Its expiry enters RESTING as in R155, with the
state word written, from where a pending HOLD goes straight on to ROUSING (R157). With a soft reset waiting the expiry resets the part
(R159). -/
def Obligations.RestFromStill : Prop :=
  (∀ (s : State) (nudge : Bool), s.takesControl → s.part.ladder.state = .still →
    ∃ t, exec (.requestRest nudge) s = .next t ∧ t.part.ladder.state = .settling ∧ t.part.ladder.pending = none ∧
      t.part.ladder.lineClock = true ∧ t.part.ladder.settle = some 2) ∧
  (∀ s : State, s.part.ladder.state = .settling → s.part.ladder.settle.isSome = true →
    s.part.ladder.resetWaiting = false →
    ∃ t, exec .settleTimerExpiry s = .next t ∧ t.part.ladder.settle = none ∧ t.part.ladder.wakeSeen = false ∧
      t.part.hasCause .ladder = true ∧
      (∃ x ∈ t.part.bus, x.source = .stateWord ∧ x.offset = 0x40 ∧
        x.write = some (stateWord .resting s.part.ladder.startCount)) ∧
      (s.part.ladder.pending = none → t.part.ladder.state = .resting ∧ t.part.frames.state = .sensing) ∧
      (s.part.ladder.pending = some .hold →
        t.part.ladder.state = .rousing ∧ t.part.ladder.pending = none ∧ t.part.frames.tx = encodeFrame .rouse 0 0 [] ∧
        ∃ x ∈ t.part.bus, x.source = .stateWord ∧ x.offset = 0x40 ∧
          x.write = some (stateWord .rousing s.part.ladder.startCount))) ∧
  (∀ s : State, s.part.ladder.settle.isSome = true → s.part.ladder.resetWaiting = true →
    ∃ t, exec .settleTimerExpiry s = .next t ∧ t.part = { Part.reset with arb := s.part.arb } ∧
      t.port = { s.port with view := false } ∧ t.mem = s.mem)

/-- The HOLD frame has been sent: CAUSE.LADDER is set if the request taken named HELD, and held-line service may follow (R150, R152). -/
def Obligations.HoldFrameSentInHeld : Prop :=
  ∀ s : State, s.part.ladder.state = .held → s.part.frames.state = .guarding → s.part.frames.exchange = some .hold →
    s.part.ladder.pending = none →
    ∃ t, exec .holdFrameSent s = .next t ∧ t.part.ladder.state = .held ∧ t.part.ladder.holdSent = true ∧
      t.part.frames.state = .listening ∧
      (s.part.ladder.heldNamed = true → t.part.hasCause .ladder = true) ∧
      (s.part.ladder.heldNamed = false → t.part.hasCause .ladder = s.part.hasCause .ladder)

/-- The held line has become quiet: the pending request is taken (R147), a RUN to RUN unless the fault hold keeps it (R151, R158), a REST
to its frame (R155), a HOLD to nothing and a STILL to LADDER-SKIP (Table 9-3, R148). -/
def Obligations.PendingTakenWhenQuiet : Prop :=
  ∀ s : State, s.part.ladder.state = .held → s.part.heldQuiet = true →
    (s.part.ladder.pending = some .run → s.part.ladder.faultHold = false →
      ∃ t, exec .heldLineQuiet s = .next t ∧ t.part.ladder.state = .run ∧ t.part.ladder.pending = none ∧
        t.part.sched.cycle = s.part.sched.cycle + 1 ∧ t.part.sched.state = .opening) ∧
    (s.part.ladder.pending = some .run → s.part.ladder.faultHold = true →
      ∃ t, exec .heldLineQuiet s = .next t ∧ t.part.ladder.state = .held ∧ t.part.ladder.pending = some .run) ∧
    (s.part.ladder.pending = some .rest →
      ∃ t, exec .heldLineQuiet s = .next t ∧ t.part.ladder.state = .held ∧ t.part.ladder.pending = none ∧
        t.part.frames.tx = encodeFrame .rest 0 0 []) ∧
    (s.part.ladder.pending = some .hold →
      ∃ t, exec .heldLineQuiet s = .next t ∧ t.part.ladder.state = .held ∧ t.part.ladder.pending = none ∧
        t.part.frames = s.part.frames ∧ t.part.faults.capture = s.part.faults.capture) ∧
    (s.part.ladder.pending = some .still →
      ∃ t, exec .heldLineQuiet s = .next t ∧ t.part.ladder.state = .held ∧ t.part.ladder.pending = none ∧
        t.part.frames = s.part.frames ∧ t.part.hasCause .fault = true ∧
        (s.part.hasCause .fault = false →
          t.part.faults.capture.code = 6 ∧ t.part.faults.capture.detail = 0x0043))

/-- NUDGE by the ladder state (R154): in RUN the events-taken word is read and a scan triggered; in HELD the commit check and the read are
made, and with the check's end, where it finds no new generation, the owed status records are written and a scan triggered (R21); in
HELD-SERVICE a check is owed, a scan triggered and the read made, and a service that waits may find its wait over, whose end makes the
check; elsewhere it has no effect. The check of a NUDGE in HELD that ends where the line rests by then triggers no scan there (R129); that
the trigger is kept until HELD is next entered is the model's choice (log 37). -/
def Obligations.NudgeByLadderState : Prop :=
  (∀ s : State, s.takesControl → ∃ t, exec .nudge s = .next t ∧
    (s.part.ladder.state = .run → t.part.events.takenRead.isSome = true ∧ t.part.parcels.walk ≠ .idle) ∧
    (s.part.ladder.state = .held →
      t.part.events.takenRead.isSome = true ∧ t.part.loader.check.isSome = true ∧
      (s.part.loader.check.isSome = true → t.part.loader.checkOwed = true)) ∧
    (s.part.ladder.state = .heldService →
      t.part.events.takenRead.isSome = true ∧ t.part.parcels.walk ≠ .idle ∧
      (t.part.ladder.state = .heldService ∧ t.part.loader.checkOwed = true ∨
       t.part.ladder.state = .held ∧ t.part.loader.check.isSome = true) ∧
      (s.part.ladder.serviceWait = false → s.part.ladder.serviceRead = false → t.part.ladder.state = .heldService)) ∧
    (s.part.ladder.state.worksMemory = false → t = s)) ∧
  (∀ (s : State) (x : Access) (c : Check) (host : Option Word) (dt : Nat) (g : Word), s.current = some x → x.source = .loader →
    s.part.ladder.softPending = false → s.part.ladder.state = .held → s.part.loader.check = some c → c.origin = .nudge →
    c.pos = .readGeneration → g = x.value s.port.area (x.memAfter s.port.area host s.mem) →
    g = s.part.loader.accepted ∨ s.part.loader.refused = some g →
    ∃ t, exec (.memoryAccessComplete host dt) s = .next t ∧ t.part.ladder.state = .held ∧
      t.part.loader.refused = (if g = s.part.loader.accepted then none else some g) ∧ t.part.parcels.walk ≠ .idle ∧
      ∀ i, (s.part.node i).statusOwed = true → ∃ w ∈ t.part.table.writes, w.node = i) ∧
  (∀ (s : State) (x : Access) (c : Check) (host : Option Word) (dt : Nat) (g : Word), s.current = some x → x.source = .loader →
    s.part.ladder.softPending = false → s.part.ladder.state = .resting ∨ s.part.ladder.state = .rousing →
    s.part.loader.check = some c → c.origin = .nudge → c.pos = .readGeneration →
    g = x.value s.port.area (x.memAfter s.port.area host s.mem) →
    g = s.part.loader.accepted ∨ s.part.loader.refused = some g →
    ∃ t, exec (.memoryAccessComplete host dt) s = .next t ∧ t.part.ladder.state = s.part.ladder.state ∧
      t.part.loader.refused = (if g = s.part.loader.accepted then none else some g) ∧ t.part.parcels = { s.part.parcels with keptTrigger := true })

/-- HELD-SERVICE is entered where R152 allows it, and the FETCH of the queue's first node without an intake under way is given with a place
claimed for it (R97, R96, R98). That each entry begins a new round, in which a node's fetched flag is clear, is the model's inference
(log 24), and that service is not entered during a commit check is the model's (log 18). -/
def Obligations.ServiceEntered : Prop :=
  ∀ s : State, s.part.serviceAllowed = true →
    ∃ (t : State) (i : NodeIx), exec .heldServiceEntry s = .next t ∧
      s.part.events.queue.find? (fun j => !(s.part.nodeEvents j).intake) = some i ∧
      t.part.ladder.state = .heldService ∧ t.part.frames.state = .sending ∧
      t.part.frames.exchange = some (.fetch i (s.part.ackOf i)) ∧
      t.part.events.claimed = s.part.events.claimed + 1 ∧ t.part.events.queue = s.part.events.queue

/-- An ALERT in the held line, HELD or HELD-SERVICE (R153, R15, R90, R94): it is counted and the events-taken word read. By the state of the
enabled record with its address: LIVE or SUSPECT with events enabled, the latch is set and the node queued, or with the latch already
set the indication is counted as redundant; LOST goes to PROBING with miss count 0 and its countdown stopped; PROBING and MISFIT stay.
From no enabled record it is a sighting, which the stray set takes as R90 says. -/
def Obligations.AlertInHeldLine : Prop :=
  ∀ (s : State) (a : Byte), s.part.ladder.state = .held ∨ s.part.ladder.state = .heldService →
    s.part.frames.unsolicited = true → 1 ≤ a.toNat → a.toNat ≤ 250 →
    ∃ t, exec (.alert a) s = .next t ∧ t.part.ladder.state.isHeld = true ∧
      (s.part.ladder.state = .held → t.part.ladder.state = .held) ∧
      t.part.counter .alertsReceived = s.part.counter .alertsReceived + 1 ∧
      t.part.counter .strayFrames = s.part.counter .strayFrames ∧ t.part.events.takenRead.isSome = true ∧
      (∀ i, s.part.enabledAt a = some i →
        t.part.windows.strays = s.part.windows.strays ∧
        ((s.part.node i).state ≠ .lost → t.part.node i = s.part.node i) ∧
        ((s.part.node i).state.inService = true → (s.part.node i).applied.eventsEnabled = true →
          (s.part.nodeEvents i).latch = false →
          t.part.events.queue = s.part.events.queue.filter (· != i) ++ [i] ∧ (t.part.nodeEvents i).latch = true ∧
          (t.part.nodeEvents i).origin = .alert) ∧
        ((s.part.node i).state.inService = true → (s.part.node i).applied.eventsEnabled = true →
          (s.part.nodeEvents i).latch = true →
          t.part.events.queue = s.part.events.queue ∧
          t.part.counter .redundantIndications = s.part.counter .redundantIndications + 1) ∧
        ((s.part.node i).state.inService = false ∨ (s.part.node i).applied.eventsEnabled = false →
          t.part.events.queue = s.part.events.queue) ∧
        ((s.part.node i).state = .lost →
          (t.part.node i).state = .probing ∧ (t.part.node i).missCount = 0 ∧ (t.part.node i).countdown = none ∧
          (t.part.node i).changeCount = (s.part.node i).changeCount + 1)) ∧
      (s.part.enabledAt a = none →
        sighted s.part.windows.strays a .alert 0 t.part.windows.strays ∧ t.part.table.records = s.part.table.records)

/-- What arrives unsolicited (R61): each frame, and each stretch of carrier that no intact frame makes out, is dropped and counted in RUN,
HELD, HELD-SERVICE and ROUSING, but for a good ALERT in the held line, which is taken. That an intact frame with carrier right behind it
counts by itself, and that carrier apart from it, is the model's choice (log 51), and so is that the rest of a stretch which a clash has
had counted counts no more (log 59). Where the frame engine already waits in SENDING for a quiet line, the rest of a late reply up to its
first gap is counted alike, the model's inference (log 49). -/
def Obligations.StrayFrameCounted : Prop :=
  let fresh : State → List LineItem → List LineItem := fun s items =>
    if s.part.frames.counted then items.dropWhile (· != .gap) else items
  let heard : State → List LineItem → FrameEngine := fun s items =>
    { s.part.frames with
      late := false, counted := s.part.frames.counted && (fresh s items).isEmpty || damagedArrivesOn (fresh s items) }
  (∀ (s : State) (items : List LineItem), s.part.frames.unsolicited = true →
    (∀ f, some f ∈ framesHeard (fresh s items) → f.isGoodAlert = true →
      s.part.ladder.state ≠ .held ∧ s.part.ladder.state ≠ .heldService) →
    ∃ t, exec (.unsolicitedFrame items) s = .next t ∧
      t.part.counter .strayFrames =
        (if s.part.ladder.state ∈ [.run, .held, .heldService, .rousing] then
          s.part.counter .strayFrames + BitVec.ofNat 32 (framesHeard (fresh s items)).length
         else s.part.counter .strayFrames) ∧
      t.part.table.records = s.part.table.records ∧ t.part.windows = s.part.windows ∧
      t.part.events.queue = s.part.events.queue ∧ t.mem = s.mem ∧
      (s.part.ladder.state ≠ .heldService → s.part.ladder.state ≠ .starting →
        t.part.ladder.state = s.part.ladder.state ∧ t.part.frames = heard s items)) ∧
  (∀ (s : State) (items : List LineItem), s.part.frames.unsolicited = true →
    s.part.ladder.state = .held ∨ s.part.ladder.state = .heldService →
    ∃ t, exec (.unsolicitedFrame items) s = .next t ∧
      t.part.counter .alertsReceived = s.part.counter .alertsReceived +
        BitVec.ofNat 32 ((framesHeard (fresh s items)).countP fun f => f.any Frame.isGoodAlert) ∧
      t.part.counter .strayFrames = s.part.counter .strayFrames +
        BitVec.ofNat 32 ((framesHeard (fresh s items)).countP fun f => !f.any Frame.isGoodAlert)) ∧
  (∀ (s : State) (items : List LineItem), s.part.ladder.state = .run → s.part.frames.state = .sending →
    s.part.frames.onLine = false → s.part.frames.late = true →
    ∃ t, exec (.unsolicitedFrame items) s = .next t ∧
      t.part.counter .strayFrames = s.part.counter .strayFrames +
        BitVec.ofNat 32 (framesHeard (fresh s (items.takeWhile (· != .gap)))).length ∧
      t.part.frames = heard s (items.takeWhile (· != .gap)))

/-- An onset of carrier in RESTING sets wake-seen and CAUSE.WAKE with wake-seen clear, and has no effect with it set (R155). -/
def Obligations.LineActivityInResting : Prop :=
  ∀ s : State, s.part.frames.state = .sensing →
    (s.part.ladder.wakeSeen = false →
      exec .lineActivity s = .next { s with part := { s.part with
        ladder := { s.part.ladder with wakeSeen := true },
        faults := { s.part.faults with cause := s.part.faults.cause ||| 0x20 } } }) ∧
    (s.part.ladder.wakeSeen = true → exec .lineActivity s = .next s)

/-- Start-up (R149). A RUN or HOLD request in IDLE takes the working units to their reset values; with AREA nonzero and a multiple of 4096
it enters STARTING at its first read, otherwise start-up fails at once with AREA-LAYOUT "base". An error response on any of its accesses
fails it. STARTUP_STEP_COMPLETE ends the access it stands at: the version word must be 1; the continuation reads are kept, from each status
record the line address, the change count and the last accepted number with its valid flag (R25, R80, R110); the last of them begins the
commit check. As that accepts the directory, each enabled entry takes its last accepted from its status record, or in its place from the
newest event record, and the status records of all 48 are to be written (R110, R25, R144). The check's end by its accepted generation word
begins the sweep with the ask number of slot 0; a refused directory ends start-up with CONFIG-REFUSED, in IDLE (R141, R144). The sweep
answers a slot whose taken number equals its ask number and not its answer number with INTERRUPTED (R131); its end raises the start-up count
and writes the state word; and the end of that write sets take owed and scan owed (R68, R131) and enters RUN for a pending RUN, HELD for any
other, with REST and STILL kept pending (R150). Which words of a record start-up reads, and one access after the other, is the model's
inference (logs 13 and 5). -/
def Obligations.StartupCompletes : Prop :=
  (∀ (s : State) (r : Request) (nudge : Bool), s.takesControl → s.part.ladder.state = .idle → r = .run ∨ r = .hold →
    s.part.sched.state = .stopped →
    ∃ t, exec (requestCommand r nudge) s = .next t ∧
      t.port = s.port ∧ t.mem = s.mem ∧ t.part.table = NodeTable.reset ∧ t.part.images = ImageUnit.reset ∧
      t.part.windows = WindowUnit.reset ∧ t.part.events = EventUnit.reset ∧ t.part.parcels = ParcelUnit.reset ∧
      t.part.loader = Loader.reset ∧ t.part.sched.cycle = s.part.sched.cycle ∧
      t.part.faults.counters = s.part.faults.counters ∧
      (s.port.area ≠ 0 ∧ s.port.area.toNat % 4096 = 0 →
        t.part.ladder.state = .starting ∧ t.part.ladder.pending = some r ∧ t.part.ladder.startup = some Startup.first ∧
        t.part.faults.capture = s.part.faults.capture ∧ t.part.faults.cause = s.part.faults.cause ∧
        { offset := 0x00, write := none, source := .startup } ∈ t.part.bus) ∧
      (¬ (s.port.area ≠ 0 ∧ s.port.area.toNat % 4096 = 0) →
        t.part.ladder.state = .idle ∧ t.part.ladder.pending = none ∧ t.part.hasCause .fault = true ∧
        t.part.ladder.faultHold = s.part.ladder.faultHold ∧
        (s.part.hasCause .fault = false → t.part.faults.capture.code = 2 ∧ t.part.faults.capture.detail = 1))) ∧
  (∀ (s : State) (x : Access) (dt : Nat), s.part.ladder.state = .starting → s.part.bus.head? = some x →
    s.part.ladder.softPending = false →
    ∃ t, exec (.memoryErrorResponse dt) s = .next t ∧ t.part.ladder.state = .idle ∧ t.part.ladder.pending = none ∧
      t.part.ladder.startup = none ∧ t.part.ladder.faultHold = s.part.ladder.faultHold ∧ t.mem = s.mem) ∧
  (∀ (s : State) (x : Access) (u : Startup) (host : Option Word) (w : Word), s.part.ladder.state = .starting →
    s.part.bus.head? = some x → s.part.ladder.softPending = false → x.source = .startup →
    s.part.ladder.startup = some u → w = x.value s.port.area (x.memAfter s.port.area host s.mem) →
    ∃ t, exec (.startupStepComplete host) s = .next t ∧
      (u.pos ≠ .finalWord → ¬ (u.pos = .stateWord ∧ u.version ≠ 1) → u.pos ≠ .commit →
        t.part.ladder.state = .starting ∧ t.part.ladder.pending = s.part.ladder.pending) ∧
      match u.pos with
      | .version =>
        t.part.ladder.startup = some { u with version := w, pos := .stateWord } ∧
        { offset := 0x40, write := none, source := .startup } ∈ t.part.bus
      | .stateWord =>
        (u.version = 1 → t.part.ladder.startup = some { u with pos := .inUse } ∧
          t.part.ladder.startCount = w.extractLsb' 16 16) ∧
        (u.version ≠ 1 → t.part.ladder.state = .idle ∧ t.part.ladder.pending = none ∧ t.part.hasCause .fault = true ∧
          (s.part.hasCause .fault = false → t.part.faults.capture.code = 2 ∧ t.part.faults.capture.detail = 2))
      | .inUse =>
        t.part.ladder.startup = some { u with pos := .inputPublish } ∧
        t.part.images = { s.part.images with countTaken := w.extractLsb' 8 24 }
      | .inputPublish =>
        t.part.ladder.startup = some { u with pos := .eventsWritten } ∧
        t.part.images.publishCount = w.extractLsb' 8 24 ∧
        (∀ b : Bank, t.part.images.lastPublished = some b ↔ (w.extractLsb' 0 8).toNat = b.val)
      | .eventsWritten =>
        t.part.ladder.startup = some { u with pos := if w = 0 then .status 0 0 else .newest 0 } ∧
        t.part.events.written = w ∧ t.part.events.taken = w - 64
      | .newest k =>
        t.part.ladder.startup = some { u with
          newest := if k = 0 then some w else u.newest, pos := if k.val < 7 then .newest (k + 1) else .status 0 0 }
      | .status i k =>
        (∃ u', t.part.ladder.startup = some u' ∧ u'.version = u.version ∧ u'.newest = u.newest ∧ u'.swept = u.swept ∧
          ∀ j, u'.kept.get j =
            (if j ≠ i then u.kept.get j
             else if k = 0 then { u.kept.get i with address := w.extractLsb' 0 8 }
             else if k = 3 then { u.kept.get i with accepted := w.extractLsb' 0 8, valid := w.getLsbD 8 }
             else u.kept.get i)) ∧
        (k = 1 → (t.part.node i).changeCount = w.extractLsb' 0 16) ∧
        (k.val < 5 → t.part.ladder.startup.map Startup.pos = some (.status i (k + 1))) ∧
        (k.val = 5 → i.val < 47 → t.part.ladder.startup.map Startup.pos = some (.status (i + 1) 0)) ∧
        (k.val = 5 → i.val = 47 → t.part.ladder.startup.map Startup.pos = some .commit ∧ t.part.loader.check.isSome = true)
      | .commit =>
        (s.part.loader.check.isSome = true → t.part.ladder.state = .starting ∧ t.part.ladder.startup = some u ∧
          t.part.ladder.pending = s.part.ladder.pending) ∧
        (s.part.loader.check = none → s.part.loader.verdict.code = .accepted →
          t.part.ladder.state = .starting ∧ t.part.ladder.startup = some { u with pos := .sweepAsk 0 }) ∧
        (s.part.loader.check = none → s.part.loader.verdict.code ≠ .accepted →
          t.part.ladder.state = .idle ∧ t.part.ladder.pending = none)
      | .sweepAsk slot => t.part.ladder.startup = some { u with pos := .sweepTaken slot (w.extractLsb' 0 16) }
      | .sweepTaken slot ask => t.part.ladder.startup = some { u with pos := .sweepAnswer slot ask (w.extractLsb' 0 16) }
      | .sweepAnswer slot ask taken =>
        (taken = ask ∧ w.extractLsb' 0 16 ≠ taken →
          t.part.ladder.startup = some { u with pos := .sweepOutcome slot taken } ∧
          { offset := 0x2000 + 512 * slot.val + 0x108, write := some 0x00000009, source := .startup } ∈ t.part.bus) ∧
        (¬ (taken = ask ∧ w.extractLsb' 0 16 ≠ taken) → u.sweepPasses slot s t)
      | .sweepOutcome slot taken =>
        t.part.ladder.startup = some { u with pos := .sweepNumber slot taken } ∧
        { offset := 0x2000 + 512 * slot.val + 0x104, write := some (taken.setWidth 32), source := .startup } ∈ t.part.bus
      | .sweepNumber slot _ =>
        t.part.counter .parcelsOtherwise = s.part.counter .parcelsOtherwise + 1 ∧ { u with swept := true }.sweepPasses slot s t
      | .finalWord =>
        t.part.ladder.startup = none ∧ t.part.images.takeOwed = true ∧ t.part.parcels.scanOwed = true ∧
        (s.part.ladder.pending = some .run → t.part.ladder.state = .run ∧ t.part.ladder.pending = none ∧
          t.part.sched.cycle = s.part.sched.cycle + 1 ∧ t.part.hasCause .ladder = true) ∧
        (s.part.ladder.pending = some .hold → t.part.ladder.state = .held ∧ t.part.ladder.pending = none ∧
          t.part.ladder.heldNamed = true ∧ t.part.frames.tx = encodeFrame .hold 0 0 []) ∧
        (s.part.ladder.pending ≠ some .run → s.part.ladder.pending ≠ some .hold →
          t.part.ladder.state = .held ∧ t.part.ladder.pending = s.part.ladder.pending ∧
          t.part.ladder.heldNamed = false ∧ t.part.frames.tx = encodeFrame .hold 0 0 [])) ∧
  (∀ (s : State) (x : Access) (u : Startup) (c : Check) (d : Directory) (host : Option Word) (dt : Nat),
    s.part.ladder.state = .starting → s.part.bus.head? = some x → s.part.ladder.softPending = false → x.source = .loader →
    s.part.ladder.startup = some u → s.part.loader.check = some c → c.origin = .startup → c.pos = .rereadGeneration →
    x.value s.port.area (x.memAfter s.port.area host s.mem) = c.generation → d = directoryOf c.words.reverse →
    (judge d none).code = .accepted →
    ∀ command ∈ [Instr.startupStepComplete host, .memoryAccessComplete host dt], ∃ t, exec command s = .next t ∧
      t.part.ladder.state = .starting ∧ t.part.ladder.startup = some u ∧
      (∀ i, { node := i, cause := false } ∈ t.part.table.writes) ∧
      ∀ i, (d.entries.get i).applied.enabled = true → (s.part.node i).applied.enabled = false →
        let address := (d.entries.get i).applied.address
        let fromRecord := fun r : Word => u.newest = some r ∧ (r.extractLsb' 0 8).toNat ≤ 2 ∧ r.extractLsb' 8 8 = address
        let fromStatus := (u.kept.get i).address = address ∧ (u.kept.get i).valid = true
        (t.part.node i).state = .probing ∧ (t.part.nodeEvents i).ackOwed = false ∧ (t.part.nodeEvents i).latch = false ∧
        i ∉ t.part.events.queue ∧
        (∀ r, fromRecord r → (t.part.nodeEvents i).valid = true ∧ (t.part.nodeEvents i).accepted = r.extractLsb' 16 8) ∧
        ((∀ r, ¬ fromRecord r) → fromStatus →
          (t.part.nodeEvents i).valid = true ∧ (t.part.nodeEvents i).accepted = (u.kept.get i).accepted) ∧
        ((∀ r, ¬ fromRecord r) → ¬ fromStatus → (t.part.nodeEvents i).valid = false)) ∧
  (∀ (s : State) (x : Access) (u : Startup) (c : Check) (host : Option Word) (dt : Nat),
    s.part.ladder.state = .starting → s.part.bus.head? = some x → s.part.ladder.softPending = false → x.source = .loader →
    s.part.ladder.startup = some u → u.pos = .commit → s.part.loader.check = some c → c.origin = .startup →
    c.pos = .writeVerdict ∨ c.pos = .writeGeneration ∧ s.part.loader.verdict.code = .accepted →
    ∀ command ∈ [Instr.startupStepComplete host, .memoryAccessComplete host dt], ∃ t, exec command s = .next t ∧
      (c.pos = .writeVerdict → s.part.loader.verdict.code = .accepted →
        t.part.ladder.state = .starting ∧ t.part.ladder.startup = some u ∧
        { offset := 0x54, write := some s.part.loader.accepted, source := .loader } ∈ t.part.bus) ∧
      (c.pos = .writeGeneration →
        t.part.ladder.state = .starting ∧ t.part.ladder.pending = s.part.ladder.pending ∧ t.part.loader.check = none ∧
        t.part.hasCause .commit = true ∧ t.part.ladder.startup = some { u with pos := .sweepAsk 0 } ∧
        { offset := 0x2000, write := none, source := .startup } ∈ t.part.bus) ∧
      (c.pos = .writeVerdict → s.part.loader.verdict.code ≠ .accepted →
        t.part.ladder.state = .idle ∧ t.part.ladder.pending = none ∧ t.part.ladder.startup = none ∧
        t.part.ladder.faultHold = s.part.ladder.faultHold ∧ t.part.hasCause .fault = true ∧
        t.part.hasCause .commit = s.part.hasCause .commit ∧
        (s.part.hasCause .fault = false → t.part.faults.capture.code = 3 ∧
          t.part.faults.capture.detail = s.part.loader.verdict.entry ++ s.part.loader.verdict.code.code)))

/-! ## The cycle -/

/-- An expiry of the cycle timer in RUN (R28, R29, R30): the timer runs on for one period; in STOPPED a cycle starts; in a cycle the first
expiry sets the latch, is counted and reported as CYCLE-OVERRUN, and a further one is counted and dropped. -/
def Obligations.CycleTimerExpires : Prop :=
  ∀ s : State, s.part.ladder.state = .run → s.part.sched.timer.isSome = true →
    ∃ t, exec .cycleTimerExpiry s = .next t ∧
      t.part.sched.timer = some (s.part.loader.settings.cyclePeriod * 20) ∧ t.part.ladder.state = .run ∧
      t.part.ladder.faultHold = s.part.ladder.faultHold ∧
      (s.part.sched.state = .stopped →
        t.part.sched.state = .opening ∧ t.part.sched.cycle = s.part.sched.cycle + 1 ∧
        t.part.sched.overrun = s.part.sched.overrun ∧
        t.part.counter .cyclesStarted = s.part.counter .cyclesStarted + 1) ∧
      (s.part.sched.state ≠ .stopped →
        t.part.sched.state = s.part.sched.state ∧ t.part.sched.cycle = s.part.sched.cycle ∧ t.part.sched.overrun = true) ∧
      (s.part.sched.state ≠ .stopped → s.part.sched.overrun = false →
        t.part.counter .cycleOverruns = s.part.counter .cycleOverruns + 1 ∧ t.part.hasCause .fault = true ∧
        (s.part.hasCause .fault = false → t.part.faults.capture.code = 7)) ∧
      (s.part.sched.state ≠ .stopped → s.part.sched.overrun = true →
        t.part.counter .expiriesSkipped = s.part.counter .expiriesSkipped + 1 ∧
        t.part.faults.capture = s.part.faults.capture)

/-- R32: a node is due when the cycle number modulo its period class equals its phase; the pattern runs on unbroken where the cycle number
wraps; and the rule decides line work only for records in LIVE, SUSPECT and PROBING. -/
def Obligations.DuePattern : Prop :=
  (∀ (e : NodeEntry) (cycle : Word), e.due cycle = true ↔ cycle.toNat % e.periodClass = e.phase) ∧
  (∀ (e : NodeEntry) (cycle : Word), e.periodClass = 1 ∨ e.periodClass = 2 ∨ e.periodClass = 4 ∨ e.periodClass = 8 →
    e.due (cycle + BitVec.ofNat 32 e.periodClass) = e.due cycle) ∧
  (∀ (p : Part) (i : NodeIx),
    (.poll i ∈ p.enterPolling.sched.pollList →
      ((p.node i).state = .live ∨ (p.node i).state = .suspect) ∧ (p.node i).applied.due p.sched.cycle = true) ∧
    (.probe i ∈ p.enterPolling.sched.pollList →
      (p.node i).state = .probing ∧ (p.node i).applied.due p.sched.cycle = true))

/-- The poll list and the probe rotation (R33), and OPEN_READY, which builds the list and begins its first entry (R31, R34, R35, R56):
a POLL raises the node's poll total and inverts its toggle, a PROBE is counted and given as a frame. With an empty list the optional phases
begin at once, each by its fit (R36 to R39, R82, R89, R96, R118). -/
def Obligations.PollListBuilt : Prop :=
  (∀ p : Part,
    let q := p.enterPolling
    let chosen := p.probeRanking.take 2
    q.sched.state = .polling ∧
    (∀ i, i ∈ p.probeRanking ↔ (p.node i).state = .probing ∧ (p.node i).applied.due p.sched.cycle = true) ∧
    (p.probeRanking.Pairwise fun i j =>
      if p.sched.passedOver.get i = p.sched.passedOver.get j then
        (i - p.sched.probeStart).val < (j - p.sched.probeStart).val
      else p.sched.passedOver.get i = true) ∧
    (∀ i, .poll i ∈ q.sched.pollList ↔
      ((p.node i).state = .live ∨ (p.node i).state = .suspect) ∧ (p.node i).applied.due p.sched.cycle = true) ∧
    (∀ i, .probe i ∈ q.sched.pollList ↔ i ∈ chosen) ∧
    ((q.sched.pollList.map fun e => match e with | .poll i => i.val | .probe i => i.val).Pairwise (· < ·)) ∧
    (∀ i, q.sched.passedOver.get i =
      if (p.node i).state ≠ .probing then false
      else if i ∈ p.probeRanking then !decide (i ∈ chosen) else p.sched.passedOver.get i) ∧
    (∀ i, chosen.getLast? = some i → q.sched.probeStart = i + 1) ∧
    (chosen = [] → q.sched.probeStart = p.sched.probeStart)) ∧
  (∀ (s : State) (dt : Nat), s.part.ladder.state = .run → s.part.openIsReady = true →
    ∃ t, exec (.openReady dt) s = .next t ∧ t.part.sched.cycle = s.part.sched.cycle ∧
      (∀ i rest, s.part.enterPolling.sched.pollList = .poll i :: rest →
        t.part.sched.state = .polling ∧ t.part.sched.pollList = rest ∧
        (t.part.node i).pollTotal = (s.part.node i).pollTotal + 1 ∧
        t.part.frames.toggles.get i = !(s.part.frames.toggles.get i)) ∧
      (∀ i rest, s.part.enterPolling.sched.pollList = .probe i :: rest →
        t.part.sched.state = .polling ∧ t.part.sched.pollList = rest ∧
        t.part.counter .probesSent = s.part.counter .probesSent + 1 ∧
        t.part.frames.exchange = some (.probe i) ∧
        t.part.frames.tx = encodeFrame .probe 0 (s.part.node i).applied.address []) ∧
      (s.part.enterPolling.sched.pollList = [] → s.part.optionalPhasesBegin t.part dt))

/-- CLOSE_COMPLETE in RUN (R41, R42): a pending HOLD or the fault hold takes the ladder to HELD, with the timer stopped and the latch
clear; otherwise the pending request is used up, REST and STILL with LADDER-SKIP, and the latch decides between a late start and
STOPPED. -/
def Obligations.CloseCompletes : Prop :=
  ∀ (s : State) (x : Access), s.current = some x → x.source = .cycleWord → s.part.ladder.softPending = false →
    s.part.ladder.state = .run →
    ∃ t, exec .closeComplete s = .next t ∧
      (s.part.ladder.pending = some .hold ∨ s.part.ladder.faultHold = true →
        t.part.ladder.state = .held ∧ t.part.sched.state = .stopped ∧ t.part.sched.timer = none ∧
        t.part.sched.overrun = false ∧ t.part.sched.cycle = s.part.sched.cycle ∧
        t.part.frames.exchange = some .hold ∧ t.part.frames.tx = encodeFrame .hold 0 0 [] ∧
        t.part.ladder.pending =
          (if s.part.ladder.pending = some .run then some .run else none)) ∧
      (s.part.ladder.pending ≠ some .hold → s.part.ladder.faultHold = false →
        t.part.ladder.state = .run ∧ t.part.ladder.pending = none ∧ t.part.sched.overrun = false ∧
        t.part.sched.timer = s.part.sched.timer ∧
        (s.part.sched.overrun = true →
          t.part.sched.state = .opening ∧ t.part.sched.cycle = s.part.sched.cycle + 1) ∧
        (s.part.sched.overrun = false →
          t.part.sched.state = .stopped ∧ t.part.sched.cycle = s.part.sched.cycle) ∧
        (s.part.ladder.pending = some .rest ∨ s.part.ladder.pending = some .still → t.part.hasCause .fault = true ∧
          (s.part.hasCause .fault = false → t.part.faults.capture.code = 6)))

/-! ## Frames and exchanges -/

/-- FRAME_START and REQUEST_SENT (R52, R53, R60, R62): the frame given goes on the line, a WINDOW frame being counted; after its last byte
the reply timer starts with the node's effective reply timeout (R2), a window's slots begin, or one turnaround is kept.
That slot 0 begins with no frame running over is the model's choice (log 44), and that a late reply, and a stretch counted once, end with
the quiet before the frame is logs 49 and 59. -/
def Obligations.FrameSent : Prop :=
  (∀ s : State, s.part.frames.state = .sending → s.part.frames.onLine = false →
    ∃ t, exec .frameStart s = .next t ∧ t.part.frames = { s.part.frames with onLine := true, late := false, counted := false } ∧
      (s.part.frames.exchange = some .window → t.part.counter .windowsOpened = s.part.counter .windowsOpened + 1) ∧
      (s.part.frames.exchange ≠ some .window → t.part.faults = s.part.faults) ∧
      t.part.ladder = s.part.ladder ∧ t.part.sched = s.part.sched ∧ t.part.table = s.part.table ∧ t.mem = s.mem) ∧
  (∀ (s : State) (i : NodeIx), s.part.frames.state = .sending → s.part.frames.onLine = true →
    ((∃ a, s.part.frames.exchange = some (.poll i a)) ∨ s.part.frames.exchange = some (.probe i) ∨
     (∃ a, s.part.frames.exchange = some (.fetch i a)) ∨
     (∃ k a b, s.part.frames.exchange = some (.seg i k a b)) ∨ (∃ k a b, s.part.frames.exchange = some (.next i k a b))) →
    exec .requestSent s = .next { s with part := { s.part with frames :=
      { s.part.frames with
        state := .awaiting, onLine := false,
        replyTimer := some (if (s.part.node i).applied.replyTimeout = 0 then s.part.loader.settings.defaultTimeout
          else (s.part.node i).applied.replyTimeout) } } }) ∧
  (∀ s : State, s.part.frames.state = .sending → s.part.frames.onLine = true → s.part.frames.exchange = some .window →
    exec .requestSent s = .next { s with part := { s.part with frames :=
      { s.part.frames with state := .slotting, onLine := false, slot := 0, spill := false } } }) ∧
  (∀ s : State, s.part.frames.state = .sending → s.part.frames.onLine = true →
    (s.part.frames.exchange = some .hold ∨ s.part.frames.exchange = some .rest ∨ s.part.frames.exchange = some .rouse ∨
     ∃ i k, s.part.frames.exchange = some (.abandon i k)) →
    exec .requestSent s = .next { s with part := { s.part with frames :=
      { s.part.frames with state := .guarding, onLine := false } } })

/-- The outcome of an attempt (R53, R54, R55, R58, Tables 3-5 and 3-6): no carrier by the limit is TIMEOUT; a damaged frame or a clash is
DAMAGED; an intact frame is GOOD by the checks on its direction, kind, address, form, toggle echo, tag and segment, and UNEXPECTED
otherwise; each failure is counted once, and a clash in the guard spoils a GOOD outcome only. In a window a clash is kept for the
slot's report (R62). That a flag the kind does not define fails the frame's form is the model's inference (log 11), and so is that carrier
right behind a frame's last CHECK byte is carrier in its guard (log 26); that all of GUARDING counts as the guard is the model's choice
(log 38), and so is that a clash nobody awaits counts its stretch as one stray, once (log 59). -/
def Obligations.ReplyDecided : Prop :=
  (∀ s : State, s.part.frames.state = .awaiting →
    ∃ t, exec .replyTimerLimit s = .next t ∧ t.part.frames.state = .guarding ∧ t.part.frames.replyTimer = none ∧
      t.part.frames.outcome = some .timeout ∧
      t.part.counter .replyTimeouts = s.part.counter .replyTimeouts + 1) ∧
  (∀ (s : State) (ex : Exchange) (i : NodeIx) (items : List LineItem),
    s.part.frames.state = .awaiting ∨ s.part.frames.state = .receiving → s.part.frames.exchange = some ex →
    ex.awaits = some i →
    ∃ t, exec (.replyFrameEnd items) s = .next t ∧ t.part.frames.state = .guarding ∧ t.part.frames.replyTimer = none ∧
      (receiveFrame items = none → t.part.frames.outcome = some .damaged ∧
        t.part.counter .damagedFrames = s.part.counter .damagedFrames + 1) ∧
      (∀ f, receiveFrame items = some f → carrierAfter items = false →
        (t.part.frames.outcome = some .good ∨ t.part.frames.outcome = some .unexpected) ∧
        (t.part.frames.outcome = some .good → t.part.frames.rx = some f ∧ t.part.faults = s.part.faults) ∧
        (t.part.frames.outcome = some .unexpected →
          t.part.counter .unexpectedReplies = s.part.counter .unexpectedReplies + 1) ∧
        (t.part.frames.outcome = some .good ↔
          f.head.getLsbD 7 = true ∧ f.address = (s.part.node i).applied.address ∧
          match ex with
          | .poll _ _ => f.head.extractLsb' 3 4 = (if s.part.frames.toggles.get i then 2 else 1) ∧
              f.payload.length = (s.part.node i).applied.inLength
          | .probe _ => f.head.extractLsb' 0 7 = 0x18 ∧ f.payload.length = 4
          | .fetch _ _ => f.head.extractLsb' 3 4 = 4 ∧ f.head.getLsbD 2 = false ∧
              (f.head.getLsbD 0 = true ∧ f.head.getLsbD 1 = false ∧ f.payload.length = 0 ∨
               f.head.getLsbD 0 = false ∧ 3 ≤ f.payload.length ∧ f.payload.length ≤ 19)
          | .seg _ _ tag segment => f.head.extractLsb' 0 7 = 0x28 ∧ f.payload = [tag, segment]
          | .next _ _ tag segment => f.head.extractLsb' 1 6 = 0x18 ∧ 4 ≤ f.payload.length ∧ f.payload.length ≤ 52 ∧
              f.payload.head? = some tag ∧
              ∃ b, f.payload[1]? = some b ∧ b.extractLsb' 0 3 = segment.extractLsb' 0 3
          | _ => False)) ∧
      (∀ f, receiveFrame items = some f → carrierAfter items = true → t.part.frames.outcome ≠ some .good)) ∧
  (∀ s : State, ∃ t, exec .lineClash s = .next t ∧
    (s.part.frames.state = .awaiting ∨ s.part.frames.state = .receiving ∨
        s.part.frames.state = .guarding ∧ s.part.frames.outcome = some .good →
      t.part.frames.state = .guarding ∧ t.part.frames.outcome = some .damaged ∧
      t.part.counter .damagedFrames = s.part.counter .damagedFrames + 1) ∧
    (s.part.frames.state = .guarding → s.part.frames.outcome ≠ some .good → s.part.frames.outcome ≠ none → t = s) ∧
    (s.part.frames.state = .slotting → t = { s with part := { s.part with frames := { s.part.frames with clash := true } } }) ∧
    (s.part.frames.state = .listening ∨ s.part.frames.state = .guarding ∧ s.part.frames.outcome = none →
      t.part.frames = { s.part.frames with counted := true } ∧
      (s.part.ladder.state = .run → s.part.frames.counted = false →
        t.part.counter .strayFrames = s.part.counter .strayFrames + 1) ∧
      (s.part.frames.counted = true → t = s)))

/-- The frames the part sends (R48, R49, R50) are frames its receiver takes intact with their fields (R54); cut short by a gap or a code
violation they are damaged, and so are any frame whose LEN is above 64 and one whose carrier was on the line already (R54, R53; that the
command tells the second by its first item: log 10). On the line a byte lasts 10 bit times, a start bit, the data bits least significant
first and a stop bit, at the line rate of Table 0-4, and a frame 6 + LEN bytes with no gap between them; a byte whose stop bit is missing
damages its frame (R46). That a start bit is a 0 and a stop bit a 1 is the family's convention (log 62). -/
def Obligations.FrameRoundTrip : Prop :=
  (∀ b : Byte, ∃ bits, LineItem.byte b = .serial bits ∧ bits.getLsbD 0 = false ∧
    (∀ k : Fin 8, bits.getLsbD (k.val + 1) = b.getLsbD k.val) ∧ bits.getLsbD 9 = true) ∧
  (∀ f : FrameEngine, f.state = .sending → f.onLine = true → f.transmits.length = 10 * f.tx.length ∧
    ∀ (n : Nat) (b : Byte), f.tx[n]? = some b →
      f.transmits[10 * n]? = some false ∧ (∀ k : Fin 8, f.transmits[10 * n + 1 + k.val]? = some (b.getLsbD k.val)) ∧
      f.transmits[10 * n + 9]? = some true) ∧
  (∀ f : FrameEngine, f.state ≠ .sending ∨ f.onLine = false → f.transmits = []) ∧
  ([0, 1, 2, 3].map Config.byteTime = [40, 20, 10, 5]) ∧
  (∀ (kind : PartKind) (flags : BitVec 3) (address : Byte) (payload : List Byte),
    (encodeFrame kind flags address payload).length = 6 + payload.length) ∧
  (∀ (kind : PartKind) (flags : BitVec 3) (address : Byte) (payload : List Byte), payload.length ≤ 64 →
    receiveFrame ((encodeFrame kind flags address payload).map .byte) =
      some { head := 0#1 ++ kind.code ++ flags, address := address, payload := payload }) ∧
  (∀ (kind : PartKind) (flags : BitVec 3) (address : Byte) (payload : List Byte) (k : Nat) (rest : List LineItem),
    payload.length ≤ 64 → k < (encodeFrame kind flags address payload).length →
    receiveFrame (((encodeFrame kind flags address payload).take k).map .byte ++ .gap :: rest) = none ∧
    receiveFrame (((encodeFrame kind flags address payload).take k).map .byte ++ .violation :: rest) = none ∧
    ∀ bits : BitVec 10, bits.getLsbD 9 = false →
      receiveFrame (((encodeFrame kind flags address payload).take k).map .byte ++ .serial bits :: rest) = none) ∧
  (∀ (sync head address len : Byte) (rest : List LineItem), 64 < len.toNat →
    receiveFrame (.byte sync :: .byte head :: .byte address :: .byte len :: rest) = none) ∧
  (∀ rest : List LineItem, receiveFrame (.present :: rest) = none)

/-- GUARD_END of a POLL attempt in RUN (R59, R10, R13, R12, R18, R34, R98), for a node in LIVE or SUSPECT. GOOD, the ack it carried is
confirmed; DATA with FRESH clear: the node is LIVE with miss count 0, its payload in the input shadow, FRESH-THIS-CYCLE set and DEGRADED
as the flag; with FRESH set: PROBING, no payload, and the loss policy applied. The last attempt failed: a miss, to SUSPECT or to LOST with
the loss policy. An attempt failed with attempts left: no record changes. GUARD_END of a PROBE (R8): a GOOD IDENT is copied and checked for
kind, output length and input length in that order, and the node is LIVE or MISFIT with the reason; a failed probe leaves the record in
PROBING as it was. Behind the last entry of the poll list the optional phases begin, each by its fit (R35 to R39, R82, R89, R96, R118). -/
def Obligations.PollOutcomeTaken : Prop :=
  let optionalPhases := fun (s t : State) (dt : Nat) =>
    s.part.sched.pollList = [] → (s.part.behind t.part s.part.events.claimed).optionalPhasesBegin t.part dt
  (∀ (s : State) (i : NodeIx) (ack : Option Byte) (dt : Nat), s.part.ladder.state = .run →
    s.part.frames.state = .guarding → s.part.frames.exchange = some (.poll i ack) →
    (s.part.node i).state = .live ∨ (s.part.node i).state = .suspect →
    (∀ f, s.part.frames.outcome = some .good → s.part.frames.rx = some f →
      ∃ t, exec (.guardEnd dt) s = .next t ∧
        (t.part.node i).lastGood = s.part.sched.cycle ∧ (t.part.node i).missCount = 0 ∧
        (t.part.node i).missTotal = (s.part.node i).missTotal ∧
        (t.part.nodeEvents i).ackOwed =
          ((s.part.nodeEvents i).ackOwed && decide (ack ≠ some (s.part.nodeEvents i).accepted)) ∧
        optionalPhases s t dt ∧
        (f.flag 2 = false →
          (t.part.node i).state = .live ∧ (t.part.node i).fresh = true ∧ (t.part.node i).degraded = f.flag 1 ∧
          t.part.images.shadow = s.part.images.shadow.writeBytes (s.part.node i).applied.inOffset f.payload ∧
          (f.flag 0 = true → (s.part.node i).applied.eventsEnabled = true → (t.part.nodeEvents i).latch = true)) ∧
        (f.flag 2 = true →
          (t.part.node i).state = .probing ∧ (t.part.node i).fresh = false ∧ (t.part.node i).degraded = false ∧
          (t.part.node i).countdown = none ∧ (t.part.node i).changeCount = (s.part.node i).changeCount + 1 ∧
          (t.part.nodeEvents i).latch = false ∧
          lossApplied (s.part.node i).applied s.part.loader.settings.inBytes s.part.images.shadow t.part.images.shadow)) ∧
    (∀ a, s.part.frames.outcome = some a → a ≠ .good → s.part.sched.attempts = 0 →
      ∃ t, exec (.guardEnd dt) s = .next t ∧
        (t.part.node i).missCount = (s.part.node i).missCount + 1 ∧
        (t.part.node i).missTotal = (s.part.node i).missTotal + 1 ∧
        t.part.counter .nodeMisses = s.part.counter .nodeMisses + 1 ∧
        t.part.counter .pollAttemptFailures = s.part.counter .pollAttemptFailures + 1 ∧
        (t.part.nodeEvents i).ackOwed = (s.part.nodeEvents i).ackOwed ∧ optionalPhases s t dt ∧
        ((s.part.node i).missCount + 1 < (s.part.node i).applied.missLimit → (t.part.node i).state = .suspect ∧
          t.part.images.shadow = s.part.images.shadow) ∧
        ((s.part.node i).applied.missLimit ≤ (s.part.node i).missCount + 1 → (t.part.node i).state = .lost ∧
          (t.part.node i).countdown =
            (if (s.part.node i).applied.reprobeDelay = 0 then none else some (s.part.node i).applied.reprobeDelay) ∧
          lossApplied (s.part.node i).applied s.part.loader.settings.inBytes s.part.images.shadow t.part.images.shadow)) ∧
    (∀ a, s.part.frames.outcome = some a → a ≠ .good → 0 < s.part.sched.attempts →
      ∃ t, exec (.guardEnd dt) s = .next t ∧ t.part.sched.attempts = s.part.sched.attempts - 1 ∧
        t.part.table.records = s.part.table.records ∧ t.part.frames.toggles = s.part.frames.toggles ∧
        t.part.counter .pollAttemptFailures = s.part.counter .pollAttemptFailures + 1)) ∧
  (∀ (s : State) (i : NodeIx) (dt : Nat), s.part.ladder.state = .run → s.part.frames.state = .guarding →
    s.part.frames.exchange = some (.probe i) → (s.part.node i).state = .probing →
    (∀ (f : Frame) (kind revision outLength inLength : Byte), s.part.frames.outcome = some .good →
      s.part.frames.rx = some f → f.payload = [kind, revision, outLength, inLength] →
      ∃ t, exec (.guardEnd dt) s = .next t ∧
        (t.part.node i).kindSeen = kind ∧ (t.part.node i).revisionSeen = revision ∧
        (t.part.node i).lastGood = s.part.sched.cycle ∧ (t.part.node i).missCount = 0 ∧
        (t.part.node i).changeCount = (s.part.node i).changeCount + 1 ∧
        (t.part.node i).misfit =
          (if (s.part.node i).applied.expectedKind ≠ 0 ∧ (s.part.node i).applied.expectedKind ≠ kind then .kind
           else if outLength.toNat ≠ (s.part.node i).applied.outLength then .outputLength
           else if inLength.toNat ≠ (s.part.node i).applied.inLength then .inputLength
           else .none) ∧
        (t.part.node i).state = (if (t.part.node i).misfit = .none then .live else .misfit) ∧ optionalPhases s t dt ∧
        ((t.part.node i).misfit = .none → t.part.images.shadow = s.part.images.shadow) ∧
        ((t.part.node i).misfit ≠ .none →
          lossApplied (s.part.node i).applied s.part.loader.settings.inBytes s.part.images.shadow t.part.images.shadow)) ∧
    (∀ a, s.part.frames.outcome = some a → a ≠ .good →
      ∃ t, exec (.guardEnd dt) s = .next t ∧
        t.part.node i = { s.part.node i with pollTotal := (t.part.node i).pollTotal } ∧
        (s.part.sched.pollList.head? ≠ some (.poll i) → t.part.node i = s.part.node i) ∧
        (s.part.sched.pollList = [] → s.part.optionalPhasesBegin t.part dt)))

/-! ## Contention windows -/

/-- R88: the size and the quiet streak after a window with `c` CLASH slots and `b` good bids. -/
def Obligations.WindowAdapts : Prop :=
  ∀ (size : WindowSize) (streak : Fin 4) (c b : Nat),
    (size.slots < 4 * c →
      (adapt size streak c b).1.slots = min 32 (2 * size.slots) ∧ (adapt size streak c b).2 = 0) ∧
    (4 * c ≤ size.slots → c = 0 → b = 0 → streak.val + 1 < 4 →
      (adapt size streak c b).1 = size ∧ (adapt size streak c b).2.val = streak.val + 1) ∧
    (4 * c ≤ size.slots → c = 0 → b = 0 → streak.val + 1 = 4 →
      (adapt size streak c b).1.slots = max 2 (size.slots / 2) ∧ (adapt size streak c b).2 = 0) ∧
    (4 * c ≤ size.slots → ¬ (c = 0 ∧ b = 0) →
      (adapt size streak c b).1 = size ∧ (adapt size streak c b).2 = 0)

/-- SLOT_END (R62, R83 to R87, R14, R94). The slot is QUIET where nothing began in it; it holds a GOOD BID where no clash was seen in it, no
frame of the slot before was arriving as it began, and of the frames that it heard and that ended in it one is an intact BID of a node with
LEN 2, no flag, reason EVENT or ATTEND and a line address; else it is NOT GOOD. So is judged a slot that holds the bytes of one BID. The
report raises one tally and its counter. A bid of an enabled record: EVENT in LIVE or SUSPECT sets the event-due latch with origin BID and
queues the node, or counts as redundant, or with events not enabled has no effect; ATTEND there, and either reason in LOST, leads to
PROBING with miss count 0 and the countdown stopped; in PROBING and MISFIT nothing changes. Any other is sighted, which the stray set takes
as R90 says. After the last slot the window is closed, with the last-clash flag from the CLASH tally and the size adapted, and the fetch
phase begins, by its fit (R37 to R39, R96). A frame that still arrives as the slot ends spoils
the next one; that a frame which arrives through a whole slot spoils the slot after it too is the model's choice (log 43), and so is that
a clash before slot 0 spoils no slot (log 44). That a BID with a flag set is no good bid is the model's inference (log 11). -/
def Obligations.SlotTaken : Prop :=
  let isBid := fun f : Frame => f.head.msb = true ∧ f.head.extractLsb' 3 4 = 7 ∧ f.head.extractLsb' 0 3 = 0 ∧
    f.payload.length = 2 ∧ (payloadByte f.payload 0 = 1 ∨ payloadByte f.payload 0 = 2) ∧
    1 ≤ f.address.toNat ∧ f.address.toNat ≤ 250
  (∀ (address reason kind : Byte),
    let check := crc16 [0xB8, address, 2, reason, kind]
    framesHeard ([Config.syncByte, 0xB8, address, 2, reason, kind, check.extractLsb' 8 8, check.extractLsb' 0 8].map .byte) =
      [some { head := 0xB8, address := address, payload := [reason, kind] }]) ∧
  (∀ (s : State) (heard : SlotHeard) (dt : Nat), s.part.ladder.state = .run → s.part.frames.state = .slotting →
    let clash := s.part.frames.clash && !(heard.clashBefore && s.part.frames.slot == 0)
    let quiet := heard.items = [] ∧ s.part.frames.spill = false ∧ clash = false
    let ended := if heard.overruns then (framesHeard heard.items).dropLast else framesHeard heard.items
    let goodBid := fun f : Frame => s.part.frames.spill = false ∧ clash = false ∧ isBid f ∧
      ∃ before after, ended = before ++ some f :: after ∧ ∀ g, some g ∈ before → ¬ isBid g
    ∃ t, exec (.slotEnd heard dt) s = .next t ∧
      (quiet →
        t.part.windows.tallies = { s.part.windows.tallies with empty := s.part.windows.tallies.empty + 1 } ∧
        t.part.counter .windowClashes = s.part.counter .windowClashes) ∧
      (¬ quiet → (∀ f, ¬ goodBid f) →
        t.part.windows.tallies = { s.part.windows.tallies with clash := s.part.windows.tallies.clash + 1 } ∧
        t.part.counter .windowClashes = s.part.counter .windowClashes + 1) ∧
      (∀ f, goodBid f →
        (∀ i, s.part.enabledAt f.address = some i →
          let serves := (s.part.node i).state = .live ∨ (s.part.node i).state = .suspect
          let event := payloadByte f.payload 0 = 1
          let listens := (s.part.node i).applied.eventsEnabled = true
          let latched := (s.part.nodeEvents i).latch = true
          let reprobed := (t.part.node i).state = .probing ∧ (t.part.node i).missCount = 0 ∧
            (t.part.node i).countdown = none ∧ (t.part.node i).changeCount = (s.part.node i).changeCount + 1 ∧
            lossApplied (s.part.node i).applied s.part.loader.settings.inBytes s.part.images.shadow t.part.images.shadow ∧
            { node := i, cause := true } ∈ t.part.table.writes
          let uneventful := (t.part.nodeEvents i).latch = (s.part.nodeEvents i).latch ∧
            (t.part.nodeEvents i).origin = (s.part.nodeEvents i).origin ∧ t.part.events.queue = s.part.events.queue
          t.part.windows.tallies = { s.part.windows.tallies with bid := s.part.windows.tallies.bid + 1 } ∧
          t.part.counter .windowBids = s.part.counter .windowBids + 1 ∧
          t.part.counter .redundantIndications = s.part.counter .redundantIndications +
            (if serves ∧ event ∧ listens ∧ latched then 1 else 0) ∧
          (serves → event → t.part.node i = s.part.node i) ∧
          (serves → event → listens → ¬ latched →
            (t.part.nodeEvents i).latch = true ∧ (t.part.nodeEvents i).origin = .bid ∧
            t.part.events.queue = s.part.events.queue.filter (· != i) ++ [i]) ∧
          (serves → event → (listens → latched) → uneventful) ∧
          (serves → ¬ event → reprobed ∧ (t.part.nodeEvents i).latch = false ∧
            t.part.events.queue = s.part.events.queue.filter (· != i)) ∧
          ((s.part.node i).state = .lost → reprobed ∧ uneventful) ∧
          ((s.part.node i).state = .probing ∨ (s.part.node i).state = .misfit →
            t.part.node i = s.part.node i ∧ uneventful)) ∧
        (s.part.enabledAt f.address = none →
          t.part.windows.tallies = { s.part.windows.tallies with stray := s.part.windows.tallies.stray + 1 } ∧
          t.part.counter .strayFrames = s.part.counter .strayFrames + 1 ∧
          sighted s.part.windows.strays f.address .bid (payloadByte f.payload 1) t.part.windows.strays)) ∧
      (s.part.frames.slot + 1 < s.part.windows.size.slots →
        t.part.frames.state = .slotting ∧ t.part.frames.slot = s.part.frames.slot + 1 ∧
        t.part.frames.spill = (heard.overruns && (s.part.frames.spill || heard.items != [])) ∧ t.part.frames.clash = false ∧
        t.part.windows.isOpen = s.part.windows.isOpen ∧ t.part.windows.size = s.part.windows.size) ∧
      (s.part.windows.size.slots ≤ s.part.frames.slot + 1 →
        t.part.windows.isOpen = false ∧ t.part.windows.lastClash = decide (1 ≤ t.part.windows.tallies.clash) ∧
        (t.part.windows.size, t.part.windows.streak) =
          adapt s.part.windows.size s.part.windows.streak t.part.windows.tallies.clash
            (t.part.windows.tallies.bid + t.part.windows.tallies.stray) ∧
        (s.part.behind t.part (s.part.events.claimed +
          if s.part.events.noteUnderWay = false ∧ t.part.events.noteUnderWay = true then 1 else 0)).fetchPhaseBegins t.part dt))

/-! ## The close -/

/-- The image unit at the open, at a POLL and at the close. The output publish word read (R67, Table 4-2): a changed count takes its bank,
or is refused with IMAGE-BANK-INVALID, and the in-use word is written; an error takes nothing. The words of an output slice read (R69):
the POLL carries its bytes, or zeros after an error. HOLD_WORD_READ (R74): the fill bank is the lowest that is neither held nor last
published, and a bank field that names nothing is IMAGE-BANK-INVALID. The close's words (R22, R75, R76): the maps are the node table's as
CLOSING is entered; into the fill bank go the header with cycle number, live count, live map and fresh map and zeros, then the shadow's
image bytes in whole words, the last word padded with zeros, then the publish word with the bank and the next count, each asked for as
the one before has completed. An error on one of them, or on the hold word, ends the close unpublished and not counted (R77).
INPUT_PUBLISH (R75): the bank filled is the last published, the
publish count one higher and the divisor count raised. CYCLE_DIVISOR_REACHED (R78): CAUSE.CYCLE is set and the count 0, and the anchor's
cycle-number word is written (R40). Three points are the model's: that CAUSE.CYCLE is due as a step of its own, which the cycle-number
write waits for (log 14), that a refused take is reported before its in-use write (log 46), and that a slice is read in rising words (log
28). -/
def Obligations.CloseSteps : Prop :=
  (∀ (s : State) (x : Access) (host : Option Word) (dt : Nat) (w : Word), s.current = some x → x.source = .outTake →
    s.part.ladder.softPending = false → w = x.value s.port.area (x.memAfter s.port.area host s.mem) →
    ∃ t, exec (.memoryAccessComplete host dt) s = .next t ∧
      (w.extractLsb' 8 24 = s.part.images.countTaken → s.part.images.takeOwed = false →
        t.part.images = s.part.images ∧ t.part.sched.imageReady = true ∧
        t.part.faults.capture = s.part.faults.capture) ∧
      (w.extractLsb' 8 24 ≠ s.part.images.countTaken ∨ s.part.images.takeOwed = true →
        (∀ b : Bank, (w.extractLsb' 0 8).toNat = b.val →
          t.part.images = { s.part.images with
            inUse := some b, countTaken := w.extractLsb' 8 24, takeOwed := false } ∧
          t.part.asks { offset := 0x48, write := some (bankWord (some b) (w.extractLsb' 8 24)), source := .outInUse } ∧
          t.part.faults.capture = s.part.faults.capture) ∧
        (3 ≤ (w.extractLsb' 0 8).toNat →
          t.part.images = { s.part.images with countTaken := w.extractLsb' 8 24, takeOwed := false } ∧
          t.part.asks { offset := 0x48, write := some (bankWord s.part.images.inUse (w.extractLsb' 8 24)), source := .outInUse } ∧
          t.part.hasCause .fault = true ∧
          (s.part.hasCause .fault = false → t.part.faults.capture.code = 4 ∧ t.part.faults.capture.detail = 1)))) ∧
  (∀ (s : State) (x : Access) (dt : Nat), s.current = some x → x.source = .outTake ∨ x.source = .outInUse →
    s.part.ladder.softPending = false → s.part.ladder.state ≠ .starting →
    ∃ t, exec (.memoryErrorResponse dt) s = .next t ∧ t.part.images = s.part.images ∧
      t.part.sched.imageReady = true) ∧
  (∀ (s : State) (x : Access) (job : SliceRead) (bank : Bank) (host : Option Word) (dt : Nat) (w : Word),
    s.current = some x → x.source = .slice → s.part.ladder.softPending = false → s.part.ladder.state = .run →
    s.part.images.slice = some job → s.part.images.inUse = some bank →
    w = x.value s.port.area (x.memAfter s.port.area host s.mem) →
    let e := (s.part.node job.node).applied
    ∃ t, exec (.memoryAccessComplete host dt) s = .next t ∧
      (1 < job.left →
        t.part.images.slice = some { job with got := w :: job.got, left := job.left - 1 } ∧
        t.part.asks
          { offset := 0x4000 + 3072 * bank.val + 4 * (e.outOffset / 4 + (job.got.length + 1)), write := none, source := .slice }) ∧
      (job.left ≤ 1 →
        t.part.images.slice = none ∧ t.part.frames.state = .sending ∧
        t.part.frames.exchange = some (.poll job.node job.ack) ∧
        t.part.frames.tx = pollFrame e.address job.ack (s.part.frames.toggles.get job.node)
          (((((w :: job.got).reverse).flatMap wordBytes).drop (e.outOffset % 4)).take e.outLength) ∧
        t.part.counter .pollsSent = s.part.counter .pollsSent + 1)) ∧
  (∀ (s : State) (x : Access) (job : SliceRead) (dt : Nat), s.current = some x → x.source = .slice →
    s.part.ladder.softPending = false → s.part.ladder.state = .run → s.part.sched.state ≠ .stopped →
    s.part.images.slice = some job →
    ∃ t, exec (.memoryErrorResponse dt) s = .next t ∧ t.part.images.slice = none ∧
      t.part.frames.exchange = some (.poll job.node job.ack) ∧
      t.part.frames.tx = pollFrame (s.part.node job.node).applied.address job.ack (s.part.frames.toggles.get job.node)
        (List.replicate (s.part.node job.node).applied.outLength 0)) ∧
  (∀ (s : State) (x : Access) (job : CloseJob) (host : Option Word) (w : Word), s.current = some x →
    x.source = .close → s.part.ladder.softPending = false → s.part.images.close = some job → job.fill = none →
    w = x.value s.port.area (x.memAfter s.port.area host s.mem) →
    ∃ (t : State) (bank : Bank), exec (.holdWordRead host) s = .next t ∧
      t.part.images = { s.part.images with close := some { job with fill := some bank, pos := 0 } } ∧
      s.part.images.lastPublished ≠ some bank ∧ (w.extractLsb' 0 8).toNat ≠ bank.val ∧
      (∀ b : Bank, b < bank → s.part.images.lastPublished = some b ∨ (w.extractLsb' 0 8).toNat = b.val) ∧
      t.part.asks { offset := 0x6400 + 3136 * bank.val, write := some s.part.sched.cycle, source := .close } ∧
      (3 ≤ (w.extractLsb' 0 8).toNat → (w.extractLsb' 0 8).toNat ≠ 255 → t.part.hasCause .fault = true ∧
        (s.part.hasCause .fault = false → t.part.faults.capture.code = 4 ∧ t.part.faults.capture.detail = 2)) ∧
      ((w.extractLsb' 0 8).toNat < 3 ∨ (w.extractLsb' 0 8).toNat = 255 →
        t.part.faults.capture = s.part.faults.capture)) ∧
  (∀ (s : State) (x : Access) (job : CloseJob) (bank : Bank), s.current = some x → x.source = .close →
    s.part.ladder.softPending = false → s.part.images.close = some job → job.fill = some bank →
    job.pos + 1 = 16 + (s.part.loader.settings.inBytes + 3) / 4 + 1 →
    ∃ t, exec .inputPublish s = .next t ∧
      t.part.images = { s.part.images with
        lastPublished := some bank, publishCount := s.part.images.publishCount + 1, close := none } ∧
      t.part.faults.divisorCount = s.part.faults.divisorCount + 1 ∧
      t.part.faults.divisorDue =
        decide (s.part.loader.settings.cycleDivisor ≤ s.part.faults.divisorCount + 1)) ∧
  (∀ p : Part, ∃ job : CloseJob,
    p.enterClosing.sched.state = .closing ∧ p.enterClosing.images = { p.images with close := some job } ∧
    job.fill = none ∧
    (∀ i : NodeIx, job.live.getLsbD i.val = true ↔ (p.node i).state = .live ∨ (p.node i).state = .suspect) ∧
    (∀ i : NodeIx, job.fresh.getLsbD i.val = (p.node i).fresh) ∧
    p.enterClosing.bus = p.bus ++ [{ offset := 0x0C, write := none, source := .close }]) ∧
  (∀ (s : State) (x : Access) (job : CloseJob) (bank : Bank) (host : Option Word) (dt k : Nat), s.current = some x →
    x.source = .close → s.part.ladder.softPending = false → s.part.images.close = some job → job.fill = some bank →
    k = job.pos + 1 → k < 16 + (s.part.loader.settings.inBytes + 3) / 4 + 1 →
    let size := s.part.loader.settings.inBytes
    let header := fun word : Word => { offset := 0x6400 + 3136 * bank.val + 4 * k, write := some word, source := .close }
    ∃ t, exec (.memoryAccessComplete host dt) s = .next t ∧
      t.part.images = { s.part.images with close := some { job with pos := k } } ∧
      (k = 1 → t.part.asks (header (BitVec.ofNat 32 ((List.range 48).countP fun i => job.live.getLsbD i)))) ∧
      (k = 2 → t.part.asks (header (job.live.extractLsb' 0 32))) ∧
      (k = 3 → t.part.asks (header ((job.live.extractLsb' 32 16).setWidth 32))) ∧
      (k = 4 → t.part.asks (header (job.fresh.extractLsb' 0 32))) ∧
      (k = 5 → t.part.asks (header ((job.fresh.extractLsb' 32 16).setWidth 32))) ∧
      (6 ≤ k → k < 16 → t.part.asks (header 0)) ∧
      (∀ n, k = 16 + n → n < (size + 3) / 4 → ∃ word : Word,
        t.part.asks { offset := 0x6400 + 3136 * bank.val + 0x40 + 4 * n, write := some word, source := .close } ∧
        ∀ b : Fin 4, word.extractLsb' (8 * b.val) 8 =
          if 4 * n + b.val < size then s.part.images.shadow.readByte (4 * n + b.val) else 0) ∧
      (k = 16 + (size + 3) / 4 → t.part.asks
        { offset := 0x4C, write := some (bankWord (some bank) (s.part.images.publishCount + 1)), source := .close })) ∧
  (∀ (s : State) (x : Access) (dt : Nat), s.current = some x → x.source = .close → s.part.ladder.softPending = false →
    s.part.ladder.state ≠ .starting →
    ∃ t, exec (.memoryErrorResponse dt) s = .next t ∧ t.part.images = { s.part.images with close := none } ∧
      t.part.faults.divisorCount = s.part.faults.divisorCount ∧ t.part.faults.divisorDue = s.part.faults.divisorDue ∧
      t.part.asks { offset := 0x44, write := some s.part.sched.cycle, source := .cycleWord }) ∧
  (∀ s : State, s.part.faults.divisorDue = true →
    ∃ t, exec .cycleDivisorReached s = .next t ∧ t.part.hasCause .cycle = true ∧ t.part.faults.divisorCount = 0 ∧
      t.part.faults.divisorDue = false ∧
      t.part.bus = s.part.bus ++ [{ offset := 0x44, write := some s.part.sched.cycle, source := .cycleWord }] ∧
      t.part.images = s.part.images ∧ t.mem = s.mem)

/-! ## Events -/

/-- APPEND_COMPLETE and EVENTS_TAKEN_READ (R104, R102, R95, R106). The events-written word's write completed: events written is one higher,
the append counted and CAUSE.EVENT set, and the node's sequence number is the last accepted with its ack owed; its latch is cleared and it
leaves the queue, or with MORE it moves to the tail. A stray note's record appended (R91, R92, R107): the entry's count at last note is the
count the record carries, and the entry is NOTED, or NOTE-PENDING where its count has reached twice that; a stray set emptied meanwhile is
not changed; the note is over, and the oldest entry pending is offered next where the list has room. A note's append that fails (R105)
leaves the stray set as it was, publishes nothing, releases its place and stops the list. The events-taken word read: a valid value becomes
last taken; an invalid one leaves it and is reported once. GUARD_END of a FETCH in RUN or held-line service. GOOD (R11, R98 to R102): the
node is LIVE with miss count 0, the ack carried is confirmed, and by the EVENT: NONE, the node leaves the queue and its place is released; a
duplicate is counted, its ack owed again, its place released and the node at the tail; a new one is under way with its record to be
appended, its place kept. Failed (R12, R38, R103): with attempts left the FETCH is given again where it fits, and in held-line service
without such a check; where it does not fit the place is released and the parcel phase begins. The last attempt's failure is a miss, with
the place released. Behind a GOOD or failed FETCH in RUN the event unit is asked again (R38, R96). -/
def Obligations.EventListKept : Prop :=
  let asked := fun (s t : State) (dt claimed : Nat) => (s.part.behind t.part claimed).fetchAsked t.part dt fun j =>
    !(s.part.nodeEvents j).fetched && !(t.part.nodeEvents j).intake
  (∀ (s : State) (x : Access) (a : Append) (rest : List Append), s.current = some x → x.source = .append →
    s.part.ladder.softPending = false → s.part.events.appending = some 8 → s.part.events.appends = a :: rest →
    ∃ t, exec .appendComplete s = .next t ∧ t.part.events.written = s.part.events.written + 1 ∧
      t.part.counter .eventsAppended = s.part.counter .eventsAppended + 1 ∧ t.part.hasCause .event = true ∧
      (∀ i seq more, a.what = .event i seq more → a.void = false →
        (t.part.nodeEvents i).accepted = seq ∧ (t.part.nodeEvents i).valid = true ∧
        (t.part.nodeEvents i).ackOwed = true ∧ (t.part.nodeEvents i).intake = false) ∧
      (∀ i seq, a.what = .event i seq false → a.void = false → a.detached = false →
        (t.part.nodeEvents i).latch = false ∧ t.part.events.queue = s.part.events.queue.filter (· != i)) ∧
      (∀ i seq, a.what = .event i seq true → a.void = false → a.detached = false →
        (t.part.nodeEvents i).latch = (s.part.nodeEvents i).latch ∧
        ((s.part.nodeEvents i).latch = true →
          t.part.events.queue = s.part.events.queue.filter (· != i) ++ [i])) ∧
      (∀ address count, a.what = .note address count →
        let strays := if a.void then s.part.windows.strays else s.part.windows.strays.map fun e =>
          if e.address = address then { e with lastNote := count, pendingNote := decide (2 * count ≤ e.count) } else e
        let offered := s.part.ladder.state.worksMemory = true ∧ s.part.events.takenInvalid = false ∧
          s.part.events.appendStopped = false ∧
          (s.part.events.written + 1 - s.part.events.taken).toNat + (s.part.events.claimed - 1) < 64
        t.part.windows.strays = strays ∧
        (∀ e, offered → strays.find? (·.pendingNote) = some e → t.part.events.noteUnderWay = true ∧
          t.part.events.appends = rest ++
            [{ what := .note e.address e.count,
               record := eventRecord 3 e.address 0 (BitVec.ofNat 16 e.count) s.part.sched.cycle [e.origin.code, e.kind],
               detached := false, void := false }] ∧
          (s.part.ladder.state ≠ .heldService → t.part.events.claimed = s.part.events.claimed - 1 + 1)) ∧
        (¬ offered ∨ strays.find? (·.pendingNote) = none → t.part.events.noteUnderWay = false ∧
          t.part.events.appends = rest ∧
          (s.part.ladder.state ≠ .heldService → t.part.events.claimed = s.part.events.claimed - 1)))) ∧
  (∀ (s : State) (x : Access) (a : Append) (rest : List Append) (pos : Nat) (address : Byte) (count dt : Nat),
    s.current = some x → x.source = .append → s.part.ladder.softPending = false → s.part.ladder.state ≠ .starting →
    s.part.events.appending = some pos → pos ≤ 8 → s.part.events.appends = a :: rest → a.what = .note address count →
    ∃ t, exec (.memoryErrorResponse dt) s = .next t ∧ t.part.windows.strays = s.part.windows.strays ∧
      t.part.events.noteUnderWay = false ∧ t.part.events.appends = rest ∧ t.part.events.appendStopped = true ∧
      t.part.events.written = s.part.events.written ∧ t.part.events.claimed = s.part.events.claimed - 1 ∧
      t.part.hasCause .event = s.part.hasCause .event) ∧
  (∀ (s : State) (x : Access) (r : TakenRead) (host : Option Word) (dt : Nat) (w : Word), s.current = some x →
    x.source = .eventsTaken → s.part.ladder.softPending = false → s.part.events.takenRead = some r →
    w = x.value s.port.area (x.memAfter s.port.area host s.mem) →
    ∃ t, exec (.eventsTakenRead host dt) s = .next t ∧
      ((s.part.events.written - w).toNat ≤ (s.part.events.written - s.part.events.taken).toNat →
        t.part.events.taken = w ∧ t.part.events.takenInvalid = false ∧
        t.part.events.appendStopped = (s.part.events.appendStopped && r.onFetch) ∧
        t.part.faults.capture = s.part.faults.capture) ∧
      ((s.part.events.written - s.part.events.taken).toNat < (s.part.events.written - w).toNat →
        t.part.events.taken = s.part.events.taken ∧ t.part.events.takenInvalid = true ∧
        t.part.events.appendStopped = s.part.events.appendStopped ∧
        (s.part.events.takenInvalid = true → t.part.faults.capture = s.part.faults.capture) ∧
        (s.part.events.takenInvalid = false → t.part.hasCause .fault = true ∧
          (s.part.hasCause .fault = false → t.part.faults.capture.code = 5)))) ∧
  (∀ (s : State) (i : NodeIx) (ack : Option Byte) (f : Frame) (dt : Nat),
    s.part.ladder.state = .run ∨ s.part.ladder.state = .heldService ∧ s.part.ladder.serviceWait = false ∧
      s.part.ladder.serviceRead = false →
    s.part.frames.state = .guarding → s.part.frames.exchange = some (.fetch i ack) → s.part.frames.outcome = some .good →
    s.part.frames.rx = some f → (s.part.node i).state = .live ∨ (s.part.node i).state = .suspect →
    let confirmed := (s.part.nodeEvents i).ackOwed && decide (ack ≠ some (s.part.nodeEvents i).accepted)
    let duplicate := (s.part.nodeEvents i).valid = true ∧ payloadByte f.payload 0 = (s.part.nodeEvents i).accepted
    ∃ t, exec (.guardEnd dt) s = .next t ∧
      (t.part.node i).state = .live ∧ (t.part.node i).missCount = 0 ∧ (t.part.node i).lastGood = s.part.sched.cycle ∧
      (t.part.nodeEvents i).accepted = (s.part.nodeEvents i).accepted ∧
      (s.part.ladder.state = .run → asked s t dt
        (if f.flag 0 = true ∨ duplicate then s.part.events.claimed - 1 else s.part.events.claimed)) ∧
      (f.flag 0 = true ∨ duplicate →
        t.part.events.appends = s.part.events.appends ∧
        t.part.events.claimed = s.part.events.claimed - 1 + (if t.part.frames.fetching then 1 else 0)) ∧
      (f.flag 0 = true →
        (t.part.nodeEvents i).latch = false ∧ t.part.events.queue = s.part.events.queue.filter (· != i) ∧
        (t.part.nodeEvents i).ackOwed = confirmed) ∧
      (f.flag 0 = false → duplicate →
        t.part.counter .eventDuplicates = s.part.counter .eventDuplicates + 1 ∧
        (t.part.nodeEvents i).ackOwed = true ∧ (t.part.nodeEvents i).latch = (s.part.nodeEvents i).latch ∧
        ((s.part.nodeEvents i).latch = true →
          t.part.events.queue = s.part.events.queue.filter (· != i) ++ [i])) ∧
      (f.flag 0 = false → ¬ duplicate →
        (t.part.nodeEvents i).intake = true ∧ (t.part.nodeEvents i).ackOwed = confirmed ∧
        (t.part.nodeEvents i).latch = (s.part.nodeEvents i).latch ∧ t.part.events.queue = s.part.events.queue ∧
        t.part.events.appends = s.part.events.appends ++
          [{ what := .event i (payloadByte f.payload 0) (f.flag 1),
             record := eventRecord (s.part.nodeEvents i).origin.code (s.part.node i).applied.address
               (payloadByte f.payload 0) (payloadByte f.payload 1 ++ payloadByte f.payload 2) s.part.sched.cycle
               (f.payload.drop 3),
             detached := false, void := false }] ∧
        t.part.events.claimed = s.part.events.claimed + (if t.part.frames.fetching then 1 else 0))) ∧
  (∀ (s : State) (i : NodeIx) (ack : Option Byte) (a : Attempt) (dt : Nat),
    s.part.ladder.state = .run ∨ s.part.ladder.state = .heldService ∧ s.part.ladder.serviceWait = false ∧
      s.part.ladder.serviceRead = false →
    s.part.frames.state = .guarding → s.part.frames.exchange = some (.fetch i ack) → s.part.frames.outcome = some a →
    a ≠ .good → (s.part.node i).state = .live ∨ (s.part.node i).state = .suspect →
    ∃ t, exec (.guardEnd dt) s = .next t ∧
      (t.part.nodeEvents i).accepted = (s.part.nodeEvents i).accepted ∧
      (t.part.nodeEvents i).ackOwed = (s.part.nodeEvents i).ackOwed ∧
      (s.part.sched.attempts = 0 →
        (t.part.node i).missCount = (s.part.node i).missCount + 1 ∧
        t.part.counter .nodeMisses = s.part.counter .nodeMisses + 1 ∧
        (s.part.ladder.state = .run → asked s t dt (s.part.events.claimed - 1)) ∧
        t.part.events.claimed = s.part.events.claimed - 1 + (if t.part.frames.fetching then 1 else 0) ∧
        ((s.part.node i).missCount + 1 < (s.part.node i).applied.missLimit →
          (t.part.node i).state = .suspect ∧ t.part.events.queue = s.part.events.queue ∧
          (t.part.nodeEvents i).latch = (s.part.nodeEvents i).latch) ∧
        ((s.part.node i).applied.missLimit ≤ (s.part.node i).missCount + 1 →
          (t.part.node i).state = .lost ∧ t.part.events.queue = s.part.events.queue.filter (· != i) ∧
          (t.part.nodeEvents i).latch = false)) ∧
      (0 < s.part.sched.attempts →
        let owed := (s.part.nodeEvents i).ackOwed
        let accepted := (s.part.nodeEvents i).accepted
        let fits := s.part.fitsIn dt (38 + s.part.replyTime i)
        t.part.table.records = s.part.table.records ∧ t.part.events.queue = s.part.events.queue ∧
        (s.part.ladder.state = .heldService ∨ fits →
          t.part.gives (.fetch i (if owed then some accepted else none))
            (encodeFrame .fetch (if owed then 1 else 0) (s.part.node i).applied.address [if owed then accepted else 0]) ∧
          t.part.sched.attempts = s.part.sched.attempts - 1 ∧ t.part.events.claimed = s.part.events.claimed) ∧
        (s.part.ladder.state = .run → ¬ fits →
          t.part.events.claimed = s.part.events.claimed - 1 ∧ s.part.parcelPhaseBegins t.part dt)))

/-! ## Parcels -/

/-- SLOT_VISIT (R114, R178): the read that decides the slot under visit completes. The answer number: the deferred answer names the slot
and is written; or ask equals taken or answer, or the slot has an entry, and the walk passes on; otherwise the three reads decide nothing
and the visit goes on to the withdraw number with MEMORY_ACCESS_COMPLETE, while SLOT_VISIT leaves the state as it is: a row acts only on
the completion that is its own, and elsewhere does nothing, which are the model's choices (logs 16 and 1). The request length: withdrawn
before the take; an invalid request; no enabled record, or one in LOST or MISFIT; taken, its request data read or its taken number written
next; queue full, where the walk stops. A read or write of the walk in progress as RESTING is entered ends there without or with an error,
and the walk stands (R129); that the walk goes on from that end at HELD is the model's choice (log 37). -/
def Obligations.SlotVisited : Prop :=
  (∀ (s : State) (x : Access) (host : Option Word) (dt : Nat) (slot : SlotIx) (left : Nat) (ask taken answer : Word),
    s.current = some x → x.source = .walk → s.part.ladder.softPending = false → s.part.ladder.state.pauses = false →
    s.part.parcels.walk = .visit slot left [ask, taken] →
    answer = x.value s.port.area (x.memAfter s.port.area host s.mem) →
    let deferred := ∃ d, s.part.parcels.deferred = some d ∧ d.slot = slot
    let passed := ask.extractLsb' 0 16 = taken.extractLsb' 0 16 ∨ ask.extractLsb' 0 16 = answer.extractLsb' 0 16 ∨
      ∃ e ∈ s.part.parcels.queue, e.slot = slot
    (deferred → ∃ t, exec (.slotVisit host) s = .next t ∧ t.part.parcels.walk = .answering slot left ∧
      .deferred ∈ t.part.parcels.answers) ∧
    (¬ deferred → passed → ∃ t, exec (.slotVisit host) s = .next t ∧
      (1 < left → t.part.parcels.walk = .visit (slot + 1) (left - 1) []) ∧
      (left ≤ 1 → t.part.parcels.walk = .idle ∨ t.part.parcels.walk = .total) ∧
      ∀ n o, .immediate slot n o ∈ t.part.parcels.answers → .immediate slot n o ∈ s.part.parcels.answers) ∧
    (¬ deferred → ¬ passed → exec (.slotVisit host) s = .next s ∧
      ∃ t, exec (.memoryAccessComplete host dt) s = .next t ∧
        t.part.parcels.walk = .visit slot left [ask, taken, answer] ∧
        t.part.asks { offset := 0x2000 + 512 * slot.val + 0x004, write := none, source := .walk })) ∧
  (∀ (s : State) (x : Access) (host : Option Word) (slot : SlotIx) (left : Nat)
    (ask taken answer withdraw target length : Word),
    s.current = some x → x.source = .walk → s.part.ladder.softPending = false → s.part.ladder.state.pauses = false →
    s.part.parcels.walk = .visit slot left [ask, taken, answer, withdraw, target] →
    length = x.value s.port.area (x.memAfter s.port.area host s.mem) →
    let number := ask.extractLsb' 0 16
    let invalid := ¬ (1 ≤ (target.extractLsb' 0 8).toNat ∧ (target.extractLsb' 0 8).toNat ≤ 250) ∨
      ¬ (1 ≤ (target.extractLsb' 8 8).toNat ∧ (target.extractLsb' 8 8).toNat ≤ 3) ∨
      240 < (length.extractLsb' 0 16).toNat ∨
      (target.extractLsb' 8 8).toNat = 2 ∧ (length.extractLsb' 0 16).toNat = 0
    let node := s.part.enabledAt (target.extractLsb' 0 8)
    let available := ∃ i, node = some i ∧ (s.part.node i).state ≠ .lost ∧ (s.part.node i).state ≠ .misfit
    ∃ t, exec (.slotVisit host) s = .next t ∧
      (withdraw.extractLsb' 0 16 = number → .immediate slot number .withdrawn ∈ t.part.parcels.answers) ∧
      (withdraw.extractLsb' 0 16 ≠ number → invalid →
        .immediate slot number .refusedRequest ∈ t.part.parcels.answers) ∧
      (withdraw.extractLsb' 0 16 ≠ number → ¬ invalid → ¬ available →
        .immediate slot number .nodeUnavailable ∈ t.part.parcels.answers) ∧
      (withdraw.extractLsb' 0 16 ≠ number → ¬ invalid → available → s.part.parcels.queue.length < 6 →
        ∃ h : SlotHeader, node = some h.node ∧ h.ask = number ∧ h.target = target.extractLsb' 0 8 ∧
          h.operation.code = target.extractLsb' 8 8 ∧ h.parameter = target.extractLsb' 16 16 ∧
          h.length = (length.extractLsb' 0 16).toNat ∧
          t.part.parcels.walk =
            (if h.length = 0 then .taking slot left h [] else .copying slot left h [])) ∧
      (withdraw.extractLsb' 0 16 ≠ number → ¬ invalid → available → 6 ≤ s.part.parcels.queue.length →
        t.part.parcels.cursor = slot ∧ t.part.parcels.scanOwed = true)) ∧
  (∀ (s : State) (x : Access) (host : Option Word) (dt : Nat), s.current = some x → x.source = .walk →
    s.part.ladder.softPending = false → s.part.ladder.state = .resting ∨ s.part.ladder.state = .rousing →
    let word := x.value s.port.area (x.memAfter s.port.area host s.mem)
    let kept := fun t : State => t.part.parcels = { s.part.parcels with keptEnd := some (.walk (some word)) }
    (∃ t, exec (.memoryAccessComplete host dt) s = .next t ∧ kept t) ∧
    (∀ slot left ask taken answer withdraw target,
      s.part.parcels.walk = .visit slot left [ask, taken, answer, withdraw, target] →
      ∃ t, exec (.slotVisit host) s = .next t ∧ kept t) ∧
    (∃ t, exec (.memoryErrorResponse dt) s = .next t ∧
      t.part.parcels = { s.part.parcels with keptEnd := some (.walk none) }))

/-- A parcel's exchanges and its end. GUARD_END in RUN: a GOOD SEGACK moves the entry on, and the last is its cut-off (R120); a GOOD SEGREP
waits with NOTREADY, or a consistent segment is kept and the last decides DONE or NODE-REJECTED; any other outcome is a failed attempt, and
the third fails the parcel with an ABANDON owed (R121, R122). An entry timed out while its frame was out keeps its outcome, and the SEGACK
of LAST takes it past its cut-off (R119): the model's choice (log 56). Which entries are eligible, and the pass in which the scheduler is
given them (R118): a SEG's withdraw number is read first, and a NEXT or an ABANDON is given where it fits, or the cycle closes (R121, R123,
R39); no entry's transfer state or attempt count changes by that, and the pass goes on behind the entry. WITHDRAW_CHECK before a SEG (R119):
a withdraw number equal to the ask number finishes the entry WITHDRAWN, with an ABANDON owed if a segment was sent, which is named in its
place; otherwise its SEG is given where it fits, the entry in SENDING (R120, R57), or the cycle closes and the entry stays as it was (a
first SEG included: log 53); an entry finished meanwhile keeps its outcome. Before an answer, and not past the cut-off: WITHDRAWN in place
of the outcome. The answer's writes begin with the reply words, for DONE and NODE-REJECTED, then the word at 0x108, and the answer number
last (R127); past the cut-off they begin without a check. PATIENCE_EXPIRY (R124): TIMED-OUT, with an ABANDON owed if a segment was sent, in
RUN alone (R129). ABANDON_SENT (R123): no ABANDON is owed any more. ANSWER_WRITE_COMPLETE (R127, R116): the answer is counted and
CAUSE.PARCEL set; the entry is gone, and after an immediate or the deferred answer the walk passes on. An access of an answer in progress as
RESTING is entered ends there without or with an error, and the entries keep their state (R129); that the answer goes on from that end at
HELD is the model's choice (log 37). -/
def Obligations.ParcelsEnd : Prop :=
  (∀ (s : State) (i : NodeIx) (slot : SlotIx) (tag segment : Byte) (e : Parcel) (n : Nat) (f : Frame) (dt : Nat),
    s.part.ladder.state = .run → s.part.frames.state = .guarding →
    s.part.frames.exchange = some (.seg i slot tag segment) → s.part.frames.outcome = some .good →
    s.part.frames.rx = some f → s.part.parcelOf slot = some e → e.transfer = .sending n →
    ∃ (t : State) (e' : Parcel), exec (.guardEnd dt) s = .next t ∧ t.part.parcelOf slot = some e' ∧ e'.attempts = 0 ∧
      (t.part.node i).lastGood = s.part.sched.cycle ∧ (t.part.node i).missCount = (s.part.node i).missCount ∧
      (n = lastSegment e.request.length → e'.transfer = .asking 0 ∧ e'.pastCutoff = true) ∧
      (n ≠ lastSegment e.request.length → e'.transfer = .sending (n + 1) ∧ e'.pastCutoff = e.pastCutoff)) ∧
  (∀ (s : State) (i : NodeIx) (slot : SlotIx) (tag segment : Byte) (e : Parcel) (a : Attempt) (dt : Nat),
    s.part.ladder.state = .run → s.part.frames.state = .guarding →
    s.part.frames.exchange = some (.seg i slot tag segment) ∨ s.part.frames.exchange = some (.next i slot tag segment) →
    s.part.frames.outcome = some a → (a = .good → s.part.frames.rx.isSome = true) → s.part.parcelOf slot = some e →
    e.transfer = .finishing →
    ∃ (t : State) (e' : Parcel), exec (.guardEnd dt) s = .next t ∧ t.part.parcelOf slot = some e' ∧
      e'.transfer = .finishing ∧ e'.outcome = e.outcome ∧ e'.nodeStatus = e.nodeStatus ∧ e'.reply = e.reply ∧
      e'.abandonOwed = e.abandonOwed ∧
      (s.part.frames.exchange = some (.seg i slot tag segment) → a = .good →
        e'.pastCutoff = (e.pastCutoff || segment.getLsbD 7)) ∧
      (s.part.frames.exchange = some (.next i slot tag segment) ∨ a ≠ .good → e'.pastCutoff = e.pastCutoff)) ∧
  (∀ (s : State) (i : NodeIx) (slot : SlotIx) (tag wanted : Byte) (e : Parcel) (f : Frame) (dt : Nat),
    s.part.ladder.state = .run → s.part.frames.state = .guarding →
    s.part.frames.exchange = some (.next i slot tag wanted) → s.part.frames.outcome = some .good →
    s.part.frames.rx = some f → s.part.parcelOf slot = some e → e.transfer = .asking wanted.toNat →
    let n := wanted.toNat
    let total := (payloadByte f.payload 3).toNat
    let status := payloadByte f.payload 2
    let consistent := total ≤ 240 ∧ (n ≠ 0 → total = e.total) ∧ f.payload.length - 4 = min 48 (total - 48 * n) ∧
      ((payloadByte f.payload 1).getLsbD 7 = true ↔ n = lastSegment total)
    ∃ (t : State) (e' : Parcel), exec (.guardEnd dt) s = .next t ∧ t.part.parcelOf slot = some e' ∧
      (t.part.node i).lastGood = s.part.sched.cycle ∧ (t.part.node i).missCount = (s.part.node i).missCount ∧
      (f.flag 0 = true → e'.transfer = e.transfer ∧ e'.attempts = 0 ∧ e'.reply = e.reply ∧ e'.total = e.total) ∧
      (f.flag 0 = false → consistent →
        e'.reply = e.reply.take (48 * n) ++ f.payload.drop 4 ∧ e'.total = total ∧ e'.attempts = 0 ∧
        (n ≠ lastSegment total → e'.transfer = .asking (n + 1)) ∧
        (n = lastSegment total → e'.transfer = .finishing ∧ e'.abandonOwed = false ∧ e'.nodeStatus = status ∧
          e'.outcome = (if status = 0 then .done else .nodeRejected) ∧
          (e.pastCutoff = true → s.part.parcels.answering = none → s.part.parcels.answers = [] →
            ∃ writes, e'.answeredBy writes ∧ t.part.parcels.answering = some (.writing writes) ∧
              ∀ first, writes.head? = some first → t.part.asks { offset := first.1, write := some first.2, source := .answer }))) ∧
      (f.flag 0 = false → ¬ consistent → e'.attempts = e.attempts + 1 ∧ e'.reply = e.reply ∧ e'.total = e.total ∧
        (e.attempts + 1 ≠ 3 → e'.transfer = e.transfer) ∧
        (e.attempts + 1 = 3 → e'.transfer = .finishing ∧ e'.outcome = .transferFailed ∧ e'.nodeStatus = 0 ∧
          e'.abandonOwed = true))) ∧
  (∀ (s : State) (i : NodeIx) (slot : SlotIx) (tag segment : Byte) (e : Parcel) (a : Attempt) (dt : Nat),
    s.part.ladder.state = .run → s.part.frames.state = .guarding →
    s.part.frames.exchange = some (.seg i slot tag segment) ∨ s.part.frames.exchange = some (.next i slot tag segment) →
    s.part.frames.outcome = some a → a ≠ .good → s.part.parcelOf slot = some e →
    ((∃ n, e.transfer = .sending n) ∨ ∃ n, e.transfer = .asking n) →
    ∃ (t : State) (e' : Parcel), exec (.guardEnd dt) s = .next t ∧ t.part.parcelOf slot = some e' ∧
      e'.attempts = e.attempts + 1 ∧ (t.part.node i).missCount = (s.part.node i).missCount ∧
      (e.attempts + 1 ≠ 3 → e'.transfer = e.transfer) ∧
      (e.attempts + 1 = 3 → e'.transfer = .finishing ∧ e'.outcome = .transferFailed ∧ e'.nodeStatus = 0 ∧
        e'.abandonOwed = true)) ∧
  (∀ (p : Part) (e : Parcel),
    p.parcelEligible e = true ↔
      ((p.node e.node).state = .live ∨ (p.node e.node).state = .suspect) ∧
      ((∃ n, e.transfer = .sending n) ∨ (∃ n, e.transfer = .asking n) ∨
       e.transfer = .finishing ∧ e.abandonOwed = true ∨
       e.transfer = .waiting ∧
        (∀ o ∈ p.parcels.queue, o.slot ≠ e.slot → o.node = e.node → o.inTransfer = false) ∧
        (∀ o ∈ p.parcels.queue.takeWhile (·.slot != e.slot), o.node = e.node → o.transfer ≠ .waiting))) ∧
  (∀ (p : Part) (pos : Nat),
    p.parcels.passPos = some pos →
    ((p.parcelNext.parcels.queue.map fun o => (o.slot, o.transfer, o.attempts)) =
      p.parcels.queue.map fun o => (o.slot, o.transfer, o.attempts)) ∧
    (∀ e, (p.parcels.queue.drop pos).find? (fun o => p.parcelEligible o && !o.given && !o.passed) = some e →
      p.parcelServed p.parcelNext 0 e ∧
      (e.sendsNext = false → p.parcelNext.sched.state = .parcelling →
        p.parcelNext.parcels.passPos = some ((p.parcels.queue.takeWhile (·.slot != e.slot)).length + 1) ∧
        p.parcelNext.parcels.passNamed = true ∧ ∀ o ∈ p.parcelNext.parcels.queue, o.slot = e.slot → o.given = true)) ∧
    ((p.parcels.queue.drop pos).find? (fun o => p.parcelEligible o && !o.given && !o.passed) = none →
      p.parcels.passNamed = false → p.parcelNext.sched.state = .closing) ∧
    ((p.parcels.queue.drop pos).find? (fun o => p.parcelEligible o && !o.given && !o.passed) = none →
      p.parcels.passNamed = true →
      (∀ e, p.parcels.queue.find? (fun o => p.parcelEligible o && !o.passed) = some e → p.parcelServed p.parcelNext 0 e) ∧
      (p.parcels.queue.find? (fun o => p.parcelEligible o && !o.passed) = none → p.parcelNext.sched.state = .closing))) ∧
  (∀ (s : State) (x : Access) (e : Parcel) (slot : SlotIx) (host : Option Word) (dt : Nat) (w : Word),
    s.current = some x → x.source = .withdraw → s.part.ladder.softPending = false → s.part.ladder.state = .run →
    s.part.sched.withdrawRead = some slot → s.part.parcelOf slot = some e → s.part.parcelEligible e = true →
    w = x.value s.port.area (x.memAfter s.port.area host s.mem) →
    ∃ t, exec (.withdrawCheck host dt) s = .next t ∧
      (e.sendsNext = true ↔ e.transfer = .waiting ∨ ∃ n, e.transfer = .sending n) ∧
      (e.sendsNext = false → ∃ e', t.part.parcelOf slot = some e' ∧ e'.transfer = e.transfer ∧
        e'.outcome = e.outcome ∧ e'.abandonOwed = e.abandonOwed) ∧
      (e.sendsNext = true → w.extractLsb' 0 16 = e.ask → ∃ e', t.part.parcelOf slot = some e' ∧
        e'.transfer = .finishing ∧ e'.outcome = .withdrawn ∧ e'.abandonOwed = e.segSent) ∧
      (e.sendsNext = true → w.extractLsb' 0 16 = e.ask → e.segSent = true → s.part.abandonGiven t.part dt e) ∧
      (e.sendsNext = true → w.extractLsb' 0 16 ≠ e.ask → ∃ (n : Nat) (e' : Parcel), t.part.parcelOf slot = some e' ∧
        (e.transfer = .sending n ∨ e.transfer = .waiting ∧ n = 0) ∧ s.part.segGiven t.part dt e n ∧
        e'.attempts = e.attempts ∧
        (s.part.fitsIn dt (74 + s.part.replyTime e.node) → e'.transfer = .sending n ∧ e'.segSent = true ∧
          e'.given = true ∧ t.part.parcels.passNamed = true ∧
          t.part.parcels.passPos = some ((s.part.parcels.queue.takeWhile (·.slot != slot)).length + 1)) ∧
        (¬ s.part.fitsIn dt (74 + s.part.replyTime e.node) → e'.transfer = e.transfer ∧ e'.segSent = e.segSent))) ∧
  (∀ (s : State) (e : Parcel) (slot : SlotIx), s.part.ladder.state = .run → s.part.sched.parcelOpen = .expiring →
    s.part.parcelOf slot = some e → e.transfer ≠ .finishing → e.patience = 0 →
    ∃ t, exec (.patienceExpiry slot) s = .next t ∧
      ∃ e', t.part.parcelOf slot = some e' ∧ e'.transfer = .finishing ∧ e'.outcome = .timedOut ∧
        e'.abandonOwed = e.segSent) ∧
  (∀ (s : State) (slot : SlotIx), s.part.ladder.state ≠ .run → exec (.patienceExpiry slot) s = .next s) ∧
  (∀ (s : State) (i : NodeIx) (e : Parcel) (slot : SlotIx) (dt : Nat), s.part.ladder.state = .run →
    s.part.frames.state = .guarding → s.part.frames.exchange = some (.abandon i slot) →
    s.part.parcelOf slot = some e →
    ∃ t, exec (.abandonSent dt) s = .next t ∧
      ∃ e', t.part.parcelOf slot = some e' ∧ e'.abandonOwed = false ∧ e'.outcome = e.outcome ∧
        e'.transfer = e.transfer) ∧
  (∀ (s : State) (x : Access) (e : Parcel) (slot : SlotIx) (last : Nat × Word) (rest : List AnswerFor),
    s.current = some x → x.source = .answer → s.part.ladder.softPending = false → s.part.ladder.state.pauses = false →
    s.part.parcels.answering = some (.writing [last]) → s.part.parcels.answers = .entry slot :: rest →
    s.part.parcelOf slot = some e →
    ∃ t, exec .answerWriteComplete s = .next t ∧ t.part.parcelOf slot = none ∧ t.part.hasCause .parcel = true ∧
      t.part.counter .parcelsDone = s.part.counter .parcelsDone + (if e.outcome = .done then 1 else 0) ∧
      t.part.counter .parcelsOtherwise = s.part.counter .parcelsOtherwise + (if e.outcome = .done then 0 else 1)) ∧
  (∀ (s : State) (x : Access) (e : Parcel) (slot : SlotIx) (rest : List AnswerFor) (host : Option Word) (dt : Nat)
    (w : Word), s.current = some x → x.source = .answer → s.part.ladder.softPending = false →
    s.part.ladder.state.pauses = false → s.part.parcels.answering = some .checking → s.part.parcels.answers = .entry slot :: rest →
    s.part.parcelOf slot = some e → w = x.value s.port.area (x.memAfter s.port.area host s.mem) →
    let checked := if e.pastCutoff = false ∧ w.extractLsb' 0 16 = e.ask then { e with outcome := .withdrawn, nodeStatus := 0 }
      else e
    ∃ (t : State) (e' : Parcel), exec (.withdrawCheck host dt) s = .next t ∧ t.part.parcelOf slot = some e' ∧
      e'.outcome = checked.outcome ∧ e'.nodeStatus = checked.nodeStatus ∧
      ∃ writes, checked.answeredBy writes ∧ t.part.parcels.answering = some (.writing writes) ∧
        ∀ first, writes.head? = some first → t.part.asks { offset := first.1, write := some first.2, source := .answer }) ∧
  (∀ (s : State) (x : Access) (last : Nat × Word) (rest : List AnswerFor) (a : AnswerFor) (outcome : ParcelOutcome),
    s.current = some x → x.source = .answer → s.part.ladder.softPending = false → s.part.ladder.state.pauses = false →
    s.part.parcels.answering = some (.writing [last]) → s.part.parcels.answers = a :: rest →
    (∃ slot ask, a = .immediate slot ask outcome) ∨
      a = .deferred ∧ (∃ d, s.part.parcels.deferred = some d ∧ d.outcome = outcome ∧
        ∀ walked left, s.part.parcels.walk = .answering walked left → walked = d.slot) →
    ∃ t, exec .answerWriteComplete s = .next t ∧ t.part.hasCause .parcel = true ∧
      t.part.counter .parcelsTaken = s.part.counter .parcelsTaken + 1 ∧
      t.part.counter .parcelsDone = s.part.counter .parcelsDone + (if outcome = .done then 1 else 0) ∧
      t.part.counter .parcelsOtherwise = s.part.counter .parcelsOtherwise + (if outcome = .done then 0 else 1) ∧
      (a = .deferred → t.part.parcels.deferred = none) ∧
      (∀ slot left, s.part.parcels.walk = .answering slot left →
        (∀ k ask, a = .immediate k ask outcome → k = slot) → 1 < left →
        t.part.parcels.walk = .visit (slot + 1) (left - 1) [])) ∧
  (∀ (s : State) (x : Access) (host : Option Word) (dt : Nat), s.current = some x → x.source = .answer →
    s.part.ladder.softPending = false → s.part.ladder.state = .resting ∨ s.part.ladder.state = .rousing →
    let ends := fun host t =>
      t.part.parcels = { s.part.parcels with
        keptEnd := some (.answer (some (x.value s.port.area (x.memAfter s.port.area host s.mem)))) }
    (∃ t, exec (.memoryAccessComplete host dt) s = .next t ∧ ends host t) ∧
    (s.part.parcels.answering = some .checking → ∃ t, exec (.withdrawCheck host dt) s = .next t ∧ ends host t) ∧
    (∀ last, s.part.parcels.answering = some (.writing [last]) → ∃ t, exec .answerWriteComplete s = .next t ∧ ends none t) ∧
    (∃ t, exec (.memoryErrorResponse dt) s = .next t ∧
      t.part.parcels = { s.part.parcels with keptEnd := some (.answer none) }))

/-! ## Counts of the open, and snapshots -/

/-- REPROBE_COUNTDOWN_EXPIRY (R16, R17, R18, R5): the LOST node is in PROBING with miss count 0, its loss policy applied, and its status
record to be written; the end of that write, without or with an error, sets CAUSE.NODE, and clears or sets status owed (R5, R21); in
STARTING a failed write sets status owed too, and start-up ends (R25). In RUN patience is lowered in each entry of WAITING, SENDING and
ASKING taken before the cycle of the open once the last answer that the open writes again has been written (R128, R124); that it is
lowered exactly then, whatever the scheduler does meanwhile, is the model's choice (log 47). STAT_PERIOD_EXPIRY (R166, R167): the period
count is 0 and a snapshot begins with the odd sequence value, from the counters as they stand. SNAPSHOT_END (R166): the snapshot is over,
or the one owed begins. That the two expiries are steps of their own is the model's choice (log 14), and that a snapshot waits for the
stat ask read of its open is its inference (log 27). -/
def Obligations.CountsExpire : Prop :=
  (∀ (s : State) (i : NodeIx), s.part.sched.nodeOpen = .expiring → s.part.ladder.state = .run →
    (s.part.node i).state = .lost → (s.part.node i).countdown = some 0 →
    ∃ t, exec (.reprobeCountdownExpiry i) s = .next t ∧ (t.part.node i).state = .probing ∧
      (t.part.node i).missCount = 0 ∧ (t.part.node i).countdown = none ∧
      (t.part.node i).changeCount = (s.part.node i).changeCount + 1 ∧
      lossApplied (s.part.node i).applied s.part.loader.settings.inBytes s.part.images.shadow t.part.images.shadow ∧
      t.part.faults.cause = s.part.faults.cause ∧ { node := i, cause := true } ∈ t.part.table.writes) ∧
  (∀ (s : State) (x : Access) (w : StatusWrite) (rest : List StatusWrite) (k : Fin 4) (dt : Nat), s.current = some x →
    s.part.ladder.softPending = false → s.part.ladder.state = .starting → s.part.table.writes = w :: rest →
    x.source = .status k →
    ∃ t, exec (.memoryErrorResponse dt) s = .next t ∧ t.part.ladder.state = .idle ∧
      (t.part.node w.node).statusOwed = true ∧ (t.part.node w.node).state = (s.part.node w.node).state) ∧
  (∀ (s : State) (x : Access) (w : StatusWrite) (rest : List StatusWrite) (dt : Nat), s.current = some x →
    s.part.ladder.softPending = false → s.part.ladder.state ≠ .starting → s.part.table.writes = w :: rest →
    (x.source = .status 3 →
      ∃ t, exec (.memoryAccessComplete none dt) s = .next t ∧ (t.part.node w.node).statusOwed = false ∧
        t.part.hasCause .node = (s.part.hasCause .node || w.cause) ∧ rest <+: t.part.table.writes) ∧
    (∀ k, x.source = .status k →
      ∃ t, exec (.memoryErrorResponse dt) s = .next t ∧ (t.part.node w.node).statusOwed = true ∧
        t.part.hasCause .node = (s.part.hasCause .node || w.cause) ∧ rest <+: t.part.table.writes)) ∧
  (∀ (s : State) (x : Access) (e : Parcel) (slot : SlotIx) (last : Nat × Word) (rest : List AnswerFor),
    s.current = some x → x.source = .answer → s.part.ladder.softPending = false → s.part.ladder.state = .run →
    s.part.sched.parcelOpen = .rewriting → s.part.parcels.answering = some (.writing [last]) →
    s.part.parcels.answers = .entry slot :: rest → s.part.parcelOf slot = some e →
    let rewritten := ∃ k o, .entry k ∈ rest ∧ k ≠ slot ∧ s.part.parcelOf k = some o ∧ o.answerFailed = true
    ∃ t, exec .answerWriteComplete s = .next t ∧
      (rewritten → t.part.sched.parcelOpen = .rewriting ∧ ∀ k o, k ≠ slot → s.part.parcelOf k = some o →
        ∃ o', t.part.parcelOf k = some o' ∧ o'.patience = o.patience ∧ o'.transfer = o.transfer) ∧
      (¬ rewritten → t.part.sched.parcelOpen ≠ .rewriting ∧ ∀ k o, k ≠ slot → s.part.parcelOf k = some o →
        ∃ o', t.part.parcelOf k = some o' ∧ o'.transfer = o.transfer ∧
          o'.patience = (if o.transfer ≠ .finishing ∧ s.part.sched.parcelOwed < (s.part.sched.cycle - o.takenIn).toNat
            then o.patience - 1 else o.patience))) ∧
  (∀ s : State, s.part.faults.periodDue = true → s.part.faults.askReading = false → s.part.ladder.state = .run →
    s.part.faults.snapState = .idle → s.part.faults.snapshot = none →
    ∃ (t : State) (n : Snapshot), exec .statPeriodExpiry s = .next t ∧ t.part.faults.periodCount = 0 ∧
      t.part.faults.snapState = .writing ∧ t.part.faults.snapshot = some n ∧
      n.counters = s.part.faults.counters ∧ n.cycle = s.part.sched.cycle ∧ n.ask = s.part.faults.askSeen ∧
      (∀ i, n.totals.get i = ((s.part.node i).pollTotal, (s.part.node i).missTotal)) ∧
      t.part.faults.snapSeq.getLsbD 0 = true ∧
      t.part.faults.snapSeq = s.part.faults.snapSeq + (if s.part.faults.snapSeq.getLsbD 0 then 2 else 1)) ∧
  (∀ (s : State) (x : Access) (n : Snapshot), s.current = some x → x.source = .snapshot →
    s.part.ladder.softPending = false → s.part.ladder.state = .run → s.part.faults.triggered = false →
    s.part.faults.snapshot = some n → n.pos + 1 = 172 →
    ∃ t, exec .snapshotEnd s = .next t ∧
      (s.part.faults.snapState = .writing →
        t.part.faults.snapState = .idle ∧ t.part.faults.snapshot = none ∧
        t.part.faults.snapSeq = s.part.faults.snapSeq) ∧
      (s.part.faults.snapState = .owed →
        t.part.faults.snapState = .writing ∧ t.part.faults.snapshot.isSome = true ∧
        t.part.faults.snapSeq.getLsbD 0 = true))

/-! ## Configuration -/

/-- The judgement of a directory (R137 to R140, R134, Tables 8-2 to 8-4): eight checks in order, each over the whole directory before the
next, its first failure in rising index deciding the verdict. The line settings in their ranges; over the enabled entries, line addresses
from 1 to 250 and no two alike, every timing field in its range, every slice inside its image and no two of one image with a byte in
common, in a pair the higher index named; no line-level change in RUN; and for each residue the worst-case poll phase, every attempt of
every entry due and two probes at the largest reply timeout, within the cycle period with the close allowance, the lowest residue that
fails named. Where none fails it is accepted, with entry index 0 and residue 0. -/
def Obligations.DirectoryAccepted : Prop :=
  ∀ (d : Directory) (applied : Option LineSettings),
    let entry := fun i => (d.entries.get i).entry
    let on := fun i => (entry i).enabled = true
    let badLine := ¬ (d.settings.bitRate ≤ 3 ∧ 10 ≤ d.settings.cyclePeriod ∧ d.settings.cyclePeriod ≤ 10000 ∧
      d.settings.outBytes ≤ 3072 ∧ d.settings.inBytes ≤ 3072 ∧ d.settings.initialWindow ∈ [2, 4, 8, 16, 32] ∧
      1 ≤ d.settings.cycleDivisor ∧ 1 ≤ d.settings.patience ∧ 1 ≤ d.settings.rouseTime ∧
      4 ≤ d.settings.defaultTimeout)
    let badAddress := fun i => on i ∧ ¬ (1 ≤ (entry i).address.toNat ∧ (entry i).address.toNat ≤ 250)
    let duplicate := fun j => on j ∧ ∃ i, i < j ∧ on i ∧ (entry i).address = (entry j).address
    let badTiming := fun i => on i ∧
      ¬ ((entry i).periodClass ∈ [1, 2, 4, 8] ∧ (entry i).phase < (entry i).periodClass ∧ (entry i).outLength ≤ 63 ∧
        (entry i).inLength ≤ 64 ∧ ((entry i).replyTimeout = 0 ∨ 4 ≤ (entry i).replyTimeout) ∧ (entry i).retries ≤ 3 ∧
        1 ≤ (entry i).missLimit ∧ (entry i).missLimit ≤ 15 ∧ (d.entries.get i).lossValid = true)
    let outside := fun i => on i ∧
      ¬ (((entry i).outLength = 0 ∨ (entry i).outOffset + (entry i).outLength ≤ d.settings.outBytes) ∧
        ((entry i).inLength = 0 ∨ (entry i).inOffset + (entry i).inLength ≤ d.settings.inBytes))
    let overlaps := fun j => on j ∧ ∃ i, i < j ∧ on i ∧ ∃ k,
      (entry i).outOffset ≤ k ∧ k < (entry i).outOffset + (entry i).outLength ∧
        (entry j).outOffset ≤ k ∧ k < (entry j).outOffset + (entry j).outLength ∨
      (entry i).inOffset ≤ k ∧ k < (entry i).inOffset + (entry i).inLength ∧
        (entry j).inOffset ≤ k ∧ k < (entry j).inOffset + (entry j).inLength
    let lineChange := ∃ l, applied = some l ∧ ¬ (l.bitRate = d.settings.bitRate ∧ l.cyclePeriod = d.settings.cyclePeriod ∧
      l.outBytes = d.settings.outBytes ∧ l.inBytes = d.settings.inBytes)
    let timeout := fun i =>
      if (entry i).replyTimeout = 0 then d.settings.defaultTimeout else (entry i).replyTimeout
    let polls := fun r => ((List.finRange 48).map fun i =>
      if (entry i).enabled ∧ r % (entry i).periodClass = (entry i).phase then
        ((entry i).retries + 1) * (19 + (entry i).outLength + (entry i).inLength + timeout i) else 0).sum
    let probes := if ∃ i, on i then
        2 * (22 + ((List.finRange 48).map fun i => if (entry i).enabled then timeout i else 0).foldl max 0) else 0
    let halfMicroseconds := fun rate : Nat => if rate = 0 then 40 else if rate = 1 then 20 else if rate = 2 then 10 else 5
    let overBudget := fun r =>
      20 * d.settings.cyclePeriod < (polls r + probes) * halfMicroseconds d.settings.bitRate + 80
    let first := fun (bad : NodeIx → Prop) i => bad i ∧ ∀ j, j < i → ¬ bad j
    let naming := fun (code : VerdictCode) (i : NodeIx) =>
      judge d applied = { code := code, entry := BitVec.ofNat 8 i.val, residue := 0 }
    let passes1 := ¬ badLine
    let passes2 := passes1 ∧ ∀ i, ¬ badAddress i
    let passes3 := passes2 ∧ ∀ i, ¬ duplicate i
    let passes4 := passes3 ∧ ∀ i, ¬ badTiming i
    let passes5 := passes4 ∧ ∀ i, ¬ outside i
    let passes6 := passes5 ∧ ∀ i, ¬ overlaps i
    let passes7 := passes6 ∧ ¬ lineChange
    (badLine → judge d applied = { code := .badLineSetting, entry := 255, residue := 0 }) ∧
    (∀ i, passes1 → first badAddress i → naming .badAddress i) ∧
    (∀ i, passes2 → first duplicate i → naming .duplicateAddress i) ∧
    (∀ i, passes3 → first badTiming i → naming .badTiming i) ∧
    (∀ i, passes4 → first outside i → naming .sliceOutside i) ∧
    (∀ i, passes5 → first overlaps i → naming .sliceOverlap i) ∧
    (passes6 → lineChange → judge d applied = { code := .lineChangeInRun, entry := 255, residue := 0 }) ∧
    (∀ r, r < 8 → passes7 → overBudget r → (∀ q, q < r → ¬ overBudget q) →
      judge d applied = { code := .pollBudget, entry := 255, residue := BitVec.ofNat 8 r }) ∧
    (passes7 → (∀ r, r < 8 → ¬ overBudget r) → judge d applied = { code := .accepted, entry := 0, residue := 0 }) ∧
    ((judge d applied).code = .accepted → passes7 ∧ ∀ r, r < 8 → ¬ overBudget r)

/-- A generation read that equals the accepted or the refused generation attempts no commit, and the accepted one clears the refused; any
other, and in start-up every one, has the directory read (R135, R144). A second generation read that differs from the first drops the copy:
nothing is judged or written, and the check ends, or in start-up is made again at once (R136). The judgement of a directory whose two
generation reads agree (R136, R139, R141, R142). Refused, the applied configuration stays and
the generation is the refused one; accepted, the settings and every record's applied part are those of the directory, the generation
is accepted, the window size is loaded and the stray set empty, and the commit is counted. Each record is treated by Table 1-4 and R7,
with its event state cleared where it is re-created (R108) and its status record written (R20); the input shadow is zero where a loss
policy CLEAR applies and beyond the new size (R19, R72), and elsewhere as it was; an entry whose record has lost its address is finished
(R126). Then the verdict word, after the status records, and for an accepted commit the accepted generation word, whose end sets
CAUSE.COMMIT; a refusal is reported CONFIG-REFUSED after its verdict's write; a failed write sets verdict owed (R143, R141). That a
refusal is reported after that write, with or without an error, is log 17, and that the verdict waits for every status record write is
log 41. That a directory whose reads end while the line rests is judged as HELD is next entered is the model's choice (log 37). -/
def Obligations.CommitJudged : Prop :=
  let dropped := fun (s : State) (c : Check) (t : State) =>
    t.part.loader.accepted = s.part.loader.accepted ∧ t.part.loader.verdict = s.part.loader.verdict ∧
    t.part.loader.settings = s.part.loader.settings ∧
    (∀ i, (t.part.node i).applied = (s.part.node i).applied ∧ (t.part.node i).state = (s.part.node i).state) ∧
    t.part.windows = s.part.windows ∧ t.part.images = s.part.images ∧ t.part.faults.capture = s.part.faults.capture ∧
    t.part.counter .commitsAccepted = s.part.counter .commitsAccepted ∧ t.part.hasCause .commit = s.part.hasCause .commit ∧
    (c.origin = .opening → t.part.sched.loaderReady = true) ∧
    (c.origin = .opening ∨ s.part.loader.checkOwed = false →
      t.part.loader.check = none ∧ ∀ a ∈ t.part.requested, a.source = .loader → a ∈ s.part.requested)
  (∀ (s : State) (x : Access) (c : Check) (host : Option Word) (dt : Nat) (g : Word), s.current = some x →
    x.source = .loader → s.part.ladder.softPending = false → s.part.ladder.state ≠ .heldService →
    s.part.loader.check = some c → c.pos = .readGeneration →
    g = x.value s.port.area (x.memAfter s.port.area host s.mem) →
    ∃ t, exec (.memoryAccessComplete host dt) s = .next t ∧
      (c.origin ≠ .startup → s.part.ladder.state ≠ .starting → g = s.part.loader.accepted ∨ s.part.loader.refused = some g →
        dropped s c t ∧ t.part.loader.refused = (if g = s.part.loader.accepted then none else some g)) ∧
      (c.origin = .startup ∨ g ≠ s.part.loader.accepted ∧ s.part.loader.refused ≠ some g →
        t.part.loader =
          { s.part.loader with check := some { origin := c.origin, pos := .readDirectory, generation := g, words := [] } } ∧
        t.part.asks { offset := 0x100, write := none, source := .loader })) ∧
  (∀ (s : State) (x : Access) (c : Check) (host : Option Word) (dt : Nat) (g : Word), s.current = some x →
    x.source = .loader → s.part.ladder.softPending = false → s.part.ladder.state ≠ .heldService →
    s.part.loader.check = some c → c.pos = .rereadGeneration →
    g = x.value s.port.area (x.memAfter s.port.area host s.mem) → g ≠ c.generation →
    ∃ t, exec (.memoryAccessComplete host dt) s = .next t ∧
      (c.origin ≠ .startup → s.part.ladder.state ≠ .starting →
        dropped s c t ∧ t.part.loader.refused = s.part.loader.refused) ∧
      (c.origin = .startup →
        t.part.loader = { s.part.loader with check := some { c with pos := .readGeneration, words := [] } } ∧
        t.part.asks { offset := 0x04, write := none, source := .loader })) ∧
  (∀ (s : State) (x : Access) (c : Check) (dt : Nat) (d : Directory) (j : Judgement), s.current = some x →
    x.source = .loader → x.write = none → s.part.ladder.softPending = false → s.part.loader.check = some c →
    c.pos = .rereadGeneration → s.mem.readWord (busAddress s.port.area x.offset) = c.generation →
    s.part.ladder.state.pauses = false → d = directoryOf c.words.reverse →
    j = judge d (if s.part.ladder.state = .run then some s.part.loader.settings else none) →
    let new := fun i => (d.entries.get i).applied
    let old := fun i => (s.part.node i).applied
    let created := fun i => (new i).enabled = true ∧ ((old i).enabled = false ∨ ¬ ((old i).address = (new i).address ∧
      (old i).expectedKind = (new i).expectedKind ∧ (old i).outLength = (new i).outLength ∧
      (old i).inLength = (new i).inLength))
    let lowered := fun i => (s.part.node i).state = .suspect ∧ (new i).missLimit ≤ (s.part.node i).missCount
    let kept := fun i => (new i).enabled = true ∧ ¬ created i
    let cleared := fun (e : NodeEntry) (k : Nat) =>
      e.loss = .clear ∧ e.inOffset ≤ k ∧ k < e.inOffset + e.inLength ∧ k < d.settings.inBytes
    ∃ t, exec (.memoryAccessComplete none dt) s = .next t ∧ t.part.loader.verdict = j.verdict c.generation ∧
      (j.code ≠ .accepted →
        t.part.loader.settings = s.part.loader.settings ∧ t.part.table.records = s.part.table.records ∧
        t.part.loader.accepted = s.part.loader.accepted ∧ t.part.loader.refused = some c.generation ∧
        t.part.windows = s.part.windows ∧ t.part.images = s.part.images ∧
        t.part.faults.counters = s.part.faults.counters ∧
        t.part.asks { offset := 0x58, write := some (j.verdict c.generation).word, source := .loader }) ∧
      (j.code = .accepted →
        t.part.loader.settings = d.settings ∧ (∀ i, (t.part.node i).applied = new i) ∧
        t.part.loader.accepted = c.generation ∧ t.part.loader.refused = none ∧
        t.part.windows.size.slots = d.settings.initialWindow ∧ t.part.windows.streak = 0 ∧
        t.part.windows.lastClash = false ∧ t.part.windows.strays = [] ∧
        t.part.counter .commitsAccepted = s.part.counter .commitsAccepted + 1 ∧
        (∀ i, (new i).enabled = false →
          (t.part.node i).state = .excluded ∧ (t.part.node i).missCount = 0 ∧ (t.part.node i).countdown = none) ∧
        (∀ i, created i →
          (t.part.node i).state = .probing ∧ (t.part.node i).missCount = 0 ∧ (t.part.node i).countdown = none ∧
          (t.part.node i).kindSeen = (s.part.node i).kindSeen ∧
          (t.part.node i).revisionSeen = (s.part.node i).revisionSeen ∧
          (t.part.node i).misfit = (s.part.node i).misfit ∧
          (t.part.nodeEvents i).latch = false ∧ (t.part.nodeEvents i).ackOwed = false ∧ i ∉ t.part.events.queue ∧
          (c.origin ≠ .startup → (t.part.nodeEvents i).valid = false)) ∧
        (∀ i, kept i → lowered i →
          (t.part.node i).state = .lost ∧ (t.part.node i).missCount = (new i).missLimit ∧
          (c.origin ≠ .opening → (t.part.node i).countdown =
            (if (new i).reprobeDelay = 0 then none else some (new i).reprobeDelay))) ∧
        (∀ i, kept i → ¬ lowered i →
          (t.part.node i).state = (s.part.node i).state ∧
          (t.part.node i).missCount =
            (if (s.part.node i).state = .lost then (new i).missLimit else (s.part.node i).missCount) ∧
          (c.origin ≠ .opening → (s.part.node i).state = .lost → (t.part.node i).countdown =
            (if (new i).reprobeDelay = 0 then none
             else some ((s.part.node i).countdown.getD (new i).reprobeDelay)))) ∧
        (∀ i, (t.part.node i).changeCount = (s.part.node i).changeCount +
          (if (t.part.node i).state = (s.part.node i).state then 0 else 1)) ∧
        (∀ i, c.origin ≠ .startup → s.part.ladder.state ≠ .starting →
          ((t.part.node i).state ≠ (s.part.node i).state → { node := i, cause := true } ∈ t.part.table.writes) ∧
          ((t.part.node i).state = (s.part.node i).state → new i ≠ old i →
            { node := i, cause := false } ∈ t.part.table.writes)) ∧
        (∀ k,
          (d.settings.inBytes ≤ k ∧ k < s.part.loader.settings.inBytes ∨
           (∃ i, (old i).enabled = true ∧ ((new i).enabled = false ∨ created i) ∧ cleared (old i) k) ∨
           (∃ i, (created i ∨ kept i ∧ lowered i) ∧ cleared (new i) k) → t.part.images.shadow.readByte k = 0) ∧
          (¬ (d.settings.inBytes ≤ k ∧ k < s.part.loader.settings.inBytes ∨
           (∃ i, (old i).enabled = true ∧ ((new i).enabled = false ∨ created i) ∧ cleared (old i) k) ∨
           (∃ i, (created i ∨ kept i ∧ lowered i) ∧ cleared (new i) k)) →
            t.part.images.shadow.readByte k = s.part.images.shadow.readByte k)) ∧
        ((s.part.parcels.queue.map Parcel.slot).Nodup → ∀ e ∈ s.part.parcels.queue,
          (new e.node).enabled = false ∨ (new e.node).address ≠ e.address →
          ∃ e' ∈ t.part.parcels.queue, e'.slot = e.slot ∧ e'.transfer = .finishing ∧ e'.abandonOwed = false ∧
            (e.transfer = .finishing → e'.outcome = e.outcome) ∧
            (e.transfer ≠ .finishing → e'.outcome = .nodeUnavailable ∧ e'.nodeStatus = 0)) ∧
        (s.part.ladder.state ≠ .heldService → ∃ c', t.part.loader.check = some c' ∧ c'.origin = c.origin ∧
          (t.part.table.writes ≠ [] → c'.pos = .awaitStatus) ∧
          (t.part.table.writes = [] → c'.pos = .writeVerdict ∧
            t.part.asks { offset := 0x58, write := some (j.verdict c.generation).word, source := .loader })))) ∧
  (∀ (s : State) (x : Access) (c : Check) (dt : Nat), s.current = some x → x.source = .loader → x.write = none →
    s.part.ladder.softPending = false → s.part.loader.check = some c → c.pos = .rereadGeneration →
    s.mem.readWord (busAddress s.port.area x.offset) = c.generation → s.part.ladder.state.pauses = true →
    ∃ t, exec (.memoryAccessComplete none dt) s = .next t ∧
      t.part.loader = { s.part.loader with check := some { c with pos := .awaitHeld } }) ∧
  (∀ (s : State) (c : Check) (d : Directory) (j : Judgement), s.part.ladder.state = .rousing →
    s.part.ladder.rouse.isSome = true → s.part.loader.check = some c → c.pos = .awaitHeld →
    d = directoryOf c.words.reverse → j = judge d none →
    ∃ t, exec .rouseTimerExpiry s = .next t ∧ t.part.ladder.state = .held ∧
      t.part.loader.verdict = j.verdict c.generation ∧
      (j.code ≠ .accepted → t.part.loader.settings = s.part.loader.settings ∧ t.part.loader.refused = some c.generation ∧
        t.part.loader.accepted = s.part.loader.accepted) ∧
      (j.code = .accepted → t.part.loader.settings = d.settings ∧ t.part.loader.accepted = c.generation ∧
        ∀ i, (t.part.node i).applied = (d.entries.get i).applied)) ∧
  (∀ (s : State) (x : Access) (c : Check) (w : StatusWrite) (dt : Nat), s.current = some x → x.source = .status 3 →
    s.part.ladder.softPending = false → s.part.ladder.state ≠ .heldService → s.part.loader.check = some c →
    c.pos = .awaitStatus → s.part.table.writes = [w] → s.part.sched.state ≠ .opening →
    ∃ t, exec (.memoryAccessComplete none dt) s = .next t ∧ t.part.loader.check = some { c with pos := .writeVerdict } ∧
      t.part.asks { offset := 0x58, write := some s.part.loader.verdict.word, source := .loader }) ∧
  (∀ (s : State) (x : Access) (c : Check) (dt : Nat), s.current = some x → x.source = .loader →
    s.part.ladder.softPending = false → s.part.loader.check = some c →
    c.pos = .writeVerdict ∨ c.pos = .writeGeneration →
    (∃ t, exec (.memoryAccessComplete none dt) s = .next t ∧
      (c.pos = .writeVerdict → s.part.loader.verdict.code = .accepted →
        t.part.asks { offset := 0x54, write := some s.part.loader.accepted, source := .loader }) ∧
      (c.pos = .writeVerdict → s.part.loader.verdict.code ≠ .accepted → t.part.hasCause .fault = true ∧
        t.part.hasCause .commit = s.part.hasCause .commit ∧
        (s.part.hasCause .fault = false → t.part.faults.capture.code = 3 ∧
          t.part.faults.capture.detail = s.part.loader.verdict.entry ++ s.part.loader.verdict.code.code)) ∧
      (c.pos = .writeGeneration → t.part.hasCause .commit = true)) ∧
    (∃ t, exec (.memoryErrorResponse dt) s = .next t ∧ t.part.loader.verdictOwed = true ∧
      t.part.loader.verdict = s.part.loader.verdict ∧ t.part.loader.accepted = s.part.loader.accepted ∧
      t.part.hasCause .commit = s.part.hasCause .commit ∧
      (s.part.hasCause .fault = false → s.part.ladder.state ≠ .run ∨ s.part.sched.state ≠ .stopped →
        t.part.faults.capture.code = 1 ∧
        t.part.faults.capture.further =
          (if c.pos = .writeVerdict ∧ s.part.loader.verdict.code ≠ .accepted then 1 else 0)))) ∧
  (∀ (s : State) (x : Access) (c : Check) (dt : Nat), s.current = some x → x.source = .loader →
    s.part.ladder.softPending = false → s.part.loader.check = some c →
    c.pos = .rewriteVerdict ∨ c.pos = .rewriteGeneration →
    ∃ t, exec (.memoryAccessComplete none dt) s = .next t ∧
      (c.pos = .rewriteVerdict → s.part.loader.generationOwed = true ∨ s.part.loader.verdict.code = .accepted →
        t.part.loader.verdictOwed = s.part.loader.verdictOwed ∧
        t.part.asks { offset := 0x54, write := some s.part.loader.accepted, source := .loader }) ∧
      (c.pos = .rewriteVerdict → s.part.loader.generationOwed = false → s.part.loader.verdict.code ≠ .accepted →
        t.part.loader.verdictOwed = false) ∧
      (c.pos = .rewriteGeneration → t.part.loader.verdictOwed = false ∧
        (s.part.loader.verdict.code = .accepted → t.part.hasCause .commit = true)))
end

