-- ==== Sys2Proof/Laws/State.lean ====
section
/-! SUPPORT. One lemma per field per update of `Part` and of `State`, true by `rfl`, so that no later proof unfolds a record
update. -/

namespace Sys2Proof.Machine

/-! ## Updates of one block -/

variable (p : Part)

/-! issue -/

@[simp] theorem Part.issue_faults (a : Access) : (p.issue a).faults = p.faults := rfl
@[simp] theorem Part.issue_ladder (a : Access) : (p.issue a).ladder = p.ladder := rfl
@[simp] theorem Part.issue_frames (a : Access) : (p.issue a).frames = p.frames := rfl
@[simp] theorem Part.issue_sched (a : Access) : (p.issue a).sched = p.sched := rfl
@[simp] theorem Part.issue_table (a : Access) : (p.issue a).table = p.table := rfl
@[simp] theorem Part.issue_images (a : Access) : (p.issue a).images = p.images := rfl
@[simp] theorem Part.issue_windows (a : Access) : (p.issue a).windows = p.windows := rfl
@[simp] theorem Part.issue_events (a : Access) : (p.issue a).events = p.events := rfl
@[simp] theorem Part.issue_parcels (a : Access) : (p.issue a).parcels = p.parcels := rfl
@[simp] theorem Part.issue_loader (a : Access) : (p.issue a).loader = p.loader := rfl
@[simp] theorem Part.issue_bus (a : Access) : (p.issue a).bus = p.bus ++ [a] := rfl
@[simp] theorem Part.issue_arb (a : Access) : (p.issue a).arb = p.arb := rfl
@[simp] theorem Part.issue_parked (a : Access) : (p.issue a).parked = p.parked := rfl

/-! issueRead -/

@[simp] theorem Part.issueRead_faults (src : Source) (o : Nat) : (p.issueRead src o).faults = p.faults := rfl
@[simp] theorem Part.issueRead_ladder (src : Source) (o : Nat) : (p.issueRead src o).ladder = p.ladder := rfl
@[simp] theorem Part.issueRead_frames (src : Source) (o : Nat) : (p.issueRead src o).frames = p.frames := rfl
@[simp] theorem Part.issueRead_sched (src : Source) (o : Nat) : (p.issueRead src o).sched = p.sched := rfl
@[simp] theorem Part.issueRead_table (src : Source) (o : Nat) : (p.issueRead src o).table = p.table := rfl
@[simp] theorem Part.issueRead_images (src : Source) (o : Nat) : (p.issueRead src o).images = p.images := rfl
@[simp] theorem Part.issueRead_windows (src : Source) (o : Nat) : (p.issueRead src o).windows = p.windows := rfl
@[simp] theorem Part.issueRead_events (src : Source) (o : Nat) : (p.issueRead src o).events = p.events := rfl
@[simp] theorem Part.issueRead_parcels (src : Source) (o : Nat) : (p.issueRead src o).parcels = p.parcels := rfl
@[simp] theorem Part.issueRead_loader (src : Source) (o : Nat) : (p.issueRead src o).loader = p.loader := rfl
@[simp] theorem Part.issueRead_bus (src : Source) (o : Nat) :
    (p.issueRead src o).bus = p.bus ++ [{ offset := o, write := none, source := src }] := rfl
@[simp] theorem Part.issueRead_arb (src : Source) (o : Nat) : (p.issueRead src o).arb = p.arb := rfl
@[simp] theorem Part.issueRead_parked (src : Source) (o : Nat) : (p.issueRead src o).parked = p.parked := rfl

/-! issueWrite -/

@[simp] theorem Part.issueWrite_faults (src : Source) (o : Nat) (w : Word) : (p.issueWrite src o w).faults = p.faults := rfl
@[simp] theorem Part.issueWrite_ladder (src : Source) (o : Nat) (w : Word) : (p.issueWrite src o w).ladder = p.ladder := rfl
@[simp] theorem Part.issueWrite_frames (src : Source) (o : Nat) (w : Word) : (p.issueWrite src o w).frames = p.frames := rfl
@[simp] theorem Part.issueWrite_sched (src : Source) (o : Nat) (w : Word) : (p.issueWrite src o w).sched = p.sched := rfl
@[simp] theorem Part.issueWrite_table (src : Source) (o : Nat) (w : Word) : (p.issueWrite src o w).table = p.table := rfl
@[simp] theorem Part.issueWrite_images (src : Source) (o : Nat) (w : Word) : (p.issueWrite src o w).images = p.images := rfl
@[simp] theorem Part.issueWrite_windows (src : Source) (o : Nat) (w : Word) :
    (p.issueWrite src o w).windows = p.windows := rfl
@[simp] theorem Part.issueWrite_events (src : Source) (o : Nat) (w : Word) : (p.issueWrite src o w).events = p.events := rfl
@[simp] theorem Part.issueWrite_parcels (src : Source) (o : Nat) (w : Word) :
    (p.issueWrite src o w).parcels = p.parcels := rfl
@[simp] theorem Part.issueWrite_loader (src : Source) (o : Nat) (w : Word) : (p.issueWrite src o w).loader = p.loader := rfl
@[simp] theorem Part.issueWrite_bus (src : Source) (o : Nat) (w : Word) :
    (p.issueWrite src o w).bus = p.bus ++ [{ offset := o, write := some w, source := src }] := rfl
@[simp] theorem Part.issueWrite_arb (src : Source) (o : Nat) (w : Word) : (p.issueWrite src o w).arb = p.arb := rfl
@[simp] theorem Part.issueWrite_parked (src : Source) (o : Nat) (w : Word) : (p.issueWrite src o w).parked = p.parked := rfl

/-! setCause -/

@[simp] theorem Part.setCause_faults (b : CauseBit) :
    (p.setCause b).faults = { p.faults with cause := p.faults.cause ||| b.mask } := rfl
@[simp] theorem Part.setCause_ladder (b : CauseBit) : (p.setCause b).ladder = p.ladder := rfl
@[simp] theorem Part.setCause_frames (b : CauseBit) : (p.setCause b).frames = p.frames := rfl
@[simp] theorem Part.setCause_sched (b : CauseBit) : (p.setCause b).sched = p.sched := rfl
@[simp] theorem Part.setCause_table (b : CauseBit) : (p.setCause b).table = p.table := rfl
@[simp] theorem Part.setCause_images (b : CauseBit) : (p.setCause b).images = p.images := rfl
@[simp] theorem Part.setCause_windows (b : CauseBit) : (p.setCause b).windows = p.windows := rfl
@[simp] theorem Part.setCause_events (b : CauseBit) : (p.setCause b).events = p.events := rfl
@[simp] theorem Part.setCause_parcels (b : CauseBit) : (p.setCause b).parcels = p.parcels := rfl
@[simp] theorem Part.setCause_loader (b : CauseBit) : (p.setCause b).loader = p.loader := rfl
@[simp] theorem Part.setCause_bus (b : CauseBit) : (p.setCause b).bus = p.bus := rfl
@[simp] theorem Part.setCause_arb (b : CauseBit) : (p.setCause b).arb = p.arb := rfl
@[simp] theorem Part.setCause_parked (b : CauseBit) : (p.setCause b).parked = p.parked := rfl

/-! count -/

@[simp] theorem Part.count_faults (c : Counter) :
    (p.count c).faults = { p.faults with counters := tabModify p.faults.counters c.index (· + 1) } := rfl
@[simp] theorem Part.count_ladder (c : Counter) : (p.count c).ladder = p.ladder := rfl
@[simp] theorem Part.count_frames (c : Counter) : (p.count c).frames = p.frames := rfl
@[simp] theorem Part.count_sched (c : Counter) : (p.count c).sched = p.sched := rfl
@[simp] theorem Part.count_table (c : Counter) : (p.count c).table = p.table := rfl
@[simp] theorem Part.count_images (c : Counter) : (p.count c).images = p.images := rfl
@[simp] theorem Part.count_windows (c : Counter) : (p.count c).windows = p.windows := rfl
@[simp] theorem Part.count_events (c : Counter) : (p.count c).events = p.events := rfl
@[simp] theorem Part.count_parcels (c : Counter) : (p.count c).parcels = p.parcels := rfl
@[simp] theorem Part.count_loader (c : Counter) : (p.count c).loader = p.loader := rfl
@[simp] theorem Part.count_bus (c : Counter) : (p.count c).bus = p.bus := rfl
@[simp] theorem Part.count_arb (c : Counter) : (p.count c).arb = p.arb := rfl
@[simp] theorem Part.count_parked (c : Counter) : (p.count c).parked = p.parked := rfl

/-! clearFault -/

@[simp] theorem Part.clearFault_faults :
    (p.clearFault).faults = { p.faults with capture := Capture.empty, cause := p.faults.cause &&& ~~~ CauseBit.fault.mask } := rfl
@[simp] theorem Part.clearFault_ladder : (p.clearFault).ladder = p.ladder := rfl
@[simp] theorem Part.clearFault_frames : (p.clearFault).frames = p.frames := rfl
@[simp] theorem Part.clearFault_sched : (p.clearFault).sched = p.sched := rfl
@[simp] theorem Part.clearFault_table : (p.clearFault).table = p.table := rfl
@[simp] theorem Part.clearFault_images : (p.clearFault).images = p.images := rfl
@[simp] theorem Part.clearFault_windows : (p.clearFault).windows = p.windows := rfl
@[simp] theorem Part.clearFault_events : (p.clearFault).events = p.events := rfl
@[simp] theorem Part.clearFault_parcels : (p.clearFault).parcels = p.parcels := rfl
@[simp] theorem Part.clearFault_loader : (p.clearFault).loader = p.loader := rfl
@[simp] theorem Part.clearFault_bus : (p.clearFault).bus = p.bus := rfl
@[simp] theorem Part.clearFault_arb : (p.clearFault).arb = p.arb := rfl
@[simp] theorem Part.clearFault_parked : (p.clearFault).parked = p.parked := rfl

/-! modFaults -/

@[simp] theorem Part.modFaults_faults (f : FaultUnit → FaultUnit) : (p.modFaults f).faults = f p.faults := rfl
@[simp] theorem Part.modFaults_ladder (f : FaultUnit → FaultUnit) : (p.modFaults f).ladder = p.ladder := rfl
@[simp] theorem Part.modFaults_frames (f : FaultUnit → FaultUnit) : (p.modFaults f).frames = p.frames := rfl
@[simp] theorem Part.modFaults_sched (f : FaultUnit → FaultUnit) : (p.modFaults f).sched = p.sched := rfl
@[simp] theorem Part.modFaults_table (f : FaultUnit → FaultUnit) : (p.modFaults f).table = p.table := rfl
@[simp] theorem Part.modFaults_images (f : FaultUnit → FaultUnit) : (p.modFaults f).images = p.images := rfl
@[simp] theorem Part.modFaults_windows (f : FaultUnit → FaultUnit) : (p.modFaults f).windows = p.windows := rfl
@[simp] theorem Part.modFaults_events (f : FaultUnit → FaultUnit) : (p.modFaults f).events = p.events := rfl
@[simp] theorem Part.modFaults_parcels (f : FaultUnit → FaultUnit) : (p.modFaults f).parcels = p.parcels := rfl
@[simp] theorem Part.modFaults_loader (f : FaultUnit → FaultUnit) : (p.modFaults f).loader = p.loader := rfl
@[simp] theorem Part.modFaults_bus (f : FaultUnit → FaultUnit) : (p.modFaults f).bus = p.bus := rfl
@[simp] theorem Part.modFaults_arb (f : FaultUnit → FaultUnit) : (p.modFaults f).arb = p.arb := rfl
@[simp] theorem Part.modFaults_parked (f : FaultUnit → FaultUnit) : (p.modFaults f).parked = p.parked := rfl

/-! modNode -/

@[simp] theorem Part.modNode_faults (i : NodeIx) (f : NodeRecord → NodeRecord) : (p.modNode i f).faults = p.faults := rfl
@[simp] theorem Part.modNode_ladder (i : NodeIx) (f : NodeRecord → NodeRecord) : (p.modNode i f).ladder = p.ladder := rfl
@[simp] theorem Part.modNode_frames (i : NodeIx) (f : NodeRecord → NodeRecord) : (p.modNode i f).frames = p.frames := rfl
@[simp] theorem Part.modNode_sched (i : NodeIx) (f : NodeRecord → NodeRecord) : (p.modNode i f).sched = p.sched := rfl
@[simp] theorem Part.modNode_table (i : NodeIx) (f : NodeRecord → NodeRecord) :
    (p.modNode i f).table = { p.table with records := tabModify p.table.records i f } := rfl
@[simp] theorem Part.modNode_images (i : NodeIx) (f : NodeRecord → NodeRecord) : (p.modNode i f).images = p.images := rfl
@[simp] theorem Part.modNode_windows (i : NodeIx) (f : NodeRecord → NodeRecord) : (p.modNode i f).windows = p.windows := rfl
@[simp] theorem Part.modNode_events (i : NodeIx) (f : NodeRecord → NodeRecord) : (p.modNode i f).events = p.events := rfl
@[simp] theorem Part.modNode_parcels (i : NodeIx) (f : NodeRecord → NodeRecord) : (p.modNode i f).parcels = p.parcels := rfl
@[simp] theorem Part.modNode_loader (i : NodeIx) (f : NodeRecord → NodeRecord) : (p.modNode i f).loader = p.loader := rfl
@[simp] theorem Part.modNode_bus (i : NodeIx) (f : NodeRecord → NodeRecord) : (p.modNode i f).bus = p.bus := rfl
@[simp] theorem Part.modNode_arb (i : NodeIx) (f : NodeRecord → NodeRecord) : (p.modNode i f).arb = p.arb := rfl
@[simp] theorem Part.modNode_parked (i : NodeIx) (f : NodeRecord → NodeRecord) : (p.modNode i f).parked = p.parked := rfl

/-! modEvents -/

@[simp] theorem Part.modEvents_faults (i : NodeIx) (f : NodeEvents → NodeEvents) : (p.modEvents i f).faults = p.faults := rfl
@[simp] theorem Part.modEvents_ladder (i : NodeIx) (f : NodeEvents → NodeEvents) : (p.modEvents i f).ladder = p.ladder := rfl
@[simp] theorem Part.modEvents_frames (i : NodeIx) (f : NodeEvents → NodeEvents) : (p.modEvents i f).frames = p.frames := rfl
@[simp] theorem Part.modEvents_sched (i : NodeIx) (f : NodeEvents → NodeEvents) : (p.modEvents i f).sched = p.sched := rfl
@[simp] theorem Part.modEvents_table (i : NodeIx) (f : NodeEvents → NodeEvents) : (p.modEvents i f).table = p.table := rfl
@[simp] theorem Part.modEvents_images (i : NodeIx) (f : NodeEvents → NodeEvents) : (p.modEvents i f).images = p.images := rfl
@[simp] theorem Part.modEvents_windows (i : NodeIx) (f : NodeEvents → NodeEvents) :
    (p.modEvents i f).windows = p.windows := rfl
@[simp] theorem Part.modEvents_events (i : NodeIx) (f : NodeEvents → NodeEvents) :
    (p.modEvents i f).events = { p.events with nodes := tabModify p.events.nodes i f } := rfl
@[simp] theorem Part.modEvents_parcels (i : NodeIx) (f : NodeEvents → NodeEvents) :
    (p.modEvents i f).parcels = p.parcels := rfl
@[simp] theorem Part.modEvents_loader (i : NodeIx) (f : NodeEvents → NodeEvents) : (p.modEvents i f).loader = p.loader := rfl
@[simp] theorem Part.modEvents_bus (i : NodeIx) (f : NodeEvents → NodeEvents) : (p.modEvents i f).bus = p.bus := rfl
@[simp] theorem Part.modEvents_arb (i : NodeIx) (f : NodeEvents → NodeEvents) : (p.modEvents i f).arb = p.arb := rfl
@[simp] theorem Part.modEvents_parked (i : NodeIx) (f : NodeEvents → NodeEvents) : (p.modEvents i f).parked = p.parked := rfl

/-! setQueue -/

@[simp] theorem Part.setQueue_faults (q : List NodeIx) : (p.setQueue q).faults = p.faults := rfl
@[simp] theorem Part.setQueue_ladder (q : List NodeIx) : (p.setQueue q).ladder = p.ladder := rfl
@[simp] theorem Part.setQueue_frames (q : List NodeIx) : (p.setQueue q).frames = p.frames := rfl
@[simp] theorem Part.setQueue_sched (q : List NodeIx) : (p.setQueue q).sched = p.sched := rfl
@[simp] theorem Part.setQueue_table (q : List NodeIx) : (p.setQueue q).table = p.table := rfl
@[simp] theorem Part.setQueue_images (q : List NodeIx) : (p.setQueue q).images = p.images := rfl
@[simp] theorem Part.setQueue_windows (q : List NodeIx) : (p.setQueue q).windows = p.windows := rfl
@[simp] theorem Part.setQueue_events (q : List NodeIx) : (p.setQueue q).events = { p.events with queue := q } := rfl
@[simp] theorem Part.setQueue_parcels (q : List NodeIx) : (p.setQueue q).parcels = p.parcels := rfl
@[simp] theorem Part.setQueue_loader (q : List NodeIx) : (p.setQueue q).loader = p.loader := rfl
@[simp] theorem Part.setQueue_bus (q : List NodeIx) : (p.setQueue q).bus = p.bus := rfl
@[simp] theorem Part.setQueue_arb (q : List NodeIx) : (p.setQueue q).arb = p.arb := rfl
@[simp] theorem Part.setQueue_parked (q : List NodeIx) : (p.setQueue q).parked = p.parked := rfl

/-! claimPlace -/

@[simp] theorem Part.claimPlace_faults : (p.claimPlace).faults = p.faults := rfl
@[simp] theorem Part.claimPlace_ladder : (p.claimPlace).ladder = p.ladder := rfl
@[simp] theorem Part.claimPlace_frames : (p.claimPlace).frames = p.frames := rfl
@[simp] theorem Part.claimPlace_sched : (p.claimPlace).sched = p.sched := rfl
@[simp] theorem Part.claimPlace_table : (p.claimPlace).table = p.table := rfl
@[simp] theorem Part.claimPlace_images : (p.claimPlace).images = p.images := rfl
@[simp] theorem Part.claimPlace_windows : (p.claimPlace).windows = p.windows := rfl
@[simp] theorem Part.claimPlace_events : (p.claimPlace).events = { p.events with claimed := p.events.claimed + 1 } := rfl
@[simp] theorem Part.claimPlace_parcels : (p.claimPlace).parcels = p.parcels := rfl
@[simp] theorem Part.claimPlace_loader : (p.claimPlace).loader = p.loader := rfl
@[simp] theorem Part.claimPlace_bus : (p.claimPlace).bus = p.bus := rfl
@[simp] theorem Part.claimPlace_arb : (p.claimPlace).arb = p.arb := rfl
@[simp] theorem Part.claimPlace_parked : (p.claimPlace).parked = p.parked := rfl

/-! releasePlace -/

@[simp] theorem Part.releasePlace_faults : (p.releasePlace).faults = p.faults := rfl
@[simp] theorem Part.releasePlace_ladder : (p.releasePlace).ladder = p.ladder := rfl
@[simp] theorem Part.releasePlace_frames : (p.releasePlace).frames = p.frames := rfl
@[simp] theorem Part.releasePlace_sched : (p.releasePlace).sched = p.sched := rfl
@[simp] theorem Part.releasePlace_table : (p.releasePlace).table = p.table := rfl
@[simp] theorem Part.releasePlace_images : (p.releasePlace).images = p.images := rfl
@[simp] theorem Part.releasePlace_windows : (p.releasePlace).windows = p.windows := rfl
@[simp] theorem Part.releasePlace_events : (p.releasePlace).events = { p.events with claimed := p.events.claimed - 1 } := rfl
@[simp] theorem Part.releasePlace_parcels : (p.releasePlace).parcels = p.parcels := rfl
@[simp] theorem Part.releasePlace_loader : (p.releasePlace).loader = p.loader := rfl
@[simp] theorem Part.releasePlace_bus : (p.releasePlace).bus = p.bus := rfl
@[simp] theorem Part.releasePlace_arb : (p.releasePlace).arb = p.arb := rfl
@[simp] theorem Part.releasePlace_parked : (p.releasePlace).parked = p.parked := rfl

/-! modParcel -/

@[simp] theorem Part.modParcel_faults (t : SlotIx) (f : Parcel → Parcel) : (p.modParcel t f).faults = p.faults := rfl
@[simp] theorem Part.modParcel_ladder (t : SlotIx) (f : Parcel → Parcel) : (p.modParcel t f).ladder = p.ladder := rfl
@[simp] theorem Part.modParcel_frames (t : SlotIx) (f : Parcel → Parcel) : (p.modParcel t f).frames = p.frames := rfl
@[simp] theorem Part.modParcel_sched (t : SlotIx) (f : Parcel → Parcel) : (p.modParcel t f).sched = p.sched := rfl
@[simp] theorem Part.modParcel_table (t : SlotIx) (f : Parcel → Parcel) : (p.modParcel t f).table = p.table := rfl
@[simp] theorem Part.modParcel_images (t : SlotIx) (f : Parcel → Parcel) : (p.modParcel t f).images = p.images := rfl
@[simp] theorem Part.modParcel_windows (t : SlotIx) (f : Parcel → Parcel) : (p.modParcel t f).windows = p.windows := rfl
@[simp] theorem Part.modParcel_events (t : SlotIx) (f : Parcel → Parcel) : (p.modParcel t f).events = p.events := rfl
@[simp] theorem Part.modParcel_parcels (t : SlotIx) (f : Parcel → Parcel) :
    (p.modParcel t f).parcels = { p.parcels with queue := p.parcels.queue.map fun e => if e.slot = t then f e else e } := rfl
@[simp] theorem Part.modParcel_loader (t : SlotIx) (f : Parcel → Parcel) : (p.modParcel t f).loader = p.loader := rfl
@[simp] theorem Part.modParcel_bus (t : SlotIx) (f : Parcel → Parcel) : (p.modParcel t f).bus = p.bus := rfl
@[simp] theorem Part.modParcel_arb (t : SlotIx) (f : Parcel → Parcel) : (p.modParcel t f).arb = p.arb := rfl
@[simp] theorem Part.modParcel_parked (t : SlotIx) (f : Parcel → Parcel) : (p.modParcel t f).parked = p.parked := rfl

/-! give -/

@[simp] theorem Part.give_faults (ex : Exchange) (bytes : List Byte) : (p.give ex bytes).faults = p.faults := rfl
@[simp] theorem Part.give_ladder (ex : Exchange) (bytes : List Byte) : (p.give ex bytes).ladder = p.ladder := rfl
@[simp] theorem Part.give_frames (ex : Exchange) (bytes : List Byte) :
    (p.give ex bytes).frames = { p.frames with state := .sending, tx := bytes, onLine := false, rx := none, replyTimer := none, clash := false, exchange := some ex, outcome := none } := rfl
@[simp] theorem Part.give_sched (ex : Exchange) (bytes : List Byte) : (p.give ex bytes).sched = p.sched := rfl
@[simp] theorem Part.give_table (ex : Exchange) (bytes : List Byte) : (p.give ex bytes).table = p.table := rfl
@[simp] theorem Part.give_images (ex : Exchange) (bytes : List Byte) : (p.give ex bytes).images = p.images := rfl
@[simp] theorem Part.give_windows (ex : Exchange) (bytes : List Byte) : (p.give ex bytes).windows = p.windows := rfl
@[simp] theorem Part.give_events (ex : Exchange) (bytes : List Byte) : (p.give ex bytes).events = p.events := rfl
@[simp] theorem Part.give_parcels (ex : Exchange) (bytes : List Byte) : (p.give ex bytes).parcels = p.parcels := rfl
@[simp] theorem Part.give_loader (ex : Exchange) (bytes : List Byte) : (p.give ex bytes).loader = p.loader := rfl
@[simp] theorem Part.give_bus (ex : Exchange) (bytes : List Byte) : (p.give ex bytes).bus = p.bus := rfl
@[simp] theorem Part.give_arb (ex : Exchange) (bytes : List Byte) : (p.give ex bytes).arb = p.arb := rfl
@[simp] theorem Part.give_parked (ex : Exchange) (bytes : List Byte) : (p.give ex bytes).parked = p.parked := rfl

/-! frameState -/

@[simp] theorem Part.frameState_faults (st : FrameState) : (p.frameState st).faults = p.faults := rfl
@[simp] theorem Part.frameState_ladder (st : FrameState) : (p.frameState st).ladder = p.ladder := rfl
@[simp] theorem Part.frameState_frames (st : FrameState) : (p.frameState st).frames = p.frames.settleAt st := rfl
@[simp] theorem Part.frameState_sched (st : FrameState) : (p.frameState st).sched = p.sched := rfl
@[simp] theorem Part.frameState_table (st : FrameState) : (p.frameState st).table = p.table := rfl
@[simp] theorem Part.frameState_images (st : FrameState) : (p.frameState st).images = p.images := rfl
@[simp] theorem Part.frameState_windows (st : FrameState) : (p.frameState st).windows = p.windows := rfl
@[simp] theorem Part.frameState_events (st : FrameState) : (p.frameState st).events = p.events := rfl
@[simp] theorem Part.frameState_parcels (st : FrameState) : (p.frameState st).parcels = p.parcels := rfl
@[simp] theorem Part.frameState_loader (st : FrameState) : (p.frameState st).loader = p.loader := rfl
@[simp] theorem Part.quietPassed_faults : (p.quietPassed).faults = p.faults := rfl
@[simp] theorem Part.quietPassed_sched : (p.quietPassed).sched = p.sched := rfl
@[simp] theorem Part.quietPassed_images : (p.quietPassed).images = p.images := rfl
@[simp] theorem Part.quietPassed_windows : (p.quietPassed).windows = p.windows := rfl
@[simp] theorem Part.quietPassed_events : (p.quietPassed).events = p.events := rfl
@[simp] theorem Part.quietPassed_parcels : (p.quietPassed).parcels = p.parcels := rfl
@[simp] theorem Part.quietPassed_loader : (p.quietPassed).loader = p.loader := rfl
@[simp] theorem Part.quietPassed_bus : (p.quietPassed).bus = p.bus := rfl
@[simp] theorem Part.quietPassed_parked : (p.quietPassed).parked = p.parked := rfl
@[simp] theorem Part.quietPassed_arb : (p.quietPassed).arb = p.arb := rfl
@[simp] theorem Part.quietPassed_frames : (p.quietPassed).frames = { p.frames with counted := false } := rfl
@[simp] theorem Part.frameState_bus (st : FrameState) : (p.frameState st).bus = p.bus := rfl
@[simp] theorem Part.frameState_arb (st : FrameState) : (p.frameState st).arb = p.arb := rfl
@[simp] theorem Part.frameState_parked (st : FrameState) : (p.frameState st).parked = p.parked := rfl

/-! modWindows -/

@[simp] theorem Part.modWindows_faults (f : WindowUnit → WindowUnit) : (p.modWindows f).faults = p.faults := rfl
@[simp] theorem Part.modWindows_ladder (f : WindowUnit → WindowUnit) : (p.modWindows f).ladder = p.ladder := rfl
@[simp] theorem Part.modWindows_frames (f : WindowUnit → WindowUnit) : (p.modWindows f).frames = p.frames := rfl
@[simp] theorem Part.modWindows_sched (f : WindowUnit → WindowUnit) : (p.modWindows f).sched = p.sched := rfl
@[simp] theorem Part.modWindows_table (f : WindowUnit → WindowUnit) : (p.modWindows f).table = p.table := rfl
@[simp] theorem Part.modWindows_images (f : WindowUnit → WindowUnit) : (p.modWindows f).images = p.images := rfl
@[simp] theorem Part.modWindows_windows (f : WindowUnit → WindowUnit) : (p.modWindows f).windows = f p.windows := rfl
@[simp] theorem Part.modWindows_events (f : WindowUnit → WindowUnit) : (p.modWindows f).events = p.events := rfl
@[simp] theorem Part.modWindows_parcels (f : WindowUnit → WindowUnit) : (p.modWindows f).parcels = p.parcels := rfl
@[simp] theorem Part.modWindows_loader (f : WindowUnit → WindowUnit) : (p.modWindows f).loader = p.loader := rfl
@[simp] theorem Part.modWindows_bus (f : WindowUnit → WindowUnit) : (p.modWindows f).bus = p.bus := rfl
@[simp] theorem Part.modWindows_arb (f : WindowUnit → WindowUnit) : (p.modWindows f).arb = p.arb := rfl
@[simp] theorem Part.modWindows_parked (f : WindowUnit → WindowUnit) : (p.modWindows f).parked = p.parked := rfl

/-! modLoader -/

@[simp] theorem Part.modLoader_faults (f : Loader → Loader) : (p.modLoader f).faults = p.faults := rfl
@[simp] theorem Part.modLoader_ladder (f : Loader → Loader) : (p.modLoader f).ladder = p.ladder := rfl
@[simp] theorem Part.modLoader_frames (f : Loader → Loader) : (p.modLoader f).frames = p.frames := rfl
@[simp] theorem Part.modLoader_sched (f : Loader → Loader) : (p.modLoader f).sched = p.sched := rfl
@[simp] theorem Part.modLoader_table (f : Loader → Loader) : (p.modLoader f).table = p.table := rfl
@[simp] theorem Part.modLoader_images (f : Loader → Loader) : (p.modLoader f).images = p.images := rfl
@[simp] theorem Part.modLoader_windows (f : Loader → Loader) : (p.modLoader f).windows = p.windows := rfl
@[simp] theorem Part.modLoader_events (f : Loader → Loader) : (p.modLoader f).events = p.events := rfl
@[simp] theorem Part.modLoader_parcels (f : Loader → Loader) : (p.modLoader f).parcels = p.parcels := rfl
@[simp] theorem Part.modLoader_loader (f : Loader → Loader) : (p.modLoader f).loader = f p.loader := rfl
@[simp] theorem Part.modLoader_bus (f : Loader → Loader) : (p.modLoader f).bus = p.bus := rfl
@[simp] theorem Part.modLoader_arb (f : Loader → Loader) : (p.modLoader f).arb = p.arb := rfl
@[simp] theorem Part.modLoader_parked (f : Loader → Loader) : (p.modLoader f).parked = p.parked := rfl

/-! modSched -/

@[simp] theorem Part.modSched_faults (f : Scheduler → Scheduler) : (p.modSched f).faults = p.faults := rfl
@[simp] theorem Part.modSched_ladder (f : Scheduler → Scheduler) : (p.modSched f).ladder = p.ladder := rfl
@[simp] theorem Part.modSched_frames (f : Scheduler → Scheduler) : (p.modSched f).frames = p.frames := rfl
@[simp] theorem Part.modSched_sched (f : Scheduler → Scheduler) : (p.modSched f).sched = f p.sched := rfl
@[simp] theorem Part.modSched_table (f : Scheduler → Scheduler) : (p.modSched f).table = p.table := rfl
@[simp] theorem Part.modSched_images (f : Scheduler → Scheduler) : (p.modSched f).images = p.images := rfl
@[simp] theorem Part.modSched_windows (f : Scheduler → Scheduler) : (p.modSched f).windows = p.windows := rfl
@[simp] theorem Part.modSched_events (f : Scheduler → Scheduler) : (p.modSched f).events = p.events := rfl
@[simp] theorem Part.modSched_parcels (f : Scheduler → Scheduler) : (p.modSched f).parcels = p.parcels := rfl
@[simp] theorem Part.modSched_loader (f : Scheduler → Scheduler) : (p.modSched f).loader = p.loader := rfl
@[simp] theorem Part.modSched_bus (f : Scheduler → Scheduler) : (p.modSched f).bus = p.bus := rfl
@[simp] theorem Part.modSched_arb (f : Scheduler → Scheduler) : (p.modSched f).arb = p.arb := rfl
@[simp] theorem Part.modSched_parked (f : Scheduler → Scheduler) : (p.modSched f).parked = p.parked := rfl

/-! passTime -/

@[simp] theorem Part.passTime_faults (dt : Nat) : (p.passTime dt).faults = p.faults := rfl
@[simp] theorem Part.passTime_ladder (dt : Nat) : (p.passTime dt).ladder = p.ladder := rfl
@[simp] theorem Part.passTime_frames (dt : Nat) : (p.passTime dt).frames = p.frames := rfl
@[simp] theorem Part.passTime_sched (dt : Nat) :
    (p.passTime dt).sched = { p.sched with timer := p.sched.timer.map (· - dt) } := rfl
@[simp] theorem Part.passTime_table (dt : Nat) : (p.passTime dt).table = p.table := rfl
@[simp] theorem Part.passTime_images (dt : Nat) : (p.passTime dt).images = p.images := rfl
@[simp] theorem Part.passTime_windows (dt : Nat) : (p.passTime dt).windows = p.windows := rfl
@[simp] theorem Part.passTime_events (dt : Nat) : (p.passTime dt).events = p.events := rfl
@[simp] theorem Part.passTime_parcels (dt : Nat) : (p.passTime dt).parcels = p.parcels := rfl
@[simp] theorem Part.passTime_loader (dt : Nat) : (p.passTime dt).loader = p.loader := rfl
@[simp] theorem Part.passTime_bus (dt : Nat) : (p.passTime dt).bus = p.bus := rfl
@[simp] theorem Part.passTime_arb (dt : Nat) : (p.passTime dt).arb = p.arb := rfl
@[simp] theorem Part.passTime_parked (dt : Nat) : (p.passTime dt).parked = p.parked := rfl

/-! modLadder -/

@[simp] theorem Part.modLadder_faults (f : Ladder → Ladder) : (p.modLadder f).faults = p.faults := rfl
@[simp] theorem Part.modLadder_ladder (f : Ladder → Ladder) : (p.modLadder f).ladder = f p.ladder := rfl
@[simp] theorem Part.modLadder_frames (f : Ladder → Ladder) : (p.modLadder f).frames = p.frames := rfl
@[simp] theorem Part.modLadder_sched (f : Ladder → Ladder) : (p.modLadder f).sched = p.sched := rfl
@[simp] theorem Part.modLadder_table (f : Ladder → Ladder) : (p.modLadder f).table = p.table := rfl
@[simp] theorem Part.modLadder_images (f : Ladder → Ladder) : (p.modLadder f).images = p.images := rfl
@[simp] theorem Part.modLadder_windows (f : Ladder → Ladder) : (p.modLadder f).windows = p.windows := rfl
@[simp] theorem Part.modLadder_events (f : Ladder → Ladder) : (p.modLadder f).events = p.events := rfl
@[simp] theorem Part.modLadder_parcels (f : Ladder → Ladder) : (p.modLadder f).parcels = p.parcels := rfl
@[simp] theorem Part.modLadder_loader (f : Ladder → Ladder) : (p.modLadder f).loader = p.loader := rfl
@[simp] theorem Part.modLadder_bus (f : Ladder → Ladder) : (p.modLadder f).bus = p.bus := rfl
@[simp] theorem Part.modLadder_arb (f : Ladder → Ladder) : (p.modLadder f).arb = p.arb := rfl
@[simp] theorem Part.modLadder_parked (f : Ladder → Ladder) : (p.modLadder f).parked = p.parked := rfl

@[simp] theorem Part.resumeWork_faults : p.resumeWork.faults = p.faults := rfl
@[simp] theorem Part.resumeWork_ladder : p.resumeWork.ladder = p.ladder := rfl
@[simp] theorem Part.resumeWork_frames : p.resumeWork.frames = p.frames := rfl
@[simp] theorem Part.resumeWork_sched : p.resumeWork.sched = p.sched := rfl
@[simp] theorem Part.resumeWork_table : p.resumeWork.table = p.table := rfl
@[simp] theorem Part.resumeWork_images : p.resumeWork.images = p.images := rfl
@[simp] theorem Part.resumeWork_windows : p.resumeWork.windows = p.windows := rfl
@[simp] theorem Part.resumeWork_events : p.resumeWork.events = p.events := rfl
@[simp] theorem Part.resumeWork_parcels : p.resumeWork.parcels = p.parcels := rfl
@[simp] theorem Part.resumeWork_loader : p.resumeWork.loader = p.loader := rfl
@[simp] theorem Part.resumeWork_arb : p.resumeWork.arb = p.arb := rfl
@[simp] theorem Part.resumeWork_bus : p.resumeWork.bus = p.bus ++ p.parked := rfl
@[simp] theorem Part.resumeWork_parked : p.resumeWork.parked = [] := rfl


@[simp] theorem Part.arbitrate_faults (n : Nat) : (p.arbitrate n).faults = p.faults := rfl
@[simp] theorem Part.arbitrate_ladder (n : Nat) : (p.arbitrate n).ladder = p.ladder := rfl
@[simp] theorem Part.arbitrate_frames (n : Nat) : (p.arbitrate n).frames = p.frames := rfl
@[simp] theorem Part.arbitrate_sched (n : Nat) : (p.arbitrate n).sched = p.sched := rfl
@[simp] theorem Part.arbitrate_table (n : Nat) : (p.arbitrate n).table = p.table := rfl
@[simp] theorem Part.arbitrate_images (n : Nat) : (p.arbitrate n).images = p.images := rfl
@[simp] theorem Part.arbitrate_windows (n : Nat) : (p.arbitrate n).windows = p.windows := rfl
@[simp] theorem Part.arbitrate_events (n : Nat) : (p.arbitrate n).events = p.events := rfl
@[simp] theorem Part.arbitrate_parcels (n : Nat) : (p.arbitrate n).parcels = p.parcels := rfl
@[simp] theorem Part.arbitrate_loader (n : Nat) : (p.arbitrate n).loader = p.loader := rfl

/-! ## Updates of the whole state -/

variable (s : State)

@[simp] theorem State.act_port (f : Part → Part) : (s.act f).port = s.port := by simp only [State.act]
@[simp] theorem State.act_mem (f : Part → Part) : (s.act f).mem = s.mem := by simp only [State.act]
@[simp] theorem State.act_pending (f : Part → Part) : (s.act f).pending = s.pending := by simp only [State.act]
@[simp] theorem State.plain_port (f : Part → Part) : (s.plain f).port = s.port := by simp only [State.plain]
@[simp] theorem State.plain_mem (f : Part → Part) : (s.plain f).mem = s.mem := by simp only [State.plain]
@[simp] theorem State.plain_pending (f : Part → Part) : (s.plain f).pending = s.pending := by simp only [State.plain]
@[simp] theorem State.plain_part (f : Part → Part) : (s.plain f).part = f s.part := rfl
@[simp] theorem State.act_faults (f : Part → Part) : (s.act f).part.faults =
    (f s.part).settle.faults := Part.arbitrate_faults _ _
@[simp] theorem State.act_ladder (f : Part → Part) : (s.act f).part.ladder =
    (f s.part).settle.ladder := Part.arbitrate_ladder _ _
@[simp] theorem State.act_frames (f : Part → Part) : (s.act f).part.frames =
    (f s.part).settle.frames := Part.arbitrate_frames _ _
@[simp] theorem State.act_sched (f : Part → Part) : (s.act f).part.sched =
    (f s.part).settle.sched := Part.arbitrate_sched _ _
@[simp] theorem State.act_table (f : Part → Part) : (s.act f).part.table =
    (f s.part).settle.table := Part.arbitrate_table _ _
@[simp] theorem State.act_images (f : Part → Part) : (s.act f).part.images =
    (f s.part).settle.images := Part.arbitrate_images _ _
@[simp] theorem State.act_windows (f : Part → Part) : (s.act f).part.windows =
    (f s.part).settle.windows := Part.arbitrate_windows _ _
@[simp] theorem State.act_events (f : Part → Part) : (s.act f).part.events =
    (f s.part).settle.events := Part.arbitrate_events _ _
@[simp] theorem State.act_parcels (f : Part → Part) : (s.act f).part.parcels =
    (f s.part).settle.parcels := Part.arbitrate_parcels _ _
@[simp] theorem State.act_loader (f : Part → Part) : (s.act f).part.loader =
    (f s.part).settle.loader := Part.arbitrate_loader _ _
@[simp] theorem State.softReset_mem : s.softReset.mem = s.mem := rfl
@[simp] theorem State.softReset_pending : s.softReset.pending = s.pending := rfl
@[simp] theorem State.softReset_area : s.softReset.port.area = s.port.area := rfl
@[simp] theorem State.softReset_mask : s.softReset.port.mask = s.port.mask := rfl
@[simp] theorem State.softReset_view : s.softReset.port.view = false := rfl
@[simp] theorem State.softReset_resetLow : s.softReset.port.resetLow = s.port.resetLow := rfl
@[simp] theorem State.softReset_part : s.softReset.part = { Part.reset with arb := s.part.arb } := rfl
@[simp] theorem State.fullReset_mem (b : Bool) : (s.fullReset b).mem = s.mem := rfl
@[simp] theorem State.fullReset_pending (b : Bool) : (s.fullReset b).pending = s.pending := rfl
@[simp] theorem State.fullReset_port (b : Bool) : (s.fullReset b).port = { Port.reset with resetLow := b } := rfl
@[simp] theorem State.fullReset_part (b : Bool) : (s.fullReset b).part = { Part.reset with arb := s.part.arb } := rfl

end Sys2Proof.Machine
end

