-- ==== Sys2Proof/Laws/Tables.lean ====
section
/-! SUPPORT. The fixed-length tables, and what is kept in them: a record read after another was changed, a counter after a count. -/

namespace Sys2Proof

@[simp] theorem tabModify_get {α : Type} {n : Nat} (v : Vector α n) (i j : Fin n) (f : α → α) :
    (tabModify v i f).get j = if i = j then f (v.get i) else v.get j := by
  have e : (tabModify v i f).get j = (v.set i.val (f (v.get i)) i.isLt)[j.val] := rfl
  rw [e, Vector.getElem_set]
  by_cases h : i = j
  · simp [h]
  · rw [if_neg (fun e => h (Fin.ext e)), if_neg h]; rfl

@[simp] theorem tabMap_get {α β : Type} {n : Nat} (f : Fin n → α → β) (v : Vector α n) (i : Fin n) :
    (tabMap f v).get i = f i (v.get i) := by
  have e : (tabMap f v).get i = ((List.finRange n).map fun i => f i (v.get i))[i.val]'(by simp) := rfl
  rw [e]; simp

@[simp] theorem tabFill_get {α : Type} (n : Nat) (x : α) (i : Fin n) : (tabFill n x).get i = x := by
  have e : (tabFill n x).get i = (List.replicate n x)[i.val]'(by simp) := rfl
  rw [e]; simp

namespace Machine

variable (p : Part)

theorem Counter.index_injective {c d : Counter} : c.index = d.index ↔ c = d := by
  cases c <;> cases d <;> simp [Counter.index]

/-- A count raises its counter by 1 and no other (R165). -/
@[simp] theorem Part.count_counter (c d : Counter) :
    (p.count c).counter d = if c = d then p.counter d + 1 else p.counter d := by
  simp only [Part.count, Part.counter, tabModify_get, Counter.index_injective]
  split <;> simp_all

/-- A record after record `i` was changed. -/
@[simp] theorem Part.modNode_node (i j : NodeIx) (f : NodeRecord → NodeRecord) :
    (p.modNode i f).node j = if i = j then f (p.node i) else p.node j := by
  simp only [Part.modNode, Part.node, tabModify_get]

/-- A node's event state after node `i`'s was changed. -/
@[simp] theorem Part.modEvents_nodeEvents (i j : NodeIx) (f : NodeEvents → NodeEvents) :
    (p.modEvents i f).nodeEvents j = if i = j then f (p.nodeEvents i) else p.nodeEvents j := by
  simp only [Part.modEvents, Part.nodeEvents, tabModify_get]

/-- Setting a cause sets it and no other (R163). -/
@[simp] theorem Part.setCause_hasCause (b c : CauseBit) :
    (p.setCause b).hasCause c = (p.hasCause c || decide (b = c)) := by
  simp only [Part.setCause, Part.hasCause]
  cases b <;> cases c <;> simp [CauseBit.mask, CauseBit.position]

/-- A report sets CAUSE.FAULT and no other cause (R160). -/
@[simp] theorem Part.report_hasCause (code : FaultCode) (d : Half) (c : CauseBit) :
    (p.report code d).hasCause c = (p.hasCause c || decide (c = .fault)) := by
  unfold Part.report Part.noteMemoryError
  split <;> cases c <;> simp [Part.hasCause, CauseBit.mask, CauseBit.position]

/-! A report changes only the fault unit, and for MEMORY the fault hold (R160). -/

@[simp] theorem Part.report_frames (code : FaultCode) (d : Half) : (p.report code d).frames = p.frames := by
  unfold Part.report Part.noteMemoryError; split <;> rfl
@[simp] theorem Part.report_sched (code : FaultCode) (d : Half) : (p.report code d).sched = p.sched := by
  unfold Part.report Part.noteMemoryError; split <;> rfl
@[simp] theorem Part.report_table (code : FaultCode) (d : Half) : (p.report code d).table = p.table := by
  unfold Part.report Part.noteMemoryError; split <;> rfl
@[simp] theorem Part.report_images (code : FaultCode) (d : Half) : (p.report code d).images = p.images := by
  unfold Part.report Part.noteMemoryError; split <;> rfl
@[simp] theorem Part.report_windows (code : FaultCode) (d : Half) : (p.report code d).windows = p.windows := by
  unfold Part.report Part.noteMemoryError; split <;> rfl
@[simp] theorem Part.report_events (code : FaultCode) (d : Half) : (p.report code d).events = p.events := by
  unfold Part.report Part.noteMemoryError; split <;> rfl
@[simp] theorem Part.report_parcels (code : FaultCode) (d : Half) : (p.report code d).parcels = p.parcels := by
  unfold Part.report Part.noteMemoryError; split <;> rfl
@[simp] theorem Part.report_loader (code : FaultCode) (d : Half) : (p.report code d).loader = p.loader := by
  unfold Part.report Part.noteMemoryError; split <;> rfl
@[simp] theorem Part.report_bus (code : FaultCode) (d : Half) : (p.report code d).bus = p.bus := by
  unfold Part.report Part.noteMemoryError; split <;> rfl
@[simp] theorem Part.report_parked (code : FaultCode) (d : Half) : (p.report code d).parked = p.parked := by
  unfold Part.report Part.noteMemoryError; split <;> rfl
@[simp] theorem Part.report_arb (code : FaultCode) (d : Half) : (p.report code d).arb = p.arb := by
  unfold Part.report Part.noteMemoryError; split <;> rfl

end Machine

end Sys2Proof
end

