-- ==== Sys2Proof/Laws/Bus.lean ====
section
/-! SUPPORT. The request list (R170): accesses issued together enter it in some order, none is lost or made, those of one block keep
theirs, and what is asked for while the line rests is parked (log 37). -/

namespace Sys2Proof.Machine

/-- The accesses of one block. -/
def ofBlock (k : Nat) (l : List Access) : List Access := l.filter fun a => a.source.block == k

/-- An access put before the last accesses of a list that come from other blocks keeps its block's order. -/
theorem ofBlock_insert (placed : List Access) (a : Access) (m k : Nat)
    (h : m ≤ (placed.reverse.takeWhile fun b => b.source.block != a.source.block).length) :
    ofBlock k (placed.take (placed.length - m) ++ a :: placed.drop (placed.length - m)) = ofBlock k (placed ++ [a]) := by
  have hd : placed.drop (placed.length - m) = (placed.reverse.take m).reverse := by
    rw [List.take_reverse, List.reverse_reverse]
  have ht : placed.reverse.take m
      = (placed.reverse.takeWhile fun b => b.source.block != a.source.block).take m := by
    have e := List.takeWhile_append_dropWhile (p := fun b : Access => b.source.block != a.source.block) (l := placed.reverse)
    conv_lhs => rw [← e]
    rw [List.take_append_of_le_length h]
  have hne : ∀ b ∈ placed.drop (placed.length - m), (b.source.block != a.source.block) = true := by
    intro b hb
    rw [hd, ht, List.mem_reverse] at hb
    exact List.mem_takeWhile_imp (p := fun b : Access => b.source.block != a.source.block) (List.mem_of_mem_take hb)
  have hsplit : ofBlock k placed = ofBlock k (placed.take (placed.length - m)) ++ ofBlock k (placed.drop (placed.length - m)) := by
    simp only [ofBlock, ← List.filter_append, List.take_append_drop]
  by_cases hk : a.source.block = k
  · have hnil : ofBlock k (placed.drop (placed.length - m)) = [] := by
      simp only [ofBlock, List.filter_eq_nil_iff]
      intro b hb
      have := hne b hb
      simp_all
    have e : ofBlock k (placed ++ [a]) = ofBlock k placed ++ [a] := by simp [ofBlock, hk]
    rw [e, hsplit, hnil, List.append_nil]
    have e2 : ofBlock k (a :: placed.drop (placed.length - m)) = [a] := by
      have : ofBlock k (a :: placed.drop (placed.length - m)) = a :: ofBlock k (placed.drop (placed.length - m)) := by
        simp [ofBlock, hk]
      rw [this, hnil]
    simp only [ofBlock, List.filter_append] at e2 ⊢
    rw [e2]
  · have e : ofBlock k (placed ++ [a]) = ofBlock k placed := by simp [ofBlock, hk]
    rw [e, hsplit]
    simp [ofBlock, hk]

/-- None is lost or made. -/
theorem placeTogether_perm (new placed : List Access) (n : Nat) : (placeTogether placed new n).1.Perm (placed ++ new) := by
  induction new generalizing placed n with
  | nil => simp [placeTogether]
  | cons a rest ih =>
    simp only [placeTogether]
    split
    · simpa using ih (placed ++ [a]) n
    · refine (ih _ _).trans ?_
      rw [List.append_assoc, List.cons_append]
      refine (List.perm_middle).trans ?_
      rw [← List.append_assoc, List.take_append_drop]
      exact List.perm_middle.symm

/-- The accesses of each block keep their order. -/
theorem placeTogether_order (new placed : List Access) (n k : Nat) :
    ofBlock k (placeTogether placed new n).1 = ofBlock k (placed ++ new) := by
  induction new generalizing placed n with
  | nil => simp [placeTogether]
  | cons a rest ih =>
    simp only [placeTogether]
    split
    · simpa using ih (placed ++ [a]) n
    · rw [ih]
      have e := ofBlock_insert placed a (Config.freeOrder n %
        ((placed.reverse.takeWhile fun b => b.source.block != a.source.block).length + 1)) k
        (Nat.le_of_lt_succ (Nat.mod_lt _ (Nat.succ_pos _)))
      have e2 : ∀ l, ofBlock k (l ++ rest) = ofBlock k l ++ ofBlock k rest := fun l => by simp [ofBlock]
      rw [e2, e, ← e2]
      simp

/-- None is lost or made: what the arbitration does not admit is parked. -/
theorem Part.arbitrate_perm (p : Part) (old : Nat) : (p.arbitrate old).requested.Perm p.requested := by
  have h := placeTogether_perm (p.bus.drop old) [] p.arb
  have k := (List.filter_append_perm p.admits (placeTogether [] (p.bus.drop old) p.arb).1).trans h
  simp only [List.nil_append] at k
  have e : p.requested = p.bus.take old ++ (p.bus.drop old ++ p.parked) := by
    rw [Part.requested, ← List.append_assoc, List.take_append_drop]
  rw [e]
  simp only [Part.requested, Part.arbitrate, List.append_assoc]
  refine List.Perm.append_left _ ?_
  refine ((List.perm_append_comm.append_left _).trans ?_)
  rw [← List.append_assoc]
  exact k.append_right _

theorem Part.arbitrate_mem (p : Part) (old : Nat) (a : Access) : a ∈ (p.arbitrate old).requested ↔ a ∈ p.requested :=
  (p.arbitrate_perm old).mem_iff

/-- An access that is admitted is on the list. -/
theorem Part.arbitrate_admitted (p : Part) (old : Nat) (a : Access) (ha : p.admits a = true) (h : a ∈ p.bus) :
    a ∈ (p.arbitrate old).bus := by
  have k := (placeTogether_perm (p.bus.drop old) [] p.arb).mem_iff (a := a)
  rw [← List.take_append_drop old p.bus, List.mem_append] at h
  simp only [Part.arbitrate, List.mem_append, List.mem_filter]
  rcases h with h | h
  · exact .inl h
  · exact .inr ⟨k.2 (by simpa using h), ha⟩

theorem Part.admits_of_running {p : Part} (h : p.ladder.state.pauses = false) (a : Access) : p.admits a = true := by
  simp [Part.admits, h]

/-- But where the line rests, nothing is parked. -/
theorem Part.arbitrate_parked (p : Part) (old : Nat) (h : p.ladder.state.pauses = false) : (p.arbitrate old).parked = p.parked := by
  simp [Part.arbitrate, Part.admits, h]

/-- The accesses of each block keep their order. -/
theorem Part.arbitrate_order (p : Part) (old k : Nat) (h : p.ladder.state.pauses = false) :
    ofBlock k (p.arbitrate old).bus = ofBlock k p.bus := by
  have g := placeTogether_order (p.bus.drop old) [] p.arb k
  simp only [List.nil_append] at g
  have e2 : ∀ l l', ofBlock k (l ++ l') = ofBlock k l ++ ofBlock k l' := fun l l' => by simp [ofBlock]
  have f : (placeTogether [] (p.bus.drop old) p.arb).1.filter p.admits = (placeTogether [] (p.bus.drop old) p.arb).1 :=
    List.filter_eq_self.2 fun a _ => Part.admits_of_running h a
  simp only [Part.arbitrate, f, e2, g]
  rw [← e2, List.take_append_drop]

/-- The accesses on the list before are still its first ones, in their order. -/
theorem Part.arbitrate_old (p : Part) (old : Nat) (h : old ≤ p.bus.length) : (p.arbitrate old).bus.take old = p.bus.take old := by
  simp [Part.arbitrate, h]

end Sys2Proof.Machine
end

