-- ==== Sys2Proof/Laws/Memory.lean ====
section
/-! SUPPORT. Host memory: every operation keeps the canonical form, a byte written reads back, and every other byte stays. -/

namespace Sys2Proof.Machine

/-! ## The canonical form -/

theorem Memory.wfFrom_mono {lo lo' : Nat} (h : lo' ≤ lo) {m : Memory} (w : Memory.wfFrom lo m = true) :
    Memory.wfFrom lo' m = true := by
  cases m with
  | nil => rfl
  | cons c rest =>
    obtain ⟨a, b⟩ := c
    simp only [Memory.wfFrom, Bool.and_eq_true, decide_eq_true_eq] at w ⊢
    exact ⟨⟨h.trans w.1.1, w.1.2⟩, w.2⟩

/-- Below the first cell of a memory in canonical form nothing is listed. -/
theorem Memory.readByte_below {lo a : Nat} (h : a < lo) {m : Memory} (w : Memory.wfFrom lo m = true) :
    m.readByte a = Config.unwrittenByte := by
  induction m generalizing lo with
  | nil => rfl
  | cons c rest ih =>
    obtain ⟨k, b⟩ := c
    simp only [Memory.wfFrom, Bool.and_eq_true, decide_eq_true_eq] at w
    rw [Memory.readByte, if_neg (by omega)]
    exact ih (by omega) w.2

theorem Memory.writeByte_wfFrom {lo a : Nat} (h : lo ≤ a) {m : Memory} (w : Memory.wfFrom lo m = true) (b : Byte) :
    Memory.wfFrom lo (m.writeByte a b) = true := by
  induction m generalizing lo with
  | nil => by_cases hb : b = Config.unwrittenByte <;> simp [Memory.writeByte, Memory.wfFrom, hb, h]
  | cons c rest ih =>
    obtain ⟨k, d⟩ := c
    simp only [Memory.wfFrom, Bool.and_eq_true, decide_eq_true_eq] at w
    unfold Memory.writeByte
    split_ifs with h1 h2 h3 h4
    · simp [Memory.wfFrom, w]
    · simp only [Memory.wfFrom, Bool.and_eq_true, decide_eq_true_eq, bne_iff_ne]
      exact ⟨⟨h, h2⟩, ⟨by omega, by simpa using w.1.2⟩, w.2⟩
    · exact Memory.wfFrom_mono (by omega) w.2
    · simp only [Memory.wfFrom, Bool.and_eq_true, decide_eq_true_eq, bne_iff_ne]
      exact ⟨⟨h, h4⟩, by rw [h3]; exact w.2⟩
    · simp only [Memory.wfFrom, Bool.and_eq_true, decide_eq_true_eq]
      exact ⟨w.1, ih (by omega) w.2⟩

/-- A byte write keeps the canonical form. -/
theorem Memory.writeByte_wf {m : Memory} (w : m.wf = true) (a : Nat) (b : Byte) : (m.writeByte a b).wf = true :=
  Memory.writeByte_wfFrom (Nat.zero_le a) w b

/-- A write of consecutive bytes keeps the canonical form. -/
theorem Memory.writeBytes_wf {m : Memory} (w : m.wf = true) (a : Nat) (bytes : List Byte) :
    (m.writeBytes a bytes).wf = true := by
  induction bytes generalizing m a with
  | nil => exact w
  | cons b rest ih => exact ih (Memory.writeByte_wf w a b) (a + 1)

/-- A word write keeps the canonical form. -/
theorem Memory.writeWord_wf {m : Memory} (w : m.wf = true) (a : Nat) (v : Word) : (m.writeWord a v).wf = true :=
  Memory.writeBytes_wf w a (wordBytes v)

theorem Memory.clear_wfFrom {from' lo hi : Nat} {m : Memory} (w : Memory.wfFrom from' m = true) :
    Memory.wfFrom from' (m.clear lo hi) = true := by
  induction m generalizing from' with
  | nil => rfl
  | cons c rest ih =>
    obtain ⟨k, b⟩ := c
    simp only [Memory.wfFrom, Bool.and_eq_true, decide_eq_true_eq] at w
    unfold Memory.clear at ih ⊢
    rw [List.filter_cons]
    split_ifs
    · simp only [Memory.wfFrom, Bool.and_eq_true, decide_eq_true_eq]
      exact ⟨w.1, ih w.2⟩
    · exact Memory.wfFrom_mono (by omega) (ih w.2)

/-- A cleared stretch leaves the canonical form. -/
theorem Memory.clear_wf {m : Memory} (w : m.wf = true) (lo hi : Nat) : (m.clear lo hi).wf = true :=
  Memory.clear_wfFrom w

/-- An access keeps the canonical form. -/
theorem Access.memAfter_wf {m : Memory} (w : m.wf = true) (x : Access) (area : Word) (host : Option Word) :
    (x.memAfter area host m).wf = true := by
  unfold Access.memAfter
  (repeat' split) <;> first | exact w | exact Memory.writeWord_wf w _ _

/-! ## Reading after writing -/

/-- Another byte is left as it was. -/
theorem Memory.readByte_writeByte_other {a x : Nat} (h : x ≠ a) (m : Memory) (b : Byte) :
    (m.writeByte a b).readByte x = m.readByte x := by
  induction m with
  | nil =>
    unfold Memory.writeByte
    split_ifs
    · rfl
    · simp [Memory.readByte, Ne.symm h]
  | cons c rest ih =>
    obtain ⟨k, d⟩ := c
    unfold Memory.writeByte
    split_ifs with h1 h2 h3 h4
    · rfl
    · simp [Memory.readByte, Ne.symm h]
    · simp [Memory.readByte, ← h3, Ne.symm h]
    · simp [Memory.readByte, ← h3, Ne.symm h]
    · simp only [Memory.readByte, ih]

/-- The byte written reads back, in a memory in canonical form. -/
theorem Memory.readByte_writeByte {m : Memory} (w : m.wf = true) (a : Nat) (b : Byte) :
    (m.writeByte a b).readByte a = b := by
  suffices h : ∀ {lo : Nat} {m : Memory}, lo ≤ a → Memory.wfFrom lo m = true → (m.writeByte a b).readByte a = b from
    h (Nat.zero_le a) w
  intro lo m hlo w
  induction m generalizing lo with
  | nil =>
    unfold Memory.writeByte
    split_ifs with hb
    · simp [Memory.readByte, hb]
    · simp [Memory.readByte]
  | cons c rest ih =>
    obtain ⟨k, d⟩ := c
    have w' := w
    simp only [Memory.wfFrom, Bool.and_eq_true, decide_eq_true_eq] at w'
    unfold Memory.writeByte
    split_ifs with h1 h2 h3 h4
    · rw [Memory.readByte, if_neg (by omega), h2]
      exact Memory.readByte_below (lo := k + 1) (by omega) w'.2
    · simp [Memory.readByte]
    · rw [h4]
      exact Memory.readByte_below (lo := k + 1) (by omega) w'.2
    · simp [Memory.readByte]
    · rw [Memory.readByte, if_neg (by omega)]
      exact ih (lo := k + 1) (by omega) w'.2

/-- Bytes outside a stretch written are left as they were. -/
theorem Memory.readByte_writeBytes_other (m : Memory) (a x : Nat) (bytes : List Byte)
    (h : x < a ∨ a + bytes.length ≤ x) : (m.writeBytes a bytes).readByte x = m.readByte x := by
  induction bytes generalizing m a with
  | nil => rfl
  | cons b rest ih =>
    simp only [List.length_cons] at h
    rw [Memory.writeBytes, ih _ _ (by omega), Memory.readByte_writeByte_other (by omega)]

/-- Bytes outside a word written are left as they were. -/
theorem Memory.readByte_writeWord_other (m : Memory) (a x : Nat) (v : Word) (h : ¬ inWord a x) :
    (m.writeWord a v).readByte x = m.readByte x := by
  apply Memory.readByte_writeBytes_other
  simp only [wordBytes, List.length_cons, List.length_nil]
  unfold inWord at h
  omega

/-- Bytes outside the word of an access are left as they were. -/
theorem Access.memAfter_other (m : Memory) (x : Access) (area : Word) (host : Option Word) (a : Nat)
    (h : ¬ inWord (busAddress area x.offset) a) : (x.memAfter area host m).readByte a = m.readByte a := by
  unfold Access.memAfter
  (repeat' split) <;> first | rfl | exact Memory.readByte_writeWord_other _ _ _ _ h

end Sys2Proof.Machine
end

