-- ==== Sys2Proof/Laws/Ladder.lean ====
section
/-! SUPPORT. No block below the ladder controller changes the ladder controller's state: one lemma per operation. -/

namespace Sys2Proof.Machine

/-- A fold of operations that each keep `g` keeps `g`. -/
theorem foldl_keeps {α β : Type} (g : Part → α) (f : Part → β → Part) (h : ∀ p x, g (f p x) = g p) (l : List β) (p : Part) :
    g (l.foldl f p) = g p := by
  induction l generalizing p with
  | nil => rfl
  | cons x xs ih => simp [ih, h]

variable (p : Part)

/-- A report of any fault but MEMORY leaves the ladder controller alone (R160). -/
@[simp] theorem Part.report_ladder (code : FaultCode) (d : Half) (h : code ≠ .memory) :
    (p.report code d).ladder = p.ladder := by
  simp [Part.report, h]

@[simp] theorem Part.giveBroadcast_ladder (ex : Exchange) (kind : PartKind) :
    (p.giveBroadcast ex kind).ladder = p.ladder := by
  simp [Part.giveBroadcast]
@[simp] theorem Part.frameStart_ladder : (p.frameStart).ladder = p.ladder := by
  unfold Part.frameStart; dsimp only; (repeat' split) <;> simp
@[simp] theorem Part.requestSent_ladder : (p.requestSent).ladder = p.ladder := by
  unfold Part.requestSent; (repeat' split) <;> simp
@[simp] theorem Part.decideAttempt_ladder (a : Attempt) (rx : Option Frame) : (p.decideAttempt a rx).ladder = p.ladder := by
  unfold Part.decideAttempt; split <;> simp
@[simp] theorem Part.replyTimerLimit_ladder : (p.replyTimerLimit).ladder = p.ladder := by
  unfold Part.replyTimerLimit; split <;> simp
@[simp] theorem Part.guardCarrier_ladder : (p.guardCarrier).ladder = p.ladder := by
  unfold Part.guardCarrier; split <;> simp
@[simp] theorem Part.carrierInGuard_ladder (items : List LineItem) : (p.carrierInGuard items).ladder = p.ladder := by
  unfold Part.carrierInGuard; (repeat' split) <;> simp
@[simp] theorem Part.judgeReply_ladder (ex : Exchange) (items : List LineItem) : (p.judgeReply ex items).ladder = p.ladder := by
  unfold Part.judgeReply; (repeat' split) <;> simp
@[simp] theorem Part.replyFrameEnd_ladder (items : List LineItem) : (p.replyFrameEnd items).ladder = p.ladder := by
  unfold Part.replyFrameEnd; dsimp only; (repeat' split) <;> simp
@[simp] theorem Part.strayFrame_ladder : (p.strayFrame).ladder = p.ladder := by
  unfold Part.strayFrame; split <;> simp
@[simp] theorem Part.strayClash_ladder : (p.strayClash).ladder = p.ladder := by
  unfold Part.strayClash; dsimp only; split <;> simp
@[simp] theorem Part.quietPassed_ladder : (p.quietPassed).ladder = p.ladder := rfl
@[simp] theorem Part.lineClash_ladder : p.lineClash.ladder = p.ladder := by
  unfold Part.lineClash; (repeat' split) <;> simp
@[simp] theorem Part.writeShadow_ladder (offset : Nat) (bytes : List Byte) :
    (p.writeShadow offset bytes).ladder = p.ladder := by
  simp [Part.writeShadow]
@[simp] theorem Part.clearShadow_ladder (lo hi : Nat) : (p.clearShadow lo hi).ladder = p.ladder := by
  simp [Part.clearShadow]
@[simp] theorem Part.clearSlice_ladder (e : NodeEntry) (size : Nat) : (p.clearSlice e size).ladder = p.ladder := by
  simp [Part.clearSlice]
@[simp] theorem Part.applyLoss_ladder (e : NodeEntry) (size : Nat) : (p.applyLoss e size).ladder = p.ladder := by
  unfold Part.applyLoss; split <;> simp
@[simp] theorem Part.outputTake_ladder (w : Word) : (p.outputTake w).ladder = p.ladder := by
  unfold Part.outputTake; dsimp only; (repeat' split) <;> simp
@[simp] theorem Part.imageIsReady_ladder : (p.imageIsReady).ladder = p.ladder := by
  simp [Part.imageIsReady]
@[simp] theorem Part.issueSlice_ladder (bank : Bank) (e : NodeEntry) (done : Nat) :
    (p.issueSlice bank e done).ladder = p.ladder := by
  simp [Part.issueSlice]
@[simp] theorem Part.beginClose_ladder : (p.beginClose).ladder = p.ladder := by
  simp [Part.beginClose]
@[simp] theorem Part.issueClose_ladder (fill : Bank) (job : CloseJob) : (p.issueClose fill job).ladder = p.ladder := by
  simp [Part.issueClose]
@[simp] theorem Part.holdWordTaken_ladder (w : Word) (job : CloseJob) : (p.holdWordTaken w job).ladder = p.ladder := by
  unfold Part.holdWordTaken; dsimp only; (repeat' split) <;> simp
@[simp] theorem Part.writeCycleWord_ladder : (p.writeCycleWord).ladder = p.ladder := by
  simp [Part.writeCycleWord]
@[simp] theorem Part.endClose_ladder : (p.endClose).ladder = p.ladder := by
  simp [Part.endClose]
@[simp] theorem Part.published_ladder (fill : Bank) : (p.published fill).ladder = p.ladder := by
  unfold Part.published; dsimp only; (repeat' split) <;> simp
@[simp] theorem Part.continueClose_ladder (w : Word) : (p.continueClose w).ladder = p.ladder := by
  unfold Part.continueClose; (repeat' split) <;> simp
@[simp] theorem Part.divisorReached_ladder : (p.divisorReached).ladder = p.ladder := by
  unfold Part.divisorReached; split <;> simp
@[simp] theorem Part.writeAnswer_ladder (writes : List (Nat × Word)) : (p.writeAnswer writes).ladder = p.ladder := by
  unfold Part.writeAnswer; split <;> simp
@[simp] theorem Part.readWithdraw_ladder (source : Source) (slot : SlotIx) :
    (p.readWithdraw source slot).ladder = p.ladder := by
  simp [Part.readWithdraw]
@[simp] theorem Part.startAnswer_ladder : (p.startAnswer).ladder = p.ladder := by
  unfold Part.startAnswer; (repeat' split) <;> simp
@[simp] theorem Part.readyAnswer_ladder (a : AnswerFor) : (p.readyAnswer a).ladder = p.ladder := by
  simp [Part.readyAnswer]
@[simp] theorem Part.nextAnswer_ladder : (p.nextAnswer).ladder = p.ladder := by
  simp [Part.nextAnswer]
@[simp] theorem Part.countAnswer_ladder (outcome : ParcelOutcome) : (p.countAnswer outcome).ladder = p.ladder := by
  simp [Part.countAnswer]
@[simp] theorem Part.freeParcel_ladder (slot : SlotIx) : (p.freeParcel slot).ladder = p.ladder := by
  simp [Part.freeParcel]
@[simp] theorem Part.finishParcel_ladder (slot : SlotIx) (outcome : ParcelOutcome) (status : Byte) :
    (p.finishParcel slot outcome status).ladder = p.ladder := by
  simp [Part.finishParcel]
@[simp] theorem Part.abandonParcel_ladder (slot : SlotIx) (outcome : ParcelOutcome) :
    (p.abandonParcel slot outcome).ladder = p.ladder := by
  simp [Part.abandonParcel]
@[simp] theorem Part.abandonDone_ladder (slot : SlotIx) : (p.abandonDone slot).ladder = p.ladder := by
  simp [Part.abandonDone]
@[simp] theorem Part.parcelAtChange_ladder (new : NodeState) (e : Parcel) : (p.parcelAtChange new e).ladder = p.ladder := by
  unfold Part.parcelAtChange; (repeat' split) <;> simp
@[simp] theorem Part.parcelNodeChange_ladder (i : NodeIx) (new : NodeState) :
    (p.parcelNodeChange i new).ladder = p.ladder := by
  simp [Part.parcelNodeChange, foldl_keeps (fun q : Part => q.ladder)]
@[simp] theorem Part.parcelCommit_ladder (new : Vector NodeEntry 48) : (p.parcelCommit new).ladder = p.ladder := by
  unfold Part.parcelCommit
  refine foldl_keeps (fun q : Part => q.ladder) _ (fun q e => ?_) _ _
  (repeat' split) <;> simp
@[simp] theorem Part.readTotal_ladder : (p.readTotal).ladder = p.ladder := by
  simp [Part.readTotal]
@[simp] theorem Part.scanTrigger_ladder : (p.scanTrigger).ladder = p.ladder := by
  unfold Part.scanTrigger; (repeat' split) <;> simp
@[simp] theorem Part.visitSlot_ladder (slot : SlotIx) (left : Nat) : (p.visitSlot slot left).ladder = p.ladder := by
  simp [Part.visitSlot]
@[simp] theorem Part.answerDeferred_ladder (slot : SlotIx) (left : Nat) : (p.answerDeferred slot left).ladder = p.ladder := by
  simp [Part.answerDeferred]
@[simp] theorem Part.walkStop_ladder (slot : SlotIx) : (p.walkStop slot).ladder = p.ladder := by
  simp [Part.walkStop]
@[simp] theorem Part.walkEnd_ladder : (p.walkEnd).ladder = p.ladder := by
  unfold Part.walkEnd; dsimp only; (repeat' split) <;> simp
@[simp] theorem Part.walkOn_ladder (slot : SlotIx) (left : Nat) : (p.walkOn slot left).ladder = p.ladder := by
  unfold Part.walkOn; split <;> simp
@[simp] theorem Part.totalRead_ladder (total : Word) : (p.totalRead total).ladder = p.ladder := by
  unfold Part.totalRead; dsimp only; (repeat' split) <;> simp
@[simp] theorem Part.answerAtOnce_ladder (slot : SlotIx) (left : Nat) (ask : Half) (outcome : ParcelOutcome) :
    (p.answerAtOnce slot left ask outcome).ladder = p.ladder := by
  simp [Part.answerAtOnce]
@[simp] theorem Part.writeTaken_ladder (slot : SlotIx) (left : Nat) (h : SlotHeader) (words : List Word) :
    (p.writeTaken slot left h words).ladder = p.ladder := by
  simp [Part.writeTaken]
@[simp] theorem Part.beginTake_ladder (slot : SlotIx) (left : Nat) (h : SlotHeader) :
    (p.beginTake slot left h).ladder = p.ladder := by
  unfold Part.beginTake; split <;> simp
@[simp] theorem Part.judgeSlot_ladder (slot : SlotIx) (left : Nat) (ask withdraw : Half) (target length : Word) :
    (p.judgeSlot slot left ask withdraw target length).ladder = p.ladder := by
  unfold Part.judgeSlot; dsimp only; (repeat' split) <;> simp
@[simp] theorem Part.visitRead_ladder (slot : SlotIx) (left : Nat) (got : List Word) :
    (p.visitRead slot left got).ladder = p.ladder := by
  unfold Part.visitRead; (repeat' split) <;> simp
@[simp] theorem Part.parcelTaken_ladder (slot : SlotIx) (left : Nat) (h : SlotHeader) (request : List Byte) :
    (p.parcelTaken slot left h request).ladder = p.ladder := by
  unfold Part.parcelTaken; dsimp only; (repeat' split) <;> simp
@[simp] theorem Part.continueWalk_ladder (w : Word) : (p.continueWalk w).ladder = p.ladder := by
  unfold Part.continueWalk; dsimp only; (repeat' split) <;> simp
@[simp] theorem Part.walkFailed_ladder : (p.walkFailed).ladder = p.ladder := by
  unfold Part.walkFailed; dsimp only; (repeat' split) <;> simp
@[simp] theorem Part.answerComplete_ladder : (p.answerComplete).ladder = p.ladder := by
  unfold Part.answerComplete; dsimp only; (repeat' split) <;> simp
@[simp] theorem Part.continueAnswer_ladder (w : Word) : (p.continueAnswer w).ladder = p.ladder := by
  unfold Part.continueAnswer; dsimp only; (repeat' split) <;> simp
@[simp] theorem Part.answerFailed_ladder : (p.answerFailed).ladder = p.ladder := by
  unfold Part.answerFailed; (repeat' split) <;> simp
@[simp] theorem Part.parkParcels_ladder : (p.parkParcels).ladder = p.ladder := by
  simp [Part.parkParcels]
@[simp] theorem Part.parcelEnd_ladder (e : ParcelEnd) : (p.parcelEnd e).ladder = p.ladder := by
  unfold Part.parcelEnd; split <;> simp
@[simp] theorem Part.takeParcelEnd_ladder (e : ParcelEnd) : (p.takeParcelEnd e).ladder = p.ladder := by
  unfold Part.takeParcelEnd; split <;> simp
@[simp] theorem Part.takeKeptEnd_ladder : (p.takeKeptEnd).ladder = p.ladder := by
  unfold Part.takeKeptEnd; split <;> simp
@[simp] theorem Part.resumeParcels_ladder : (p.resumeParcels).ladder = p.ladder := by
  unfold Part.resumeParcels; dsimp only; split <;> simp
@[simp] theorem Part.retryAnswers_ladder : (p.retryAnswers).ladder = p.ladder := by
  simp only [Part.retryAnswers]; (repeat' split) <;> simp [foldl_keeps (fun q : Part => q.ladder)]
@[simp] theorem Part.lowerPatience_ladder : (p.lowerPatience).ladder = p.ladder := by
  simp [Part.lowerPatience]
@[simp] theorem Part.patienceExpired_ladder (slot : SlotIx) : (p.patienceExpired slot).ladder = p.ladder := by
  unfold Part.patienceExpired; (repeat' split) <;> simp
@[simp] theorem Part.issueStatus_ladder (i : NodeIx) (k : Fin 4) : (p.issueStatus i k).ladder = p.ladder := by
  simp [Part.issueStatus]
@[simp] theorem Part.startStatus_ladder : (p.startStatus).ladder = p.ladder := by
  unfold Part.startStatus; split <;> simp
@[simp] theorem Part.queueStatus_ladder (i : NodeIx) (cause : Bool) : (p.queueStatus i cause).ladder = p.ladder := by
  unfold Part.queueStatus; dsimp only; (repeat' split) <;> simp
@[simp] theorem Part.nextStatus_ladder (w : StatusWrite) : (p.nextStatus w).ladder = p.ladder := by
  unfold Part.nextStatus; dsimp only; split <;> simp
@[simp] theorem Part.statusStep_ladder (k : Fin 4) : (p.statusStep k).ladder = p.ladder := by
  unfold Part.statusStep; dsimp only; (repeat' split) <;> simp
@[simp] theorem Part.oweStatus_ladder : (p.oweStatus).ladder = p.ladder := by
  unfold Part.oweStatus; (repeat' split) <;> simp
@[simp] theorem Part.statusFailed_ladder : (p.statusFailed).ladder = p.ladder := by
  unfold Part.statusFailed; (repeat' split) <;> simp
@[simp] theorem Part.writeOwed_ladder : (p.writeOwed).ladder = p.ladder := by
  simp [Part.writeOwed, foldl_keeps (fun q : Part => q.ladder)]
@[simp] theorem Part.toTail_ladder (i : NodeIx) : (p.toTail i).ladder = p.ladder := by
  unfold Part.toTail; split <;> simp
@[simp] theorem Part.indicate_ladder (i : NodeIx) (origin : LatchOrigin) : (p.indicate i origin).ladder = p.ladder := by
  unfold Part.indicate; (repeat' split) <;> simp
@[simp] theorem Part.unqueue_ladder (i : NodeIx) : (p.unqueue i).ladder = p.ladder := by
  simp [Part.unqueue]
@[simp] theorem Part.eventLeaves_ladder (i : NodeIx) : (p.eventLeaves i).ladder = p.ladder := by
  simp [Part.eventLeaves]
@[simp] theorem Part.eventCleared_ladder (i : NodeIx) : (p.eventCleared i).ladder = p.ladder := by
  simp [Part.eventCleared]
@[simp] theorem Part.voidNotes_ladder : (p.voidNotes).ladder = p.ladder := by
  simp [Part.voidNotes]
@[simp] theorem Part.confirmAck_ladder (i : NodeIx) (carried : Option Byte) : (p.confirmAck i carried).ladder = p.ladder := by
  unfold Part.confirmAck; (repeat' split) <;> simp
@[simp] theorem Part.newRound_ladder : (p.newRound).ladder = p.ladder := by
  simp [Part.newRound]
@[simp] theorem Part.nameNode_ladder (i : NodeIx) : (p.nameNode i).ladder = p.ladder := by
  simp [Part.nameNode]
@[simp] theorem Part.startAppend_ladder : (p.startAppend).ladder = p.ladder := by
  unfold Part.startAppend; split <;> simp
@[simp] theorem Part.enqueueAppend_ladder (what : AppendFor) (record : List Word) :
    (p.enqueueAppend what record).ladder = p.ladder := by
  simp [Part.enqueueAppend]
@[simp] theorem Part.nextAppend_ladder : (p.nextAppend).ladder = p.ladder := by
  simp [Part.nextAppend]
@[simp] theorem Part.offerNote_ladder : (p.offerNote).ladder = p.ladder := by
  unfold Part.offerNote; (repeat' split) <;> simp
@[simp] theorem Part.noteAppended_ladder (address : Byte) (count : Nat) :
    (p.noteAppended address count).ladder = p.ladder := by
  simp [Part.noteAppended]
@[simp] theorem Part.eventAccepted_ladder (a : Append) (i : NodeIx) (seq : Byte) (more : Bool) :
    (p.eventAccepted a i seq more).ladder = p.ladder := by
  unfold Part.eventAccepted; (repeat' split) <;> simp
@[simp] theorem Part.appendPublished_ladder (a : Append) : (p.appendPublished a).ladder = p.ladder := by
  unfold Part.appendPublished; dsimp only; (repeat' split) <;> simp
@[simp] theorem Part.continueAppend_ladder : (p.continueAppend).ladder = p.ladder := by
  unfold Part.continueAppend; (repeat' split) <;> simp
@[simp] theorem Part.appendAborted_ladder (a : Append) : (p.appendAborted a).ladder = p.ladder := by
  unfold Part.appendAborted; split <;> simp
@[simp] theorem Part.appendFailed_ladder : (p.appendFailed).ladder = p.ladder := by
  unfold Part.appendFailed; (repeat' split) <;> simp
@[simp] theorem Part.requestTaken_ladder (onFetch : Bool) : (p.requestTaken onFetch).ladder = p.ladder := by
  unfold Part.requestTaken; split <;> simp
@[simp] theorem Part.takenValue_ladder (t : Word) (onFetch : Bool) : (p.takenValue t onFetch).ladder = p.ladder := by
  unfold Part.takenValue; dsimp only; (repeat' split) <;> simp
@[simp] theorem Part.takenLost_ladder : (p.takenLost).ladder = p.ladder := by
  simp [Part.takenLost]
@[simp] theorem Part.takeEvent_ladder (i : NodeIx) (f : Frame) : (p.takeEvent i f).ladder = p.ladder := by
  simp [Part.takeEvent]
@[simp] theorem Part.fetchReply_ladder (i : NodeIx) (f : Frame) : (p.fetchReply i f).ladder = p.ladder := by
  unfold Part.fetchReply; dsimp only; (repeat' split) <;> simp
@[simp] theorem Part.moveNode_ladder (i : NodeIx) (f : NodeRecord → NodeRecord) (new : NodeState) :
    (p.moveNode i f new).ladder = p.ladder := by
  unfold Part.moveNode; dsimp only; (repeat' split) <;> simp
@[simp] theorem Part.changeState_ladder (i : NodeIx) (f : NodeRecord → NodeRecord) (new : NodeState) :
    (p.changeState i f new).ladder = p.ladder := by
  unfold Part.changeState; split <;> simp
@[simp] theorem Part.setLastGood_ladder (i : NodeIx) : (p.setLastGood i).ladder = p.ladder := by
  simp [Part.setLastGood]
@[simp] theorem Part.goodAnswer_ladder (i : NodeIx) (f : NodeRecord → NodeRecord) : (p.goodAnswer i f).ladder = p.ladder := by
  unfold Part.goodAnswer; split <;> simp
@[simp] theorem Part.goodData_ladder (i : NodeIx) (f : Frame) : (p.goodData i f).ladder = p.ladder := by
  unfold Part.goodData; dsimp only; (repeat' split) <;> simp
@[simp] theorem Part.goodIdent_ladder (i : NodeIx) (f : Frame) : (p.goodIdent i f).ladder = p.ladder := by
  unfold Part.goodIdent; dsimp only; (repeat' split) <;> simp
@[simp] theorem Part.miss_ladder (i : NodeIx) : (p.miss i).ladder = p.ladder := by
  unfold Part.miss; dsimp only; (repeat' split) <;> simp
@[simp] theorem Part.goodEvent_ladder (i : NodeIx) : (p.goodEvent i).ladder = p.ladder := by
  unfold Part.goodEvent; split <;> simp
@[simp] theorem Part.nodeBid_ladder (i : NodeIx) (reason : Byte) : (p.nodeBid i reason).ladder = p.ladder := by
  unfold Part.nodeBid; (repeat' split) <;> simp
@[simp] theorem Part.nodeAlert_ladder (i : NodeIx) : (p.nodeAlert i).ladder = p.ladder := by
  unfold Part.nodeAlert; split <;> simp
@[simp] theorem Part.lossBefore_ladder (i : NodeIx) (new : NodeEntry) (size : Nat) :
    (p.lossBefore i new size).ladder = p.ladder := by
  unfold Part.lossBefore; dsimp only; (repeat' split) <;> simp
@[simp] theorem Part.lossAfter_ladder (i : NodeIx) (new : NodeEntry) (size : Nat) :
    (p.lossAfter i new size).ladder = p.ladder := by
  unfold Part.lossAfter; dsimp only; (repeat' split) <;> simp
@[simp] theorem Part.commitNode_ladder (i : NodeIx) (new : NodeEntry) : (p.commitNode i new).ladder = p.ladder := by
  unfold Part.commitNode; dsimp only; (repeat' split) <;> simp
@[simp] theorem Part.nodeCommit_ladder (new : Vector NodeEntry 48) (size : Nat) :
    (p.nodeCommit new size).ladder = p.ladder := by
  simp [Part.nodeCommit, foldl_keeps (fun q : Part => q.ladder)]
@[simp] theorem Part.nodeOpen_ladder (exempt : NodeIx → Bool) : (p.nodeOpen exempt).ladder = p.ladder := by
  simp [Part.nodeOpen]
@[simp] theorem Part.reprobe_ladder (i : NodeIx) : (p.reprobe i).ladder = p.ladder := by
  simp [Part.reprobe]
@[simp] theorem Part.settleNodeOpen_ladder : (p.settleNodeOpen).ladder = p.ladder := by
  unfold Part.settleNodeOpen; dsimp only; (repeat' split) <;> simp
@[simp] theorem Part.openWindow_ladder : (p.openWindow).ladder = p.ladder := by
  simp [Part.openWindow]
@[simp] theorem Part.windowNotFitted_ladder (fault : Bool) : (p.windowNotFitted fault).ladder = p.ladder := by
  unfold Part.windowNotFitted; split <;> simp
@[simp] theorem Part.sighting_ladder (address : Byte) (origin : StrayOrigin) (kind : Byte) :
    (p.sighting address origin kind).ladder = p.ladder := by
  simp only [Part.sighting]
  split <;> simp
@[simp] theorem Part.tally_ladder (f : Tallies → Tallies) : (p.tally f).ladder = p.ladder := by
  simp [Part.tally]
@[simp] theorem Part.takeSlot_ladder (report : SlotReport) : (p.takeSlot report).ladder = p.ladder := by
  unfold Part.takeSlot; (repeat' split) <;> simp
@[simp] theorem Part.endWindow_ladder : (p.endWindow).ladder = p.ladder := by
  simp [Part.endWindow]
@[simp] theorem Part.windowCommit_ladder (initial : Nat) : (p.windowCommit initial).ladder = p.ladder := by
  simp [Part.windowCommit]
@[simp] theorem Part.checkAt_ladder (c : Check) : (p.checkAt c).ladder = p.ladder := by
  unfold Part.checkAt; split <;> simp
@[simp] theorem Part.beginCheck_ladder (origin : CheckFrom) : (p.beginCheck origin).ladder = p.ladder := by
  simp [Part.beginCheck]
@[simp] theorem Part.statOpen_ladder : (p.statOpen).ladder = p.ladder := by
  simp [Part.statOpen]
@[simp] theorem Part.checkEnd_ladder (origin : CheckFrom) : (p.checkEnd origin).ladder = p.ladder := by
  unfold Part.checkEnd; dsimp only; (repeat' split) <;> simp
@[simp] theorem Part.restoreAccepted_ladder : (p.restoreAccepted).ladder = p.ladder := by
  unfold Part.restoreAccepted; split <;> simp
@[simp] theorem Part.acceptCommit_ladder (d : Directory) (c : Check) (v : Verdict) :
    (p.acceptCommit d c v).ladder = p.ladder := by
  simp only [Part.acceptCommit]; (repeat' split) <;> simp [foldl_keeps (fun q : Part => q.ladder)]
@[simp] theorem Part.refuseCommit_ladder (c : Check) (v : Verdict) : (p.refuseCommit c v).ladder = p.ladder := by
  simp [Part.refuseCommit]
@[simp] theorem Part.judgeCopy_ladder (c : Check) : (p.judgeCopy c).ladder = p.ladder := by
  unfold Part.judgeCopy; dsimp only; (repeat' split) <;> simp
@[simp] theorem Part.copyRead_ladder (c : Check) : (p.copyRead c).ladder = p.ladder := by
  unfold Part.copyRead; split <;> simp
@[simp] theorem Part.judgeKept_ladder : (p.judgeKept).ladder = p.ladder := by
  unfold Part.judgeKept; (repeat' split) <;> simp
@[simp] theorem Part.reportRefused_ladder : (p.reportRefused).ladder = p.ladder := by
  simp [Part.reportRefused]
@[simp] theorem Part.generationRead_ladder (c : Check) (g : Word) : (p.generationRead c g).ladder = p.ladder := by
  unfold Part.generationRead; (repeat' split) <;> simp
@[simp] theorem Part.continueCheck_ladder (w : Word) : (p.continueCheck w).ladder = p.ladder := by
  unfold Part.continueCheck; dsimp only; (repeat' split) <;> simp
@[simp] theorem Part.verdictFailed_ladder : (p.verdictFailed).ladder = p.ladder := by
  unfold Part.verdictFailed; (repeat' split) <;> simp
@[simp] theorem Part.checkFailed_ladder : (p.checkFailed).ladder = p.ladder := by
  unfold Part.checkFailed; (repeat' split) <;> simp
@[simp] theorem Part.settleCheck_ladder : (p.settleCheck).ladder = p.ladder := by
  unfold Part.settleCheck; (repeat' split) <;> simp
@[simp] theorem Part.snapshotAt_ladder (s : Snapshot) : (p.snapshotAt s).ladder = p.ladder := by
  simp [Part.snapshotAt]
@[simp] theorem Part.beginSnapshot_ladder : (p.beginSnapshot).ladder = p.ladder := by
  simp [Part.beginSnapshot]
@[simp] theorem Part.endSnapshot_ladder : (p.endSnapshot).ladder = p.ladder := by
  unfold Part.endSnapshot; dsimp only; (repeat' split) <;> simp
@[simp] theorem Part.continueSnapshot_ladder : (p.continueSnapshot).ladder = p.ladder := by
  unfold Part.continueSnapshot; (repeat' split) <;> simp
@[simp] theorem Part.triggerSnapshot_ladder : (p.triggerSnapshot).ladder = p.ladder := by
  unfold Part.triggerSnapshot; (repeat' split) <;> simp
@[simp] theorem Part.settleSnapshot_ladder : (p.settleSnapshot).ladder = p.ladder := by
  unfold Part.settleSnapshot; split <;> simp
@[simp] theorem Part.periodExpired_ladder : (p.periodExpired).ladder = p.ladder := by
  simp [Part.periodExpired]
@[simp] theorem Part.statAskRead_ladder (w : Word) : (p.statAskRead w).ladder = p.ladder := by
  simp [Part.statAskRead]
@[simp] theorem Part.statAskFailed_ladder : (p.statAskFailed).ladder = p.ladder := by
  simp [Part.statAskFailed]
@[simp] theorem Part.cutSnapshot_ladder : (p.cutSnapshot).ladder = p.ladder := by
  simp [Part.cutSnapshot]
@[simp] theorem Part.startCycle_ladder : (p.startCycle).ladder = p.ladder := by
  simp [Part.startCycle]
@[simp] theorem Part.openRewrites_ladder : (p.openRewrites).ladder = p.ladder := by
  unfold Part.openRewrites; (repeat' split) <;> simp
@[simp] theorem Part.openPatience_ladder : (p.openPatience).ladder = p.ladder := by
  unfold Part.openPatience; (repeat' split) <;> simp
@[simp] theorem Part.openScan_ladder : (p.openScan).ladder = p.ladder := by
  unfold Part.openScan; (repeat' split) <;> simp
@[simp] theorem Part.settleParcelOpen_ladder : (p.settleParcelOpen).ladder = p.ladder := by
  unfold Part.settleParcelOpen; (repeat' split) <;> simp
@[simp] theorem Part.enterPolling_ladder : (p.enterPolling).ladder = p.ladder := by
  simp [Part.enterPolling]
@[simp] theorem Part.enterClosing_ladder : (p.enterClosing).ladder = p.ladder := by
  simp [Part.enterClosing]
@[simp] theorem Part.nameExchange_ladder (e : Parcel) (bt : Nat) (f : Parcel → Parcel) (ex : Exchange) (frame : List Byte) :
    (p.nameExchange e bt f ex frame).ladder = p.ladder := by
  unfold Part.nameExchange; split <;> simp
@[simp] theorem Part.nameSeg_ladder (e : Parcel) : (p.nameSeg e).ladder = p.ladder := by
  simp [Part.nameSeg]
@[simp] theorem Part.nameNext_ladder (e : Parcel) (n : Nat) : (p.nameNext e n).ladder = p.ladder := by
  simp [Part.nameNext]
@[simp] theorem Part.nameAbandon_ladder (e : Parcel) : (p.nameAbandon e).ladder = p.ladder := by
  simp [Part.nameAbandon]
@[simp] theorem Part.serveParcel_ladder (e : Parcel) : (p.serveParcel e).ladder = p.ladder := by
  unfold Part.serveParcel; split <;> simp
@[simp] theorem Part.newPass_ladder : (p.newPass).ladder = p.ladder := by
  simp [Part.newPass]
@[simp] theorem Part.parcelNext_ladder : (p.parcelNext).ladder = p.ladder := by
  unfold Part.parcelNext; dsimp only; (repeat' split) <;> simp
@[simp] theorem Part.parcelPhase_ladder : (p.parcelPhase).ladder = p.ladder := by
  simp [Part.parcelPhase]
@[simp] theorem Part.withdrawRead_ladder (slot : SlotIx) (w : Word) : (p.withdrawRead slot w).ladder = p.ladder := by
  unfold Part.withdrawRead; dsimp only; (repeat' split) <;> simp
@[simp] theorem Part.withdrawLost_ladder (slot : SlotIx) : (p.withdrawLost slot).ladder = p.ladder := by
  simp [Part.withdrawLost]
@[simp] theorem Part.parcelAttemptFailed_ladder (slot : SlotIx) : (p.parcelAttemptFailed slot).ladder = p.ladder := by
  unfold Part.parcelAttemptFailed; (repeat' split) <;> simp
@[simp] theorem Part.segAcked_ladder (slot : SlotIx) (b : Byte) : (p.segAcked slot b).ladder = p.ladder := by
  simp [Part.segAcked]
@[simp] theorem Part.segReplied_ladder (slot : SlotIx) (n : Nat) (f : Frame) : (p.segReplied slot n f).ladder = p.ladder := by
  unfold Part.segReplied; dsimp only; (repeat' split) <;> simp
@[simp] theorem Part.giveFetch_ladder (i : NodeIx) : (p.giveFetch i).ladder = p.ladder := by
  simp [Part.giveFetch]
@[simp] theorem Part.beginFetch_ladder (i : NodeIx) : (p.beginFetch i).ladder = p.ladder := by
  unfold Part.beginFetch; dsimp only; (repeat' split) <;> simp
@[simp] theorem Part.fetchNext_ladder : (p.fetchNext).ladder = p.ladder := by
  unfold Part.fetchNext; (repeat' split) <;> simp
@[simp] theorem Part.fetchPhase_ladder : (p.fetchPhase).ladder = p.ladder := by
  simp [Part.fetchPhase]
@[simp] theorem Part.fetchAfterRead_ladder : (p.fetchAfterRead).ladder = p.ladder := by
  unfold Part.fetchAfterRead; dsimp only; (repeat' split) <;> simp
@[simp] theorem Part.fetchGood_ladder (i : NodeIx) (ack : Option Byte) (f : Frame) :
    (p.fetchGood i ack f).ladder = p.ladder := by
  simp [Part.fetchGood]
@[simp] theorem Part.fetchAttemptFailed_ladder (i : NodeIx) : (p.fetchAttemptFailed i).ladder = p.ladder := by
  unfold Part.fetchAttemptFailed; (repeat' split) <;> simp
@[simp] theorem Part.windowPhase_ladder : (p.windowPhase).ladder = p.ladder := by
  unfold Part.windowPhase; (repeat' split) <;> simp
@[simp] theorem Part.givePoll_ladder (i : NodeIx) (ack : Option Byte) (slice : List Byte) :
    (p.givePoll i ack slice).ladder = p.ladder := by
  simp [Part.givePoll]
@[simp] theorem Part.pollAttempt_ladder (i : NodeIx) : (p.pollAttempt i).ladder = p.ladder := by
  unfold Part.pollAttempt; dsimp only; (repeat' split) <;> simp
@[simp] theorem Part.continueSlice_ladder (w : Word) : (p.continueSlice w).ladder = p.ladder := by
  unfold Part.continueSlice; (repeat' split) <;> simp
@[simp] theorem Part.sliceFailed_ladder : (p.sliceFailed).ladder = p.ladder := by
  unfold Part.sliceFailed; split <;> simp
@[simp] theorem Part.pollNext_ladder : (p.pollNext).ladder = p.ladder := by
  unfold Part.pollNext; split <;> simp
@[simp] theorem Part.pollAttemptFailed_ladder (i : NodeIx) : (p.pollAttemptFailed i).ladder = p.ladder := by
  unfold Part.pollAttemptFailed; dsimp only; (repeat' split) <;> simp
@[simp] theorem Part.takeOutcome_ladder (ex : Exchange) (reply : Option Frame) :
    (p.takeOutcome ex reply).ladder = p.ladder := by
  unfold Part.takeOutcome; split <;> simp
@[simp] theorem Part.slotEnd_ladder (heard : SlotHeard) : (p.slotEnd heard).ladder = p.ladder := by
  unfold Part.slotEnd; dsimp only; (repeat' split) <;> simp
@[simp] theorem Part.abandonSent_ladder (slot : SlotIx) : (p.abandonSent slot).ladder = p.ladder := by
  simp [Part.abandonSent]
@[simp] theorem Part.closeInRun_ladder : (p.closeInRun).ladder = p.ladder := by
  unfold Part.closeInRun; split <;> simp
@[simp] theorem Part.cycleExpiry_ladder : (p.cycleExpiry).ladder = p.ladder := by
  unfold Part.cycleExpiry; dsimp only; (repeat' split) <;> simp
@[simp] theorem Part.startupLoss_ladder (source : Source) : (p.startupLoss source).ladder = p.ladder := by
  unfold Part.startupLoss; (repeat' split) <;> simp

end Sys2Proof.Machine
end

