-- ==== Sys2Proof/Laws/Settle.lean ====
section
/-! SUPPORT. What `settle` leaves as it is: the steps that come about of themselves after an event change no record, image, window,
counter or capture, nor where the scheduler's cycle stands. -/

namespace Sys2Proof.Machine

/-- `q` has what `p` has of everything that no step of `settle` changes. -/
abbrev Part.Keeps (q p : Part) : Prop :=
  q.table.records = p.table.records ∧ q.images = p.images ∧ q.windows = p.windows ∧
  q.sched.state = p.sched.state ∧ q.sched.cycle = p.sched.cycle ∧ q.sched.timer = p.sched.timer ∧
  q.sched.overrun = p.sched.overrun ∧ q.sched.pollList = p.sched.pollList ∧
  q.faults.capture = p.faults.capture ∧ q.faults.counters = p.faults.counters ∧
  q.faults.divisorCount = p.faults.divisorCount ∧ q.faults.divisorDue = p.faults.divisorDue ∧
  q.faults.periodCount = p.faults.periodCount ∧ q.faults.periodDue = p.faults.periodDue ∧
  q.faults.askSeen = p.faults.askSeen ∧
  q.ladder.faultHold = p.ladder.faultHold ∧ q.ladder.wakeSeen = p.ladder.wakeSeen ∧ q.ladder.settle = p.ladder.settle ∧
  q.ladder.rouse = p.ladder.rouse ∧ q.ladder.holdSent = p.ladder.holdSent ∧ q.ladder.stilling = p.ladder.stilling ∧
  q.ladder.startCount = p.ladder.startCount ∧ q.ladder.lineClock = p.ladder.lineClock ∧
  q.ladder.resetWaiting = p.ladder.resetWaiting ∧ q.ladder.softPending = p.ladder.softPending ∧
  q.events.queue = p.events.queue ∧ q.events.written = p.events.written ∧ q.events.taken = p.events.taken ∧
  q.events.takenInvalid = p.events.takenInvalid ∧ q.events.appendStopped = p.events.appendStopped ∧
  q.events.appends = p.events.appends ∧
  q.parcels.cursor = p.parcels.cursor ∧ q.parcels.deferred = p.parcels.deferred ∧
  q.loader.settings = p.loader.settings ∧ q.loader.accepted = p.loader.accepted ∧ q.loader.refused = p.loader.refused ∧
  q.loader.verdict = p.loader.verdict

theorem Part.Keeps.rfl {p : Part} : p.Keeps p := by simp [Part.Keeps]

theorem Part.Keeps.trans {p q r : Part} (h : r.Keeps q) (k : q.Keeps p) : r.Keeps p := by
  simp_all [Part.Keeps]

/-- A fold of operations that each stand in a reflexive and transitive relation to what they are given does so too. -/
theorem foldl_relates {β : Type} (R : Part → Part → Prop) (hr : ∀ {p}, R p p) (ht : ∀ {p q r}, R r q → R q p → R r p)
    (f : Part → β → Part) (h : ∀ p x, R (f p x) p) (l : List β) (p : Part) : R (l.foldl f p) p := by
  induction l generalizing p with
  | nil => exact hr
  | cons x xs ih => exact ht (ih (f p x)) (h p x)

variable (p : Part)

@[simp] theorem Part.writeAnswer_keeps (writes : List (Nat × Word)) : (p.writeAnswer writes).Keeps p := by
  unfold Part.writeAnswer; split <;> simp [Part.Keeps]
@[simp] theorem Part.readWithdraw_keeps (source : Source) (slot : SlotIx) : (p.readWithdraw source slot).Keeps p := by
  simp [Part.readWithdraw, Part.Keeps]
@[simp] theorem Part.startAnswer_keeps : (p.startAnswer).Keeps p := by
  unfold Part.startAnswer; (repeat' split) <;> simp [Part.Keeps]
@[simp] theorem Part.readyAnswer_keeps (a : AnswerFor) : (p.readyAnswer a).Keeps p := by
  simp [Part.readyAnswer, Part.Keeps]
@[simp] theorem Part.readTotal_keeps : (p.readTotal).Keeps p := by
  simp [Part.readTotal, Part.Keeps]
@[simp] theorem Part.scanTrigger_keeps : (p.scanTrigger).Keeps p := by
  unfold Part.scanTrigger; (repeat' split) <;> simp [Part.Keeps]
@[simp] theorem Part.retryAnswers_keeps : (p.retryAnswers).Keeps p := by
  unfold Part.retryAnswers; dsimp only; split
  · exact Part.Keeps.rfl
  · exact foldl_relates Part.Keeps Part.Keeps.rfl (fun h k => h.trans k) _ (fun _ _ => by simp [Part.Keeps]) _ _
@[simp] theorem Part.lowerPatience_keeps : (p.lowerPatience).Keeps p := by
  simp [Part.lowerPatience, Part.Keeps]
@[simp] theorem Part.issueStatus_keeps (i : NodeIx) (k : Fin 4) : (p.issueStatus i k).Keeps p := by
  simp [Part.issueStatus, Part.Keeps]
@[simp] theorem Part.startStatus_keeps : (p.startStatus).Keeps p := by
  unfold Part.startStatus; split <;> simp [Part.Keeps]
@[simp] theorem Part.queueStatus_keeps (i : NodeIx) (cause : Bool) : (p.queueStatus i cause).Keeps p := by
  unfold Part.queueStatus; dsimp only; (repeat' split) <;> simp [Part.Keeps]
@[simp] theorem Part.writeOwed_keeps : (p.writeOwed).Keeps p := by
  unfold Part.writeOwed
  exact foldl_relates Part.Keeps Part.Keeps.rfl (fun h k => h.trans k) _ (fun _ _ => by simp [Part.Keeps]) _ _
@[simp] theorem Part.newRound_keeps : (p.newRound).Keeps p := by
  simp [Part.newRound, Part.Keeps]
@[simp] theorem Part.nameNode_keeps (i : NodeIx) : (p.nameNode i).Keeps p := by
  simp [Part.nameNode, Part.Keeps]
@[simp] theorem Part.startAppend_keeps : (p.startAppend).Keeps p := by
  unfold Part.startAppend; split <;> simp [Part.Keeps]
@[simp] theorem Part.requestTaken_keeps (onFetch : Bool) : (p.requestTaken onFetch).Keeps p := by
  unfold Part.requestTaken; split <;> simp [Part.Keeps]
@[simp] theorem Part.settleNodeOpen_keeps : (p.settleNodeOpen).Keeps p := by
  unfold Part.settleNodeOpen; dsimp only; (repeat' split) <;> simp [Part.Keeps]
@[simp] theorem Part.checkAt_keeps (c : Check) : (p.checkAt c).Keeps p := by
  unfold Part.checkAt; split <;> simp [Part.Keeps]
@[simp] theorem Part.beginCheck_keeps (origin : CheckFrom) : (p.beginCheck origin).Keeps p := by
  simp [Part.beginCheck, Part.Keeps]
@[simp] theorem Part.settleCheck_keeps : (p.settleCheck).Keeps p := by
  unfold Part.settleCheck; (repeat' split) <;> simp [Part.Keeps]
@[simp] theorem Part.snapshotAt_keeps (s : Snapshot) : (p.snapshotAt s).Keeps p := by
  simp [Part.snapshotAt, Part.Keeps]
@[simp] theorem Part.beginSnapshot_keeps : (p.beginSnapshot).Keeps p := by
  simp [Part.beginSnapshot, Part.Keeps]
@[simp] theorem Part.triggerSnapshot_keeps : (p.triggerSnapshot).Keeps p := by
  unfold Part.triggerSnapshot; (repeat' split) <;> simp [Part.Keeps]
@[simp] theorem Part.settleSnapshot_keeps : (p.settleSnapshot).Keeps p := by
  unfold Part.settleSnapshot; split <;> simp [Part.Keeps]
@[simp] theorem Part.openRewrites_keeps : (p.openRewrites).Keeps p := by
  unfold Part.openRewrites; (repeat' split) <;> simp [Part.Keeps]
@[simp] theorem Part.openPatience_keeps : (p.openPatience).Keeps p := by
  unfold Part.openPatience; (repeat' split) <;> simp [Part.Keeps]
@[simp] theorem Part.openScan_keeps : (p.openScan).Keeps p := by
  unfold Part.openScan; (repeat' split) <;> simp [Part.Keeps]
@[simp] theorem Part.settleParcelOpen_keeps : (p.settleParcelOpen).Keeps p := by
  unfold Part.settleParcelOpen; (repeat' split) <;> simp [Part.Keeps]
@[simp] theorem Part.giveFetch_keeps (i : NodeIx) : (p.giveFetch i).Keeps p := by
  simp [Part.giveFetch, Part.Keeps]
@[simp] theorem Part.startupFail_keeps : (p.startupFail).Keeps p := by
  simp [Part.startupFail, Part.Keeps]
@[simp] theorem Part.startupRead_keeps (s : Startup) (pos : StartPos) (offset : Nat) : (p.startupRead s pos offset).Keeps p := by
  simp [Part.startupRead, Part.Keeps]
@[simp] theorem Part.settleStartup_keeps : (p.settleStartup).Keeps p := by
  unfold Part.settleStartup; (repeat' split) <;> simp [Part.Keeps]
@[simp] theorem Part.endService_keeps : (p.endService).Keeps p := by
  unfold Part.endService; dsimp only; (repeat' split) <;> simp [Part.Keeps]
@[simp] theorem Part.serveNode_keeps (i : NodeIx) : (p.serveNode i).Keeps p := by
  simp [Part.serveNode, Part.Keeps]
@[simp] theorem Part.serviceName_keeps (i : NodeIx) : (p.serviceName i).Keeps p := by
  unfold Part.serviceName; split <;> simp [Part.Keeps]
@[simp] theorem Part.serviceNext_keeps : (p.serviceNext).Keeps p := by
  unfold Part.serviceNext; dsimp only; (repeat' split) <;> simp [Part.Keeps]
@[simp] theorem Part.settleService_keeps : (p.settleService).Keeps p := by
  unfold Part.settleService; (repeat' split) <;> simp [Part.Keeps]
@[simp] theorem Part.settle_keeps : (p.settle).Keeps p := by
  simp [Part.settle, Part.Keeps]

end Sys2Proof.Machine
end

