-- ==== Sys2Proof/Laws/Exec.lean ====
section
/-! SUPPORT. What a command can do to the port's own registers, to host memory and to the queue, said once: `exec_effect`. -/

namespace Sys2Proof.Machine

/-- What a command can do outside the blocks. -/
inductive Effect (c : Instr) (s t : State) : Prop where
  /-- Only the blocks may have changed. -/
  | blocks (port : t.port = s.port) (mem : t.mem = s.mem) (pending : t.pending = s.pending)
  /-- A full reset. -/
  | full (low : Bool) (command : c = .fullReset low) (result : t = s.fullReset low)
  /-- A soft reset that takes effect. -/
  | soft (result : t = s.softReset)
  /-- A word of memory transferred, and the blocks changed, or a soft reset that waited for the word taken. -/
  | word (x : Access) (host : Option Word) (current : s.current = some x)
      (mem : t.mem = x.memAfter s.port.area host s.mem) (pending : t.pending = s.pending)
      (port : t.port = s.port ∨ t.port = { s.port with view := false } ∧ s.part.ladder.softPending = true)
  /-- AREA written in IDLE. -/
  | area (value : Word) (command : c = .areaWrite value) (idle : s.part.ladder.state = .idle)
      (result : t = { s with port := { s.port with area := value } })
  /-- MASK written. -/
  | mask (value : Word) (command : c = .maskWrite value)
      (result : t = { s with port := { s.port with mask := value.extractLsb' 0 8 } })
  /-- The view selector of FAULT written. -/
  | view (value : Word) (command : c = .faultViewWrite value)
      (result : t = { s with port := { s.port with view := value.getLsbD 0 } })
  /-- RESET_N released. -/
  | release (command : c = .resetNRelease) (result : t = { s with port := { s.port with resetLow := false } })

variable {c : Instr} {s t : State}

theorem Effect.same : Effect c s s := .blocks rfl rfl rfl

theorem Effect.act (f : Part → Part) : Effect c s (s.act f) := .blocks (by simp) (by simp) (by simp)

theorem Effect.plain (f : Part → Part) : Effect c s (s.plain f) := .blocks (by simp) (by simp) (by simp)

theorem Effect.complete (host : Option Word) (dt : Nat) : Effect c s (s.complete host dt) := by
  unfold State.complete
  split
  · exact .same
  · rename_i x hx
    dsimp only
    split
    · rename_i hp
      exact .word x host hx (by simp) (by simp) (.inr ⟨rfl, hp⟩)
    · exact .word x host hx (by simp) (by simp) (.inl (by simp))

theorem Effect.fail (dt : Nat) : Effect c s (s.fail dt) := by
  unfold State.fail
  split
  · exact .same
  · split
    · exact .soft rfl
    · exact .blocks (by simp) (by simp) (by simp)

theorem Effect.completeIf (mine : Access → Bool) (host : Option Word) (dt : Nat) :
    Effect c s (s.completeIf mine host dt) := by
  unfold State.completeIf
  split
  · split
    · exact .complete host dt
    · exact .same
  · exact .same

theorem Effect.misuse (kind offset : Nat) : Effect c s (s.misuse kind offset) := .plain _

theorem Effect.startSoftReset : Effect c s s.startSoftReset := by
  unfold State.startSoftReset
  split
  · exact .plain _
  · exact .plain _
  all_goals
    split
    · exact .soft rfl
    · exact .plain _

theorem Effect.writeControl (v : Word) : Effect c s (s.writeControl v) := by
  unfold State.writeControl
  split
  · exact .same
  split
  · exact .misuse _ _
  split
  · exact .same
  split
  · exact .startSoftReset
  split
  · exact .act _
  split
  · exact .act _
  · exact .same

theorem Effect.writeCause (v : Word) : Effect c s (s.writeCause v) := by
  unfold State.writeCause
  split
  · exact .same
  split
  · exact .act _
  · exact .plain _

theorem Effect.actIf {can : Bool} {f : Part → Part} (h : s.actIf can f = .next t) : Effect c s t := by
  unfold State.actIf at h
  cases h
  split
  · exact .act f
  · exact .same

theorem Effect.plainIf {can : Bool} {f : Part → Part} (h : s.plainIf can f = .next t) : Effect c s t := by
  unfold State.plainIf at h
  cases h
  split
  · exact .plain f
  · exact .same

/-- Every command has one of these effects outside the blocks. -/
theorem exec_effect (h : exec c s = .next t) : Effect c s t := by
  cases c with
  | fullReset low => cases h; exact .full low rfl rfl
  | softReset v => cases h; exact .writeControl _
  | softResetTakesEffect =>
    simp only [exec, execSoftResetTakesEffect] at h
    split at h
    · cases h; exact .soft rfl
    · split at h
      · cases h
        split
        · exact .complete none 0
        · exact .soft rfl
      · cases h; exact .same
  | requestRun n => cases h; exact .writeControl _
  | requestHold n => cases h; exact .writeControl _
  | requestRest n => cases h; exact .writeControl _
  | requestStill n => cases h; exact .writeControl _
  | nudge => cases h; exact .writeControl _
  | areaWrite v =>
    cases h
    unfold State.writeArea
    split
    · exact .same
    · split
      · exact .area v rfl ‹_› rfl
      · exact .misuse _ _
  | causeWrite v =>
    cases h
    exact .writeCause v
  | maskWrite v =>
    cases h
    unfold State.writeMask
    split
    · exact .same
    · exact .mask v rfl rfl
  | faultViewWrite v =>
    cases h
    unfold State.writeView
    split
    · exact .same
    · exact .view v rfl rfl
  | portMisuse a =>
    unfold exec execPortMisuse at h
    dsimp only at h
    split at h
    · cases h; exact .same
    · split at h
      · cases h; exact .misuse _ _
      · cases h; exact .same
  | startupStepComplete host => cases h; exact .completeIf _ _ _
  | cycleTimerExpiry => exact .actIf h
  | reprobeCountdownExpiry i => exact .actIf h
  | patienceExpiry slot => exact .actIf h
  | statPeriodExpiry => exact .actIf h
  | openReady dt => exact .actIf h
  | frameStart => exact .plainIf h
  | requestSent => exact .plainIf h
  | replyTimerLimit => exact .plainIf h
  | replyFrameEnd items => exact .plainIf h
  | lineClash => exact .plainIf h
  | guardEnd dt => exact .actIf h
  | slotEnd heard dt => exact .actIf h
  | appendComplete => cases h; exact .completeIf _ _ _
  | eventsTakenRead host dt => cases h; exact .completeIf _ _ _
  | withdrawCheck host dt => cases h; exact .completeIf _ _ _
  | abandonSent dt =>
    simp only [exec, execAbandonSent] at h
    split at h
    · cases h; exact .act _
    · cases h; exact .same
  | slotVisit host => cases h; exact .completeIf _ _ _
  | answerWriteComplete => cases h; exact .completeIf _ _ _
  | holdWordRead host => cases h; exact .completeIf _ _ _
  | inputPublish => cases h; exact .completeIf _ _ _
  | cycleDivisorReached => exact .plainIf h
  | closeComplete => cases h; exact .completeIf _ _ _
  | holdFrameSent => exact .actIf h
  | heldLineQuiet => exact .actIf h
  | heldServiceEntry => exact .actIf h
  | alert address => exact .actIf h
  | unsolicitedFrame items => exact .actIf h
  | restFrameSent => exact .actIf h
  | lineActivity => exact .plainIf h
  | rouseFrameSent => exact .plainIf h
  | rouseTimerExpiry => exact .actIf h
  | settleTimerExpiry =>
    simp only [exec, execSettleTimerExpiry] at h
    split at h
    · cases h; exact .soft rfl
    · exact .actIf h
  | memoryAccessComplete host dt => cases h; exact .complete host dt
  | memoryErrorResponse dt => cases h; exact .fail dt
  | snapshotEnd => cases h; exact .completeIf _ _ _
  | resetNRelease => cases h; exact .release rfl rfl

end Sys2Proof.Machine
end

