-- ==== Sys2Proof/Laws/Faults.lean ====
section
/-! SUPPORT. A captured fault stays captured (R161): while CAUSE.FAULT is set, no operation but its clearing changes what the capture
took first, and none clears the bit. One lemma per operation. -/

namespace Sys2Proof.Machine

/-- `q` still has CAUSE.FAULT (bit 6) set and the fault that `p` captured. -/
abbrev Part.Captured (q p : Part) : Prop :=
  q.faults.cause[6] = true ∧ q.faults.capture.valid = p.faults.capture.valid ∧
  q.faults.capture.code = p.faults.capture.code ∧ q.faults.capture.detail = p.faults.capture.detail ∧
  q.faults.capture.cycle = p.faults.capture.cycle

theorem Part.Captured.rfl {p : Part} (h : p.faults.cause[6] = true) : p.Captured p := by simp [Part.Captured, h]

theorem Part.Captured.trans {p q r : Part} (k : r.Captured q) (j : q.Captured p) : r.Captured p := by
  simp_all [Part.Captured]

theorem foldl_captured {β : Type} (f : Part → β → Part)
    (h : ∀ p x, p.faults.cause[6] = true → (f p x).Captured p) (l : List β) (p : Part)
    (hp : p.faults.cause[6] = true) : (l.foldl f p).Captured p := by
  induction l generalizing p with
  | nil => exact .rfl hp
  | cons x xs ih =>
    have h1 := h p x hp
    have h2 := ih (f p x) h1.1
    simp_all [Part.Captured]

variable (p : Part)

/-- A report sets CAUSE.FAULT. -/
@[simp] theorem Part.report_setsFault (code : FaultCode) (d : Half) : (p.report code d).faults.cause[6] = true := by
  unfold Part.report Part.noteMemoryError
  split <;> simp [CauseBit.mask, CauseBit.position]

@[simp] theorem Part.report_captured (h : p.faults.cause[6] = true) (code : FaultCode) (d : Half) :
    (p.report code d).Captured p := by
  refine ⟨p.report_setsFault code d, ?_⟩
  unfold Part.report Part.noteMemoryError Capture.take
  split <;> simp [Part.hasCause, CauseBit.position, h]

@[simp] theorem Part.giveBroadcast_captured (h : p.faults.cause[6] = true) (ex : Exchange) (kind : PartKind) :
    (p.giveBroadcast ex kind).Captured p := by
  simp [Part.giveBroadcast, Part.Captured, h]
@[simp] theorem Part.frameStart_captured (h : p.faults.cause[6] = true) : (p.frameStart).Captured p := by
  unfold Part.frameStart; dsimp only; (repeat' split) <;> simp [Part.Captured, h]
@[simp] theorem Part.requestSent_captured (h : p.faults.cause[6] = true) : (p.requestSent).Captured p := by
  unfold Part.requestSent; (repeat' split) <;> simp [Part.Captured, h]
@[simp] theorem Part.decideAttempt_captured (h : p.faults.cause[6] = true) (a : Attempt) (rx : Option Frame) :
    (p.decideAttempt a rx).Captured p := by
  unfold Part.decideAttempt; split <;> simp [Part.Captured, h]
@[simp] theorem Part.replyTimerLimit_captured (h : p.faults.cause[6] = true) : (p.replyTimerLimit).Captured p := by
  unfold Part.replyTimerLimit; split <;> simp [Part.Captured, h]
@[simp] theorem Part.guardCarrier_captured (h : p.faults.cause[6] = true) : (p.guardCarrier).Captured p := by
  unfold Part.guardCarrier; split <;> simp [Part.Captured, h]
@[simp] theorem Part.carrierInGuard_captured (h : p.faults.cause[6] = true) (items : List LineItem) :
    (p.carrierInGuard items).Captured p := by
  unfold Part.carrierInGuard; (repeat' split) <;> simp (maxDischargeDepth := 12) [Part.Captured, h]
@[simp] theorem Part.judgeReply_captured (h : p.faults.cause[6] = true) (ex : Exchange) (items : List LineItem) :
    (p.judgeReply ex items).Captured p := by
  unfold Part.judgeReply; (repeat' split) <;> simp (maxDischargeDepth := 12) [Part.Captured, h]
@[simp] theorem Part.replyFrameEnd_captured (h : p.faults.cause[6] = true) (items : List LineItem) :
    (p.replyFrameEnd items).Captured p := by
  unfold Part.replyFrameEnd; dsimp only; (repeat' split) <;> simp (maxDischargeDepth := 12) [Part.Captured, h]
@[simp] theorem Part.strayFrame_captured (h : p.faults.cause[6] = true) : (p.strayFrame).Captured p := by
  unfold Part.strayFrame; split <;> simp [Part.Captured, h]
@[simp] theorem Part.strayClash_captured (h : p.faults.cause[6] = true) : (p.strayClash).Captured p := by
  have k := p.strayFrame_captured h
  unfold Part.strayClash; dsimp only; split
  · simp [Part.Captured, h]
  · exact k
@[simp] theorem Part.quietPassed_captured (h : p.faults.cause[6] = true) : (p.quietPassed).Captured p := by
  simp [Part.quietPassed, Part.Captured, h]
@[simp] theorem Part.lineClash_captured (h : p.faults.cause[6] = true) : p.lineClash.Captured p := by
  unfold Part.lineClash; (repeat' split) <;> simp (maxDischargeDepth := 12) [Part.Captured, h]
@[simp] theorem Part.writeShadow_captured (h : p.faults.cause[6] = true) (offset : Nat) (bytes : List Byte) :
    (p.writeShadow offset bytes).Captured p := by
  simp [Part.writeShadow, Part.Captured, h]
@[simp] theorem Part.clearShadow_captured (h : p.faults.cause[6] = true) (lo hi : Nat) : (p.clearShadow lo hi).Captured p := by
  simp [Part.clearShadow, Part.Captured, h]
@[simp] theorem Part.clearSlice_captured (h : p.faults.cause[6] = true) (e : NodeEntry) (size : Nat) :
    (p.clearSlice e size).Captured p := by
  simp [Part.clearSlice, Part.Captured, h]
@[simp] theorem Part.applyLoss_captured (h : p.faults.cause[6] = true) (e : NodeEntry) (size : Nat) :
    (p.applyLoss e size).Captured p := by
  unfold Part.applyLoss; split <;> simp [Part.Captured, h]
@[simp] theorem Part.outputTake_captured (h : p.faults.cause[6] = true) (w : Word) : (p.outputTake w).Captured p := by
  unfold Part.outputTake; dsimp only; (repeat' split) <;> simp [Part.Captured, h]
@[simp] theorem Part.imageIsReady_captured (h : p.faults.cause[6] = true) : (p.imageIsReady).Captured p := by
  simp [Part.imageIsReady, Part.Captured, h]
@[simp] theorem Part.issueSlice_captured (h : p.faults.cause[6] = true) (bank : Bank) (e : NodeEntry) (done : Nat) :
    (p.issueSlice bank e done).Captured p := by
  simp [Part.issueSlice, Part.Captured, h]
@[simp] theorem Part.beginClose_captured (h : p.faults.cause[6] = true) : (p.beginClose).Captured p := by
  simp [Part.beginClose, Part.Captured, h]
@[simp] theorem Part.issueClose_captured (h : p.faults.cause[6] = true) (fill : Bank) (job : CloseJob) :
    (p.issueClose fill job).Captured p := by
  simp [Part.issueClose, Part.Captured, h]
@[simp] theorem Part.holdWordTaken_captured (h : p.faults.cause[6] = true) (w : Word) (job : CloseJob) :
    (p.holdWordTaken w job).Captured p := by
  unfold Part.holdWordTaken; dsimp only; (repeat' split) <;> simp [Part.Captured, h]
@[simp] theorem Part.writeCycleWord_captured (h : p.faults.cause[6] = true) : (p.writeCycleWord).Captured p := by
  simp [Part.writeCycleWord, Part.Captured, h]
@[simp] theorem Part.endClose_captured (h : p.faults.cause[6] = true) : (p.endClose).Captured p := by
  simp [Part.endClose, Part.Captured, h]
@[simp] theorem Part.published_captured (h : p.faults.cause[6] = true) (fill : Bank) : (p.published fill).Captured p := by
  unfold Part.published; dsimp only; (repeat' split) <;> simp [Part.Captured, h]
@[simp] theorem Part.continueClose_captured (h : p.faults.cause[6] = true) (w : Word) : (p.continueClose w).Captured p := by
  unfold Part.continueClose; (repeat' split) <;> simp [Part.Captured, h]
@[simp] theorem Part.divisorReached_captured (h : p.faults.cause[6] = true) : (p.divisorReached).Captured p := by
  unfold Part.divisorReached; split <;> simp [Part.Captured, h]
@[simp] theorem Part.writeAnswer_captured (h : p.faults.cause[6] = true) (writes : List (Nat × Word)) :
    (p.writeAnswer writes).Captured p := by
  unfold Part.writeAnswer; split <;> simp [Part.Captured, h]
@[simp] theorem Part.readWithdraw_captured (h : p.faults.cause[6] = true) (source : Source) (slot : SlotIx) :
    (p.readWithdraw source slot).Captured p := by
  simp [Part.readWithdraw, Part.Captured, h]
@[simp] theorem Part.startAnswer_captured (h : p.faults.cause[6] = true) : (p.startAnswer).Captured p := by
  unfold Part.startAnswer; (repeat' split) <;> simp [Part.Captured, h]
@[simp] theorem Part.readyAnswer_captured (h : p.faults.cause[6] = true) (a : AnswerFor) : (p.readyAnswer a).Captured p := by
  simp [Part.readyAnswer, Part.Captured, h]
@[simp] theorem Part.nextAnswer_captured (h : p.faults.cause[6] = true) : (p.nextAnswer).Captured p := by
  simp [Part.nextAnswer, Part.Captured, h]
@[simp] theorem Part.countAnswer_captured (h : p.faults.cause[6] = true) (outcome : ParcelOutcome) :
    (p.countAnswer outcome).Captured p := by
  simp [Part.countAnswer, Part.Captured, h]
@[simp] theorem Part.freeParcel_captured (h : p.faults.cause[6] = true) (slot : SlotIx) : (p.freeParcel slot).Captured p := by
  simp [Part.freeParcel, Part.Captured, h]
@[simp] theorem Part.finishParcel_captured (h : p.faults.cause[6] = true) (slot : SlotIx) (outcome : ParcelOutcome) (status : Byte) :
    (p.finishParcel slot outcome status).Captured p := by
  simp [Part.finishParcel, Part.Captured, h]
@[simp] theorem Part.abandonParcel_captured (h : p.faults.cause[6] = true) (slot : SlotIx) (outcome : ParcelOutcome) :
    (p.abandonParcel slot outcome).Captured p := by
  simp [Part.abandonParcel, Part.Captured, h]
@[simp] theorem Part.abandonDone_captured (h : p.faults.cause[6] = true) (slot : SlotIx) : (p.abandonDone slot).Captured p := by
  simp [Part.abandonDone, Part.Captured, h]
@[simp] theorem Part.parcelAtChange_captured (h : p.faults.cause[6] = true) (new : NodeState) (e : Parcel) :
    (p.parcelAtChange new e).Captured p := by
  unfold Part.parcelAtChange; (repeat' split) <;> simp [Part.Captured, h]
@[simp] theorem Part.parcelNodeChange_captured (h : p.faults.cause[6] = true) (i : NodeIx) (new : NodeState) :
    (p.parcelNodeChange i new).Captured p := by
  unfold Part.parcelNodeChange
  exact foldl_captured _ (fun _ _ h => by simp [Part.Captured, h]) _ _ (by simp [Part.Captured, h])
@[simp] theorem Part.parcelCommit_captured (h : p.faults.cause[6] = true) (new : Vector NodeEntry 48) :
    (p.parcelCommit new).Captured p := by
  unfold Part.parcelCommit
  refine foldl_captured _ (fun _ _ h => ?_) _ _ (by simp [Part.Captured, h])
  (repeat' split) <;> simp [Part.Captured, h]
@[simp] theorem Part.readTotal_captured (h : p.faults.cause[6] = true) : (p.readTotal).Captured p := by
  simp [Part.readTotal, Part.Captured, h]
@[simp] theorem Part.scanTrigger_captured (h : p.faults.cause[6] = true) : (p.scanTrigger).Captured p := by
  unfold Part.scanTrigger; (repeat' split) <;> simp [Part.Captured, h]
@[simp] theorem Part.visitSlot_captured (h : p.faults.cause[6] = true) (slot : SlotIx) (left : Nat) :
    (p.visitSlot slot left).Captured p := by
  simp [Part.visitSlot, Part.Captured, h]
@[simp] theorem Part.answerDeferred_captured (h : p.faults.cause[6] = true) (slot : SlotIx) (left : Nat) :
    (p.answerDeferred slot left).Captured p := by
  simp [Part.answerDeferred, Part.Captured, h]
@[simp] theorem Part.walkStop_captured (h : p.faults.cause[6] = true) (slot : SlotIx) : (p.walkStop slot).Captured p := by
  simp [Part.walkStop, Part.Captured, h]
@[simp] theorem Part.walkEnd_captured (h : p.faults.cause[6] = true) : (p.walkEnd).Captured p := by
  unfold Part.walkEnd; dsimp only; (repeat' split) <;> simp [Part.Captured, h]
@[simp] theorem Part.walkOn_captured (h : p.faults.cause[6] = true) (slot : SlotIx) (left : Nat) :
    (p.walkOn slot left).Captured p := by
  unfold Part.walkOn; split <;> simp [Part.Captured, h]
@[simp] theorem Part.totalRead_captured (h : p.faults.cause[6] = true) (total : Word) : (p.totalRead total).Captured p := by
  unfold Part.totalRead; dsimp only; (repeat' split) <;> simp [Part.Captured, h]
@[simp] theorem Part.answerAtOnce_captured (h : p.faults.cause[6] = true) (slot : SlotIx) (left : Nat) (ask : Half) (outcome : ParcelOutcome) :
    (p.answerAtOnce slot left ask outcome).Captured p := by
  simp [Part.answerAtOnce, Part.Captured, h]
@[simp] theorem Part.writeTaken_captured (h : p.faults.cause[6] = true) (slot : SlotIx) (left : Nat) (h : SlotHeader) (words : List Word) :
    (p.writeTaken slot left h words).Captured p := by
  unfold Part.writeTaken; (repeat' split) <;> simp_all [Part.Captured]
@[simp] theorem Part.beginTake_captured (h : p.faults.cause[6] = true) (slot : SlotIx) (left : Nat) (h : SlotHeader) :
    (p.beginTake slot left h).Captured p := by
  unfold Part.beginTake; (repeat' split) <;> simp_all [Part.Captured]
@[simp] theorem Part.judgeSlot_captured (h : p.faults.cause[6] = true) (slot : SlotIx) (left : Nat) (ask withdraw : Half) (target length : Word) :
    (p.judgeSlot slot left ask withdraw target length).Captured p := by
  unfold Part.judgeSlot; dsimp only; (repeat' split) <;> simp [Part.Captured, h]
@[simp] theorem Part.visitRead_captured (h : p.faults.cause[6] = true) (slot : SlotIx) (left : Nat) (got : List Word) :
    (p.visitRead slot left got).Captured p := by
  unfold Part.visitRead; (repeat' split) <;> simp [Part.Captured, h]
@[simp] theorem Part.parcelTaken_captured (hf : p.faults.cause[6] = true) (slot : SlotIx) (left : Nat) (h : SlotHeader)
    (request : List Byte) : (p.parcelTaken slot left h request).Captured p := by
  unfold Part.parcelTaken; dsimp only; (repeat' split) <;> simp (maxDischargeDepth := 12) [Part.Captured, hf]
@[simp] theorem Part.continueWalk_captured (h : p.faults.cause[6] = true) (w : Word) : (p.continueWalk w).Captured p := by
  unfold Part.continueWalk; dsimp only; (repeat' split) <;> simp [Part.Captured, h]
@[simp] theorem Part.walkFailed_captured (h : p.faults.cause[6] = true) : (p.walkFailed).Captured p := by
  unfold Part.walkFailed; dsimp only; (repeat' split) <;> simp [Part.Captured, h]
@[simp] theorem Part.answerComplete_captured (h : p.faults.cause[6] = true) : (p.answerComplete).Captured p := by
  unfold Part.answerComplete; dsimp only; (repeat' split) <;> simp (maxDischargeDepth := 12) [Part.Captured, h]
@[simp] theorem Part.continueAnswer_captured (h : p.faults.cause[6] = true) (w : Word) : (p.continueAnswer w).Captured p := by
  unfold Part.continueAnswer; dsimp only; (repeat' split) <;> simp [Part.Captured, h]
@[simp] theorem Part.answerFailed_captured (h : p.faults.cause[6] = true) : (p.answerFailed).Captured p := by
  unfold Part.answerFailed; (repeat' split) <;> simp [Part.Captured, h]
@[simp] theorem Part.parkParcels_captured (h : p.faults.cause[6] = true) : (p.parkParcels).Captured p := by
  simp [Part.parkParcels, Part.Captured, h]
@[simp] theorem Part.parcelEnd_captured (h : p.faults.cause[6] = true) (e : ParcelEnd) : (p.parcelEnd e).Captured p := by
  unfold Part.parcelEnd; split <;> simp [Part.Captured, h]
@[simp] theorem Part.takeParcelEnd_captured (h : p.faults.cause[6] = true) (e : ParcelEnd) : (p.takeParcelEnd e).Captured p := by
  unfold Part.takeParcelEnd; split <;> simp [Part.Captured, h]
@[simp] theorem Part.takeKeptEnd_captured (h : p.faults.cause[6] = true) : (p.takeKeptEnd).Captured p := by
  unfold Part.takeKeptEnd; split <;> simp [Part.Captured, h]
@[simp] theorem Part.resumeParcels_captured (h : p.faults.cause[6] = true) : (p.resumeParcels).Captured p := by
  unfold Part.resumeParcels; dsimp only; split <;> simp [Part.Captured, h]
@[simp] theorem Part.retryAnswers_captured (h : p.faults.cause[6] = true) : (p.retryAnswers).Captured p := by
  unfold Part.retryAnswers; dsimp only; split
  · exact .rfl h
  · exact foldl_captured _ (fun _ _ h => by simp [Part.Captured, h]) _ _ (by simp [Part.Captured, h])
@[simp] theorem Part.lowerPatience_captured (h : p.faults.cause[6] = true) : (p.lowerPatience).Captured p := by
  simp [Part.lowerPatience, Part.Captured, h]
@[simp] theorem Part.patienceExpired_captured (h : p.faults.cause[6] = true) (slot : SlotIx) :
    (p.patienceExpired slot).Captured p := by
  unfold Part.patienceExpired; (repeat' split) <;> simp [Part.Captured, h]
@[simp] theorem Part.issueStatus_captured (h : p.faults.cause[6] = true) (i : NodeIx) (k : Fin 4) :
    (p.issueStatus i k).Captured p := by
  simp [Part.issueStatus, Part.Captured, h]
@[simp] theorem Part.startStatus_captured (h : p.faults.cause[6] = true) : (p.startStatus).Captured p := by
  unfold Part.startStatus; split <;> simp [Part.Captured, h]
@[simp] theorem Part.queueStatus_captured (h : p.faults.cause[6] = true) (i : NodeIx) (cause : Bool) : (p.queueStatus i cause).Captured p := by
  unfold Part.queueStatus; dsimp only; (repeat' split) <;> simp [Part.Captured, h]
@[simp] theorem Part.nextStatus_captured (h : p.faults.cause[6] = true) (w : StatusWrite) : (p.nextStatus w).Captured p := by
  unfold Part.nextStatus; dsimp only; split <;> simp [Part.Captured, h]
@[simp] theorem Part.statusStep_captured (h : p.faults.cause[6] = true) (k : Fin 4) : (p.statusStep k).Captured p := by
  unfold Part.statusStep; dsimp only; (repeat' split) <;> simp [Part.Captured, h]
@[simp] theorem Part.oweStatus_captured (h : p.faults.cause[6] = true) : (p.oweStatus).Captured p := by
  unfold Part.oweStatus; (repeat' split) <;> simp (maxDischargeDepth := 12) [Part.Captured, h]
@[simp] theorem Part.statusFailed_captured (h : p.faults.cause[6] = true) : (p.statusFailed).Captured p := by
  unfold Part.statusFailed; (repeat' split) <;> simp (maxDischargeDepth := 12) [Part.Captured, h]
@[simp] theorem Part.writeOwed_captured (h : p.faults.cause[6] = true) : (p.writeOwed).Captured p := by
  unfold Part.writeOwed
  exact foldl_captured _ (fun _ _ h => by simp [Part.Captured, h]) _ _ (by simp [Part.Captured, h])
@[simp] theorem Part.toTail_captured (h : p.faults.cause[6] = true) (i : NodeIx) : (p.toTail i).Captured p := by
  unfold Part.toTail; split <;> simp [Part.Captured, h]
@[simp] theorem Part.indicate_captured (h : p.faults.cause[6] = true) (i : NodeIx) (origin : LatchOrigin) :
    (p.indicate i origin).Captured p := by
  unfold Part.indicate; (repeat' split) <;> simp [Part.Captured, h]
@[simp] theorem Part.unqueue_captured (h : p.faults.cause[6] = true) (i : NodeIx) : (p.unqueue i).Captured p := by
  simp [Part.unqueue, Part.Captured, h]
@[simp] theorem Part.eventLeaves_captured (h : p.faults.cause[6] = true) (i : NodeIx) : (p.eventLeaves i).Captured p := by
  simp [Part.eventLeaves, Part.Captured, h]
@[simp] theorem Part.eventCleared_captured (h : p.faults.cause[6] = true) (i : NodeIx) : (p.eventCleared i).Captured p := by
  simp [Part.eventCleared, Part.Captured, h]
@[simp] theorem Part.voidNotes_captured (h : p.faults.cause[6] = true) : (p.voidNotes).Captured p := by
  simp [Part.voidNotes, Part.Captured, h]
@[simp] theorem Part.confirmAck_captured (h : p.faults.cause[6] = true) (i : NodeIx) (carried : Option Byte) :
    (p.confirmAck i carried).Captured p := by
  unfold Part.confirmAck; (repeat' split) <;> simp [Part.Captured, h]
@[simp] theorem Part.newRound_captured (h : p.faults.cause[6] = true) : (p.newRound).Captured p := by
  simp [Part.newRound, Part.Captured, h]
@[simp] theorem Part.nameNode_captured (h : p.faults.cause[6] = true) (i : NodeIx) : (p.nameNode i).Captured p := by
  simp [Part.nameNode, Part.Captured, h]
@[simp] theorem Part.startAppend_captured (h : p.faults.cause[6] = true) : (p.startAppend).Captured p := by
  unfold Part.startAppend; split <;> simp [Part.Captured, h]
@[simp] theorem Part.enqueueAppend_captured (h : p.faults.cause[6] = true) (what : AppendFor) (record : List Word) :
    (p.enqueueAppend what record).Captured p := by
  simp [Part.enqueueAppend, Part.Captured, h]
@[simp] theorem Part.nextAppend_captured (h : p.faults.cause[6] = true) : (p.nextAppend).Captured p := by
  simp [Part.nextAppend, Part.Captured, h]
@[simp] theorem Part.offerNote_captured (h : p.faults.cause[6] = true) : (p.offerNote).Captured p := by
  unfold Part.offerNote; (repeat' split) <;> simp [Part.Captured, h]
@[simp] theorem Part.noteAppended_captured (h : p.faults.cause[6] = true) (address : Byte) (count : Nat) :
    (p.noteAppended address count).Captured p := by
  simp [Part.noteAppended, Part.Captured, h]
@[simp] theorem Part.eventAccepted_captured (h : p.faults.cause[6] = true) (a : Append) (i : NodeIx) (seq : Byte) (more : Bool) :
    (p.eventAccepted a i seq more).Captured p := by
  unfold Part.eventAccepted; (repeat' split) <;> simp [Part.Captured, h]
@[simp] theorem Part.appendPublished_captured (h : p.faults.cause[6] = true) (a : Append) :
    (p.appendPublished a).Captured p := by
  unfold Part.appendPublished; dsimp only; (repeat' split) <;> simp (maxDischargeDepth := 12) [Part.Captured, h]
@[simp] theorem Part.continueAppend_captured (h : p.faults.cause[6] = true) : (p.continueAppend).Captured p := by
  unfold Part.continueAppend; (repeat' split) <;> simp [Part.Captured, h]
@[simp] theorem Part.appendAborted_captured (h : p.faults.cause[6] = true) (a : Append) : (p.appendAborted a).Captured p := by
  unfold Part.appendAborted; split <;> simp [Part.Captured, h]
@[simp] theorem Part.appendFailed_captured (h : p.faults.cause[6] = true) : (p.appendFailed).Captured p := by
  unfold Part.appendFailed; (repeat' split) <;> simp [Part.Captured, h]
@[simp] theorem Part.requestTaken_captured (h : p.faults.cause[6] = true) (onFetch : Bool) :
    (p.requestTaken onFetch).Captured p := by
  unfold Part.requestTaken; split <;> simp [Part.Captured, h]
@[simp] theorem Part.takenValue_captured (h : p.faults.cause[6] = true) (t : Word) (onFetch : Bool) :
    (p.takenValue t onFetch).Captured p := by
  unfold Part.takenValue; dsimp only; (repeat' split) <;> simp [Part.Captured, h]
@[simp] theorem Part.takenLost_captured (h : p.faults.cause[6] = true) : (p.takenLost).Captured p := by
  simp [Part.takenLost, Part.Captured, h]
@[simp] theorem Part.takeEvent_captured (h : p.faults.cause[6] = true) (i : NodeIx) (f : Frame) :
    (p.takeEvent i f).Captured p := by
  simp [Part.takeEvent, Part.Captured, h]
@[simp] theorem Part.fetchReply_captured (h : p.faults.cause[6] = true) (i : NodeIx) (f : Frame) :
    (p.fetchReply i f).Captured p := by
  unfold Part.fetchReply; dsimp only; (repeat' split) <;> simp [Part.Captured, h]
@[simp] theorem Part.moveNode_captured (h : p.faults.cause[6] = true) (i : NodeIx) (f : NodeRecord → NodeRecord) (new : NodeState) :
    (p.moveNode i f new).Captured p := by
  unfold Part.moveNode; dsimp only; (repeat' split) <;> simp (maxDischargeDepth := 12) [Part.Captured, h]
@[simp] theorem Part.changeState_captured (h : p.faults.cause[6] = true) (i : NodeIx) (f : NodeRecord → NodeRecord) (new : NodeState) :
    (p.changeState i f new).Captured p := by
  unfold Part.changeState; split <;> simp [Part.Captured, h]
@[simp] theorem Part.setLastGood_captured (h : p.faults.cause[6] = true) (i : NodeIx) : (p.setLastGood i).Captured p := by
  simp [Part.setLastGood, Part.Captured, h]
@[simp] theorem Part.goodAnswer_captured (h : p.faults.cause[6] = true) (i : NodeIx) (f : NodeRecord → NodeRecord) :
    (p.goodAnswer i f).Captured p := by
  unfold Part.goodAnswer; split <;> simp [Part.Captured, h]
@[simp] theorem Part.goodData_captured (h : p.faults.cause[6] = true) (i : NodeIx) (f : Frame) :
    (p.goodData i f).Captured p := by
  unfold Part.goodData; dsimp only; (repeat' split) <;> simp (maxDischargeDepth := 12) [Part.Captured, h]
@[simp] theorem Part.goodIdent_captured (h : p.faults.cause[6] = true) (i : NodeIx) (f : Frame) :
    (p.goodIdent i f).Captured p := by
  unfold Part.goodIdent; dsimp only; (repeat' split) <;> simp [Part.Captured, h]
@[simp] theorem Part.miss_captured (h : p.faults.cause[6] = true) (i : NodeIx) : (p.miss i).Captured p := by
  unfold Part.miss; dsimp only; (repeat' split) <;> simp [Part.Captured, h]
@[simp] theorem Part.goodEvent_captured (h : p.faults.cause[6] = true) (i : NodeIx) : (p.goodEvent i).Captured p := by
  unfold Part.goodEvent; split <;> simp [Part.Captured, h]
@[simp] theorem Part.nodeBid_captured (h : p.faults.cause[6] = true) (i : NodeIx) (reason : Byte) :
    (p.nodeBid i reason).Captured p := by
  unfold Part.nodeBid; (repeat' split) <;> simp [Part.Captured, h]
@[simp] theorem Part.nodeAlert_captured (h : p.faults.cause[6] = true) (i : NodeIx) : (p.nodeAlert i).Captured p := by
  unfold Part.nodeAlert; split <;> simp [Part.Captured, h]
@[simp] theorem Part.lossBefore_captured (h : p.faults.cause[6] = true) (i : NodeIx) (new : NodeEntry) (size : Nat) :
    (p.lossBefore i new size).Captured p := by
  unfold Part.lossBefore; dsimp only; (repeat' split) <;> simp [Part.Captured, h]
@[simp] theorem Part.lossAfter_captured (h : p.faults.cause[6] = true) (i : NodeIx) (new : NodeEntry) (size : Nat) :
    (p.lossAfter i new size).Captured p := by
  unfold Part.lossAfter; dsimp only; (repeat' split) <;> simp [Part.Captured, h]
@[simp] theorem Part.commitNode_captured (h : p.faults.cause[6] = true) (i : NodeIx) (new : NodeEntry) :
    (p.commitNode i new).Captured p := by
  unfold Part.commitNode; dsimp only; (repeat' split) <;> simp [Part.Captured, h]
@[simp] theorem Part.nodeCommit_captured (h : p.faults.cause[6] = true) (new : Vector NodeEntry 48) (size : Nat) :
    (p.nodeCommit new size).Captured p := by
  unfold Part.nodeCommit
  have h1 := foldl_captured (fun p i => Part.lossBefore p i (new.get i) size) (fun q i k => q.lossBefore_captured k i _ _)
    allNodes p h
  have h2 := foldl_captured (fun p i => Part.lossAfter p i (new.get i) size) (fun q i k => q.lossAfter_captured k i _ _)
    allNodes _ h1.1
  have h3 := foldl_captured (fun p i => Part.commitNode p i (new.get i)) (fun q i k => q.commitNode_captured k i _)
    allNodes _ h2.1
  exact h3.trans (h2.trans h1)
@[simp] theorem Part.nodeOpen_captured (h : p.faults.cause[6] = true) (exempt : NodeIx → Bool) :
    (p.nodeOpen exempt).Captured p := by
  simp [Part.nodeOpen, Part.Captured, h]
@[simp] theorem Part.reprobe_captured (h : p.faults.cause[6] = true) (i : NodeIx) : (p.reprobe i).Captured p := by
  simp [Part.reprobe, Part.Captured, h]
@[simp] theorem Part.settleNodeOpen_captured (h : p.faults.cause[6] = true) : (p.settleNodeOpen).Captured p := by
  unfold Part.settleNodeOpen; dsimp only; (repeat' split) <;> simp [Part.Captured, h]
@[simp] theorem Part.openWindow_captured (h : p.faults.cause[6] = true) : (p.openWindow).Captured p := by
  simp [Part.openWindow, Part.Captured, h]
@[simp] theorem Part.windowNotFitted_captured (h : p.faults.cause[6] = true) (fault : Bool) :
    (p.windowNotFitted fault).Captured p := by
  unfold Part.windowNotFitted; split <;> simp [Part.Captured, h]
@[simp] theorem Part.sighting_captured (h : p.faults.cause[6] = true) (address : Byte) (origin : StrayOrigin) (kind : Byte) :
    (p.sighting address origin kind).Captured p := by
  simp only [Part.sighting]
  split <;> simp [Part.Captured, h]
@[simp] theorem Part.tally_captured (h : p.faults.cause[6] = true) (f : Tallies → Tallies) : (p.tally f).Captured p := by
  simp [Part.tally, Part.Captured, h]
@[simp] theorem Part.takeSlot_captured (h : p.faults.cause[6] = true) (report : SlotReport) :
    (p.takeSlot report).Captured p := by
  unfold Part.takeSlot; (repeat' split) <;> simp [Part.Captured, h]
@[simp] theorem Part.endWindow_captured (h : p.faults.cause[6] = true) : (p.endWindow).Captured p := by
  simp [Part.endWindow, Part.Captured, h]
@[simp] theorem Part.windowCommit_captured (h : p.faults.cause[6] = true) (initial : Nat) :
    (p.windowCommit initial).Captured p := by
  simp [Part.windowCommit, Part.Captured, h]
@[simp] theorem Part.checkAt_captured (h : p.faults.cause[6] = true) (c : Check) : (p.checkAt c).Captured p := by
  unfold Part.checkAt; split <;> simp [Part.Captured, h]
@[simp] theorem Part.beginCheck_captured (h : p.faults.cause[6] = true) (origin : CheckFrom) :
    (p.beginCheck origin).Captured p := by
  simp [Part.beginCheck, Part.Captured, h]
@[simp] theorem Part.statOpen_captured (h : p.faults.cause[6] = true) : (p.statOpen).Captured p := by
  simp [Part.statOpen, Part.Captured, h]
@[simp] theorem Part.checkEnd_captured (h : p.faults.cause[6] = true) (origin : CheckFrom) :
    (p.checkEnd origin).Captured p := by
  unfold Part.checkEnd; dsimp only; (repeat' split) <;> simp (maxDischargeDepth := 12) [Part.Captured, h]
@[simp] theorem Part.restoreAccepted_captured (h : p.faults.cause[6] = true) : (p.restoreAccepted).Captured p := by
  unfold Part.restoreAccepted; split <;> simp [Part.Captured, h]
@[simp] theorem Part.queueAll_captured (h : p.faults.cause[6] = true) (l : List NodeIx) :
    (l.foldl (fun p i => Part.queueStatus p i false) p).Captured p :=
  foldl_captured _ (fun q i k => q.queueStatus_captured k i false) l p h
@[simp] theorem Part.acceptCommit_captured (h : p.faults.cause[6] = true) (d : Directory) (c : Check) (v : Verdict) :
    (p.acceptCommit d c v).Captured p := by
  unfold Part.acceptCommit; dsimp only; (repeat' split) <;> simp (maxDischargeDepth := 20) [Part.Captured, h]
@[simp] theorem Part.refuseCommit_captured (h : p.faults.cause[6] = true) (c : Check) (v : Verdict) :
    (p.refuseCommit c v).Captured p := by
  simp [Part.refuseCommit, Part.Captured, h]
@[simp] theorem Part.judgeCopy_captured (h : p.faults.cause[6] = true) (c : Check) : (p.judgeCopy c).Captured p := by
  unfold Part.judgeCopy; dsimp only; (repeat' split) <;> simp [Part.Captured, h]
@[simp] theorem Part.copyRead_captured (h : p.faults.cause[6] = true) (c : Check) : (p.copyRead c).Captured p := by
  unfold Part.copyRead; split <;> simp [Part.Captured, h]
@[simp] theorem Part.judgeKept_captured (h : p.faults.cause[6] = true) : (p.judgeKept).Captured p := by
  unfold Part.judgeKept; (repeat' split) <;> simp [Part.Captured, h]
@[simp] theorem Part.reportRefused_captured (h : p.faults.cause[6] = true) : (p.reportRefused).Captured p := by
  simp [Part.reportRefused, Part.Captured, h]
@[simp] theorem Part.generationRead_captured (h : p.faults.cause[6] = true) (c : Check) (g : Word) :
    (p.generationRead c g).Captured p := by
  unfold Part.generationRead; (repeat' split) <;> simp [Part.Captured, h]
@[simp] theorem Part.continueCheck_captured (h : p.faults.cause[6] = true) (w : Word) : (p.continueCheck w).Captured p := by
  unfold Part.continueCheck; dsimp only; (repeat' split) <;> simp [Part.Captured, h]
@[simp] theorem Part.verdictFailed_captured (h : p.faults.cause[6] = true) : (p.verdictFailed).Captured p := by
  unfold Part.verdictFailed; (repeat' split) <;> simp [Part.Captured, h]
@[simp] theorem Part.checkFailed_captured (h : p.faults.cause[6] = true) : (p.checkFailed).Captured p := by
  unfold Part.checkFailed; (repeat' split) <;> simp [Part.Captured, h]
@[simp] theorem Part.settleCheck_captured (h : p.faults.cause[6] = true) : (p.settleCheck).Captured p := by
  unfold Part.settleCheck; (repeat' split) <;> simp [Part.Captured, h]
@[simp] theorem Part.snapshotAt_captured (h : p.faults.cause[6] = true) (s : Snapshot) : (p.snapshotAt s).Captured p := by
  simp [Part.snapshotAt, Part.Captured, h]
@[simp] theorem Part.beginSnapshot_captured (h : p.faults.cause[6] = true) : (p.beginSnapshot).Captured p := by
  simp [Part.beginSnapshot, Part.Captured, h]
@[simp] theorem Part.endSnapshot_captured (h : p.faults.cause[6] = true) : (p.endSnapshot).Captured p := by
  unfold Part.endSnapshot; dsimp only; (repeat' split) <;> simp [Part.Captured, h]
@[simp] theorem Part.continueSnapshot_captured (h : p.faults.cause[6] = true) : (p.continueSnapshot).Captured p := by
  unfold Part.continueSnapshot; (repeat' split) <;> simp [Part.Captured, h]
@[simp] theorem Part.triggerSnapshot_captured (h : p.faults.cause[6] = true) : (p.triggerSnapshot).Captured p := by
  unfold Part.triggerSnapshot; (repeat' split) <;> simp [Part.Captured, h]
@[simp] theorem Part.settleSnapshot_captured (h : p.faults.cause[6] = true) : (p.settleSnapshot).Captured p := by
  unfold Part.settleSnapshot; split <;> simp [Part.Captured, h]
@[simp] theorem Part.periodExpired_captured (h : p.faults.cause[6] = true) : (p.periodExpired).Captured p := by
  simp [Part.periodExpired, Part.Captured, h]
@[simp] theorem Part.statAskRead_captured (h : p.faults.cause[6] = true) (w : Word) : (p.statAskRead w).Captured p := by
  simp [Part.statAskRead, Part.Captured, h]
@[simp] theorem Part.statAskFailed_captured (h : p.faults.cause[6] = true) : (p.statAskFailed).Captured p := by
  simp [Part.statAskFailed, Part.Captured, h]
@[simp] theorem Part.cutSnapshot_captured (h : p.faults.cause[6] = true) : (p.cutSnapshot).Captured p := by
  simp [Part.cutSnapshot, Part.Captured, h]
@[simp] theorem Part.startCycle_captured (h : p.faults.cause[6] = true) : (p.startCycle).Captured p := by
  simp [Part.startCycle, Part.Captured, h]
@[simp] theorem Part.openRewrites_captured (h : p.faults.cause[6] = true) : (p.openRewrites).Captured p := by
  unfold Part.openRewrites; (repeat' split) <;> simp (maxDischargeDepth := 12) [Part.Captured, h]
@[simp] theorem Part.openPatience_captured (h : p.faults.cause[6] = true) : (p.openPatience).Captured p := by
  unfold Part.openPatience; (repeat' split) <;> simp (maxDischargeDepth := 12) [Part.Captured, h]
@[simp] theorem Part.openScan_captured (h : p.faults.cause[6] = true) : (p.openScan).Captured p := by
  unfold Part.openScan; (repeat' split) <;> simp (maxDischargeDepth := 12) [Part.Captured, h]
@[simp] theorem Part.settleParcelOpen_captured (h : p.faults.cause[6] = true) : (p.settleParcelOpen).Captured p := by
  unfold Part.settleParcelOpen; (repeat' split) <;> simp (maxDischargeDepth := 12) [Part.Captured, h]
@[simp] theorem Part.enterPolling_captured (h : p.faults.cause[6] = true) : (p.enterPolling).Captured p := by
  simp [Part.enterPolling, Part.Captured, h]
@[simp] theorem Part.enterClosing_captured (h : p.faults.cause[6] = true) : (p.enterClosing).Captured p := by
  simp [Part.enterClosing, Part.Captured, h]
@[simp] theorem Part.nameExchange_captured (h : p.faults.cause[6] = true) (e : Parcel) (bt : Nat) (f : Parcel → Parcel) (ex : Exchange) (frame : List Byte) :
    (p.nameExchange e bt f ex frame).Captured p := by
  unfold Part.nameExchange; split <;> simp [Part.Captured, h]
@[simp] theorem Part.nameSeg_captured (h : p.faults.cause[6] = true) (e : Parcel) : (p.nameSeg e).Captured p := by
  simp [Part.nameSeg, Part.Captured, h]
@[simp] theorem Part.nameNext_captured (h : p.faults.cause[6] = true) (e : Parcel) (n : Nat) : (p.nameNext e n).Captured p := by
  simp [Part.nameNext, Part.Captured, h]
@[simp] theorem Part.nameAbandon_captured (h : p.faults.cause[6] = true) (e : Parcel) : (p.nameAbandon e).Captured p := by
  simp [Part.nameAbandon, Part.Captured, h]
@[simp] theorem Part.serveParcel_captured (h : p.faults.cause[6] = true) (e : Parcel) : (p.serveParcel e).Captured p := by
  unfold Part.serveParcel; split <;> simp [Part.Captured, h]
@[simp] theorem Part.newPass_captured (h : p.faults.cause[6] = true) : (p.newPass).Captured p := by
  simp [Part.newPass, Part.Captured, h]
@[simp] theorem Part.parcelNext_captured (h : p.faults.cause[6] = true) : (p.parcelNext).Captured p := by
  unfold Part.parcelNext; dsimp only; (repeat' split) <;> simp [Part.Captured, h]
@[simp] theorem Part.parcelPhase_captured (h : p.faults.cause[6] = true) : (p.parcelPhase).Captured p := by
  simp [Part.parcelPhase, Part.Captured, h]
@[simp] theorem Part.withdrawRead_captured (h : p.faults.cause[6] = true) (slot : SlotIx) (w : Word) :
    (p.withdrawRead slot w).Captured p := by
  unfold Part.withdrawRead; dsimp only; (repeat' split) <;> simp [Part.Captured, h]
@[simp] theorem Part.withdrawLost_captured (h : p.faults.cause[6] = true) (slot : SlotIx) :
    (p.withdrawLost slot).Captured p := by
  simp [Part.withdrawLost, Part.Captured, h]
@[simp] theorem Part.parcelAttemptFailed_captured (h : p.faults.cause[6] = true) (slot : SlotIx) :
    (p.parcelAttemptFailed slot).Captured p := by
  unfold Part.parcelAttemptFailed; (repeat' split) <;> simp [Part.Captured, h]
@[simp] theorem Part.segAcked_captured (h : p.faults.cause[6] = true) (slot : SlotIx) (b : Byte) :
    (p.segAcked slot b).Captured p := by
  simp [Part.segAcked, Part.Captured, h]
@[simp] theorem Part.segReplied_captured (h : p.faults.cause[6] = true) (slot : SlotIx) (n : Nat) (f : Frame) :
    (p.segReplied slot n f).Captured p := by
  unfold Part.segReplied; dsimp only; (repeat' split) <;> simp [Part.Captured, h]
@[simp] theorem Part.giveFetch_captured (h : p.faults.cause[6] = true) (i : NodeIx) : (p.giveFetch i).Captured p := by
  simp [Part.giveFetch, Part.Captured, h]
@[simp] theorem Part.beginFetch_captured (h : p.faults.cause[6] = true) (i : NodeIx) : (p.beginFetch i).Captured p := by
  unfold Part.beginFetch; dsimp only; (repeat' split) <;> simp [Part.Captured, h]
@[simp] theorem Part.fetchNext_captured (h : p.faults.cause[6] = true) : (p.fetchNext).Captured p := by
  unfold Part.fetchNext; (repeat' split) <;> simp [Part.Captured, h]
@[simp] theorem Part.fetchPhase_captured (h : p.faults.cause[6] = true) : (p.fetchPhase).Captured p := by
  simp [Part.fetchPhase, Part.Captured, h]
@[simp] theorem Part.fetchAfterRead_captured (h : p.faults.cause[6] = true) : (p.fetchAfterRead).Captured p := by
  unfold Part.fetchAfterRead; dsimp only; (repeat' split) <;> simp [Part.Captured, h]
@[simp] theorem Part.fetchGood_captured (h : p.faults.cause[6] = true) (i : NodeIx) (ack : Option Byte) (f : Frame) :
    (p.fetchGood i ack f).Captured p := by
  unfold Part.fetchGood; (repeat' split) <;> simp (maxDischargeDepth := 12) [Part.Captured, h]
@[simp] theorem Part.fetchAttemptFailed_captured (h : p.faults.cause[6] = true) (i : NodeIx) :
    (p.fetchAttemptFailed i).Captured p := by
  unfold Part.fetchAttemptFailed; (repeat' split) <;> simp [Part.Captured, h]
@[simp] theorem Part.windowPhase_captured (h : p.faults.cause[6] = true) : (p.windowPhase).Captured p := by
  unfold Part.windowPhase; (repeat' split) <;> simp [Part.Captured, h]
@[simp] theorem Part.givePoll_captured (h : p.faults.cause[6] = true) (i : NodeIx) (ack : Option Byte) (slice : List Byte) :
    (p.givePoll i ack slice).Captured p := by
  simp [Part.givePoll, Part.Captured, h]
@[simp] theorem Part.pollAttempt_captured (h : p.faults.cause[6] = true) (i : NodeIx) : (p.pollAttempt i).Captured p := by
  unfold Part.pollAttempt; dsimp only; (repeat' split) <;> simp [Part.Captured, h]
@[simp] theorem Part.continueSlice_captured (h : p.faults.cause[6] = true) (w : Word) : (p.continueSlice w).Captured p := by
  unfold Part.continueSlice; (repeat' split) <;> simp [Part.Captured, h]
@[simp] theorem Part.sliceFailed_captured (h : p.faults.cause[6] = true) : (p.sliceFailed).Captured p := by
  unfold Part.sliceFailed; split <;> simp [Part.Captured, h]
@[simp] theorem Part.pollNext_captured (h : p.faults.cause[6] = true) : (p.pollNext).Captured p := by
  unfold Part.pollNext; split <;> simp [Part.Captured, h]
@[simp] theorem Part.pollAttemptFailed_captured (h : p.faults.cause[6] = true) (i : NodeIx) :
    (p.pollAttemptFailed i).Captured p := by
  unfold Part.pollAttemptFailed; dsimp only; (repeat' split) <;> simp [Part.Captured, h]
@[simp] theorem Part.takeOutcome_captured (h : p.faults.cause[6] = true) (ex : Exchange) (reply : Option Frame) :
    (p.takeOutcome ex reply).Captured p := by
  unfold Part.takeOutcome; (repeat' split) <;> simp (maxDischargeDepth := 12) [Part.Captured, h]
@[simp] theorem Part.slotEnd_captured (h : p.faults.cause[6] = true) (heard : SlotHeard) : (p.slotEnd heard).Captured p := by
  unfold Part.slotEnd; dsimp only; (repeat' split) <;> simp (maxDischargeDepth := 12) [Part.Captured, h]
@[simp] theorem Part.abandonSent_captured (h : p.faults.cause[6] = true) (slot : SlotIx) : (p.abandonSent slot).Captured p := by
  simp [Part.abandonSent, Part.Captured, h]
@[simp] theorem Part.closeInRun_captured (h : p.faults.cause[6] = true) : (p.closeInRun).Captured p := by
  unfold Part.closeInRun; split <;> simp [Part.Captured, h]
@[simp] theorem Part.cycleExpiry_captured (h : p.faults.cause[6] = true) : (p.cycleExpiry).Captured p := by
  unfold Part.cycleExpiry; dsimp only; (repeat' split) <;> simp [Part.Captured, h]
@[simp] theorem Part.writeState_captured (h : p.faults.cause[6] = true) (state : LadderState) :
    (p.writeState state).Captured p := by
  simp [Part.writeState, Part.Captured, h]
@[simp] theorem Part.enterRun_captured (h : p.faults.cause[6] = true) : (p.enterRun).Captured p := by
  simp [Part.enterRun, Part.Captured, h]
@[simp] theorem Part.enterHeld_captured (h : p.faults.cause[6] = true) (named : Bool) : (p.enterHeld named).Captured p := by
  simp [Part.enterHeld, Part.Captured, h]
@[simp] theorem Part.enterResting_captured (h : p.faults.cause[6] = true) : (p.enterResting).Captured p := by
  simp (maxDischargeDepth := 12) [Part.enterResting, Part.Captured, h]
@[simp] theorem Part.enterRousing_captured (h : p.faults.cause[6] = true) : (p.enterRousing).Captured p := by
  simp [Part.enterRousing, Part.Captured, h]
@[simp] theorem Part.beginStill_captured (h : p.faults.cause[6] = true) : (p.beginStill).Captured p := by
  simp [Part.beginStill, Part.Captured, h]
@[simp] theorem Part.enterSettling_captured (h : p.faults.cause[6] = true) : (p.enterSettling).Captured p := by
  simp [Part.enterSettling, Part.Captured, h]
@[simp] theorem Part.startupFail_captured (h : p.faults.cause[6] = true) : (p.startupFail).Captured p := by
  simp [Part.startupFail, Part.Captured, h]
@[simp] theorem Part.startupRead_captured (h : p.faults.cause[6] = true) (s : Startup) (pos : StartPos) (offset : Nat) :
    (p.startupRead s pos offset).Captured p := by
  simp [Part.startupRead, Part.Captured, h]
@[simp] theorem Part.startupWrite_captured (h : p.faults.cause[6] = true) (s : Startup) (pos : StartPos) (offset : Nat) (w : Word) :
    (p.startupWrite s pos offset w).Captured p := by
  simp [Part.startupWrite, Part.Captured, h]
@[simp] theorem Part.resetWorkingUnits_captured (h : p.faults.cause[6] = true) : (p.resetWorkingUnits).Captured p := by
  simp [Part.resetWorkingUnits, Part.Captured, h]
@[simp] theorem Part.enterStarting_captured (h : p.faults.cause[6] = true) (area : Word) (r : Request) :
    (p.enterStarting area r).Captured p := by
  unfold Part.enterStarting; split <;> simp [Part.Captured, h]
@[simp] theorem Part.startupFinal_captured (h : p.faults.cause[6] = true) (s : Startup) : (p.startupFinal s).Captured p := by
  simp [Part.startupFinal, Part.Captured, h]
@[simp] theorem Part.sweepNext_captured (h : p.faults.cause[6] = true) (s : Startup) (slot : SlotIx) :
    (p.sweepNext s slot).Captured p := by
  unfold Part.sweepNext; (repeat' split) <;> simp [Part.Captured, h]
@[simp] theorem Part.startupDone_captured (h : p.faults.cause[6] = true) (w : Word) : (p.startupDone w).Captured p := by
  unfold Part.startupDone; dsimp only; (repeat' split) <;> simp [Part.Captured, h]
theorem Part.keepStatusWord_captured (h : p.faults.cause[6] = true) (s : Startup) (i : NodeIx) (k : Nat) (w : Word) :
    (p.keepStatusWord s i k w).1.Captured p := by
  unfold Part.keepStatusWord; (repeat' split) <;> simp [Part.Captured, h]
@[simp] theorem Part.startupStep_captured (h : p.faults.cause[6] = true) (w : Word) : (p.startupStep w).Captured p := by
  unfold Part.startupStep
  split
  · exact .rfl h
  · split
    case h_7 i k _ =>
      rename_i s _ _ _
      have hk := p.keepStatusWord_captured h s i k.val w
      refine Part.Captured.trans ?_ hk
      have hk := hk.1
      revert hk
      generalize p.keepStatusWord s i k.val w = q
      intro hk
      dsimp only
      (repeat' split) <;> simp [Part.Captured, hk]
    all_goals
      (repeat' split) <;> simp [Part.Captured, h]
@[simp] theorem Part.settleStartup_captured (h : p.faults.cause[6] = true) : (p.settleStartup).Captured p := by
  unfold Part.settleStartup; (repeat' split) <;> simp [Part.Captured, h]
@[simp] theorem Part.skipRequest_captured (h : p.faults.cause[6] = true) (r : Request) : (p.skipRequest r).Captured p := by
  simp [Part.skipRequest, Part.Captured, h]
@[simp] theorem Part.emptySlot_captured (h : p.faults.cause[6] = true) : (p.emptySlot).Captured p := by
  simp [Part.emptySlot, Part.Captured, h]
@[simp] theorem Part.keepPending_captured (h : p.faults.cause[6] = true) (r : Request) : (p.keepPending r).Captured p := by
  simp [Part.keepPending, Part.Captured, h]
@[simp] theorem Part.takeRequest_captured (h : p.faults.cause[6] = true) (area : Word) (r : Request) :
    (p.takeRequest area r).Captured p := by
  unfold Part.takeRequest; dsimp only; (repeat' split) <;> simp (maxDischargeDepth := 12) [Part.Captured, h]
@[simp] theorem Part.requestWritten_captured (h : p.faults.cause[6] = true) (area : Word) (r : Request) :
    (p.requestWritten area r).Captured p := by
  unfold Part.requestWritten; split <;> simp [Part.Captured, h]
@[simp] theorem Part.takePending_captured (h : p.faults.cause[6] = true) (area : Word) : (p.takePending area).Captured p := by
  unfold Part.takePending; (repeat' split) <;> simp [Part.Captured, h]
@[simp] theorem Part.judgeInRun_captured (h : p.faults.cause[6] = true) : (p.judgeInRun).Captured p := by
  unfold Part.judgeInRun; (repeat' split) <;> simp [Part.Captured, h]
@[simp] theorem Part.leaveRun_captured (h : p.faults.cause[6] = true) (named : Bool) : (p.leaveRun named).Captured p := by
  simp [Part.leaveRun, Part.Captured, h]
@[simp] theorem Part.closeComplete_captured (h : p.faults.cause[6] = true) : (p.closeComplete).Captured p := by
  unfold Part.closeComplete; (repeat' split) <;> simp [Part.Captured, h]
@[simp] theorem Part.holdCheckStopped_captured (h : p.faults.cause[6] = true) : (p.holdCheckStopped).Captured p := by
  unfold Part.holdCheckStopped; split <;> simp [Part.Captured, h]
@[simp] theorem Part.endService_captured (h : p.faults.cause[6] = true) : (p.endService).Captured p := by
  unfold Part.endService; dsimp only; (repeat' split) <;> simp [Part.Captured, h]
@[simp] theorem Part.serveNode_captured (h : p.faults.cause[6] = true) (i : NodeIx) : (p.serveNode i).Captured p := by
  simp [Part.serveNode, Part.Captured, h]
@[simp] theorem Part.serviceName_captured (h : p.faults.cause[6] = true) (i : NodeIx) : (p.serviceName i).Captured p := by
  unfold Part.serviceName; split <;> simp [Part.Captured, h]
@[simp] theorem Part.serviceNext_captured (h : p.faults.cause[6] = true) : (p.serviceNext).Captured p := by
  unfold Part.serviceNext; dsimp only; (repeat' split) <;> simp [Part.Captured, h]
@[simp] theorem Part.enterService_captured (h : p.faults.cause[6] = true) : (p.enterService).Captured p := by
  simp [Part.enterService, Part.Captured, h]
@[simp] theorem Part.serviceAfterRead_captured (h : p.faults.cause[6] = true) : (p.serviceAfterRead).Captured p := by
  unfold Part.serviceAfterRead; dsimp only; (repeat' split) <;> simp [Part.Captured, h]
@[simp] theorem Part.serviceOutcome_captured (h : p.faults.cause[6] = true) (ex : Exchange) (reply : Option Frame) :
    (p.serviceOutcome ex reply).Captured p := by
  unfold Part.serviceOutcome; (repeat' split) <;> simp [Part.Captured, h]
@[simp] theorem Part.settleService_captured (h : p.faults.cause[6] = true) : (p.settleService).Captured p := by
  unfold Part.settleService; (repeat' split) <;> simp [Part.Captured, h]
@[simp] theorem Part.nudge_captured (h : p.faults.cause[6] = true) : (p.nudge).Captured p := by
  unfold Part.nudge; (repeat' split) <;> simp [Part.Captured, h]
@[simp] theorem Part.takeAlert_captured (h : p.faults.cause[6] = true) (address : Byte) : (p.takeAlert address).Captured p := by
  unfold Part.takeAlert; dsimp only; (repeat' split) <;> simp [Part.Captured, h]
@[simp] theorem Part.unsolicitedFrame_captured (h : p.faults.cause[6] = true) (frame : Option Frame) :
    (p.unsolicitedFrame frame).Captured p := by
  unfold Part.unsolicitedFrame; (repeat' split) <;> simp [Part.Captured, h]
@[simp] theorem Part.unsolicitedItems_captured (h : p.faults.cause[6] = true) (items : List LineItem) :
    (p.unsolicitedItems items).Captured p := by
  have := foldl_captured Part.unsolicitedFrame (fun q f k => q.unsolicitedFrame_captured k f)
    (framesHeard (p.frames.uncounted items)) p h
  simpa [Part.unsolicitedItems, Part.Captured] using this
@[simp] theorem Part.lineActivity_captured (h : p.faults.cause[6] = true) : (p.lineActivity).Captured p := by
  unfold Part.lineActivity; split <;> simp [Part.Captured, h]
@[simp] theorem Part.holdFrameSent_captured (h : p.faults.cause[6] = true) (area : Word) :
    (p.holdFrameSent area).Captured p := by
  unfold Part.holdFrameSent; dsimp only; (repeat' split) <;> simp [Part.Captured, h]
@[simp] theorem Part.restFrameSent_captured (h : p.faults.cause[6] = true) (area : Word) :
    (p.restFrameSent area).Captured p := by
  simp [Part.restFrameSent, Part.Captured, h]
@[simp] theorem Part.rouseFrameSent_captured (h : p.faults.cause[6] = true) : (p.rouseFrameSent).Captured p := by
  simp [Part.rouseFrameSent, Part.Captured, h]
@[simp] theorem Part.rouseExpired_captured (h : p.faults.cause[6] = true) : (p.rouseExpired).Captured p := by
  simp (maxDischargeDepth := 12) [Part.rouseExpired, Part.Captured, h]
@[simp] theorem Part.settleExpired_captured (h : p.faults.cause[6] = true) (area : Word) :
    (p.settleExpired area).Captured p := by
  simp [Part.settleExpired, Part.Captured, h]
@[simp] theorem Part.enterStill_captured (h : p.faults.cause[6] = true) : (p.enterStill).Captured p := by
  simp [Part.enterStill, Part.Captured, h]
@[simp] theorem Part.stateWordEnded_captured (h : p.faults.cause[6] = true) :
    (p.stateWordEnded).Captured p := by
  unfold Part.stateWordEnded; split <;> simp [Part.Captured, h]
@[simp] theorem Part.settle_captured (h : p.faults.cause[6] = true) : (p.settle).Captured p := by
  unfold Part.settle; (repeat' split) <;> simp (maxDischargeDepth := 12) [Part.Captured, h]
@[simp] theorem Part.afterTaken_captured (h : p.faults.cause[6] = true) : (p.afterTaken).Captured p := by
  unfold Part.afterTaken; (repeat' split) <;> simp [Part.Captured, h]
@[simp] theorem Part.takenEnded_captured (h : p.faults.cause[6] = true) (w : Word) : (p.takenEnded w).Captured p := by
  unfold Part.takenEnded; dsimp only; (repeat' split) <;> simp (maxDischargeDepth := 12) [Part.Captured, h]
@[simp] theorem Part.withdrawEnded_captured (h : p.faults.cause[6] = true) (w : Word) : (p.withdrawEnded w).Captured p := by
  unfold Part.withdrawEnded; split <;> simp [Part.Captured, h]
@[simp] theorem Part.accessDone_captured (h : p.faults.cause[6] = true) (source : Source) (w : Word) :
    (p.accessDone source w).Captured p := by
  unfold Part.accessDone; (repeat' split) <;> simp [Part.Captured, h]
@[simp] theorem Part.blockFailed_captured (h : p.faults.cause[6] = true) (source : Source) :
    (p.blockFailed source).Captured p := by
  unfold Part.blockFailed; (repeat' split) <;> simp [Part.Captured, h]
@[simp] theorem Part.startupLoss_captured (h : p.faults.cause[6] = true) (source : Source) :
    (p.startupLoss source).Captured p := by
  unfold Part.startupLoss; (repeat' split) <;> simp (maxDischargeDepth := 12) [Part.Captured, h]
@[simp] theorem Part.accessFailed_captured (h : p.faults.cause[6] = true) (a : Access) :
    (p.accessFailed a).Captured p := by
  unfold Part.accessFailed; dsimp only; (repeat' split) <;> simp [Part.Captured, h]
@[simp] theorem Part.returnOutcome_captured (h : p.faults.cause[6] = true) : (p.returnOutcome).Captured p := by
  unfold Part.returnOutcome; dsimp only; (repeat' split) <;> simp [Part.Captured, h]
@[simp] theorem Part.carrier_captured (h : p.faults.cause[6] = true) (items : List LineItem) :
    (p.carrier items).Captured p := by
  unfold Part.carrier; (repeat' split) <;> simp [Part.Captured, h]

end Sys2Proof.Machine
end

