-- ==== Sys2Proof/Laws/Rest.lean ====
section
/-! SUPPORT. What `settle` leaves of the line, and of the causes: outside STARTING and HELD-SERVICE it changes neither the ladder
controller nor the frame engine, and it sets no cause but CAUSE.NODE. -/

namespace Sys2Proof.Machine

/-- `q` has the ladder controller, the frame engine and the exchange in progress of `p`. -/
abbrev Part.KeepsLine (q p : Part) : Prop :=
  q.ladder = p.ladder ∧ q.frames = p.frames ∧ q.events.nodes = p.events.nodes ∧ q.events.claimed = p.events.claimed ∧
  q.sched.attempts = p.sched.attempts ∧
  q.sched.probeStart = p.sched.probeStart ∧ q.sched.passedOver = p.sched.passedOver ∧
  q.sched.fetchRead = p.sched.fetchRead ∧ q.sched.withdrawRead = p.sched.withdrawRead

theorem Part.KeepsLine.rfl {p : Part} : p.KeepsLine p := by simp [Part.KeepsLine]

theorem Part.KeepsLine.trans {p q r : Part} (h : r.KeepsLine q) (k : q.KeepsLine p) : r.KeepsLine p := by
  simp_all [Part.KeepsLine]

variable (p : Part)

@[simp] theorem Part.writeAnswer_keepsLine (writes : List (Nat × Word)) : (p.writeAnswer writes).KeepsLine p := by
  unfold Part.writeAnswer; split <;> simp [Part.KeepsLine]
@[simp] theorem Part.readWithdraw_keepsLine (source : Source) (slot : SlotIx) : (p.readWithdraw source slot).KeepsLine p := by
  simp [Part.readWithdraw, Part.KeepsLine]
@[simp] theorem Part.startAnswer_keepsLine : (p.startAnswer).KeepsLine p := by
  unfold Part.startAnswer; (repeat' split) <;> simp [Part.KeepsLine]
@[simp] theorem Part.readyAnswer_keepsLine (a : AnswerFor) : (p.readyAnswer a).KeepsLine p := by
  simp [Part.readyAnswer, Part.KeepsLine]
@[simp] theorem Part.readTotal_keepsLine : (p.readTotal).KeepsLine p := by
  simp [Part.readTotal, Part.KeepsLine]
@[simp] theorem Part.scanTrigger_keepsLine : (p.scanTrigger).KeepsLine p := by
  unfold Part.scanTrigger; (repeat' split) <;> simp [Part.KeepsLine]
@[simp] theorem Part.retryAnswers_keepsLine : (p.retryAnswers).KeepsLine p := by
  unfold Part.retryAnswers; dsimp only; split
  · exact Part.KeepsLine.rfl
  · exact foldl_relates Part.KeepsLine Part.KeepsLine.rfl (fun h k => h.trans k) _ (fun _ _ => by simp [Part.KeepsLine]) _ _
@[simp] theorem Part.lowerPatience_keepsLine : (p.lowerPatience).KeepsLine p := by
  simp [Part.lowerPatience, Part.KeepsLine]
@[simp] theorem Part.issueStatus_keepsLine (i : NodeIx) (k : Fin 4) : (p.issueStatus i k).KeepsLine p := by
  simp [Part.issueStatus, Part.KeepsLine]
@[simp] theorem Part.startStatus_keepsLine : (p.startStatus).KeepsLine p := by
  unfold Part.startStatus; split <;> simp [Part.KeepsLine]
@[simp] theorem Part.queueStatus_keepsLine (i : NodeIx) (cause : Bool) : (p.queueStatus i cause).KeepsLine p := by
  unfold Part.queueStatus; dsimp only; (repeat' split) <;> simp [Part.KeepsLine]
@[simp] theorem Part.writeOwed_keepsLine : (p.writeOwed).KeepsLine p := by
  unfold Part.writeOwed
  exact foldl_relates Part.KeepsLine Part.KeepsLine.rfl (fun h k => h.trans k) _ (fun _ _ => by simp [Part.KeepsLine]) _ _
@[simp] theorem Part.startAppend_keepsLine : (p.startAppend).KeepsLine p := by
  unfold Part.startAppend; split <;> simp [Part.KeepsLine]
@[simp] theorem Part.requestTaken_keepsLine (onFetch : Bool) : (p.requestTaken onFetch).KeepsLine p := by
  unfold Part.requestTaken; split <;> simp [Part.KeepsLine]
@[simp] theorem Part.settleNodeOpen_keepsLine : (p.settleNodeOpen).KeepsLine p := by
  unfold Part.settleNodeOpen; dsimp only; (repeat' split) <;> simp [Part.KeepsLine]
@[simp] theorem Part.checkAt_keepsLine (c : Check) : (p.checkAt c).KeepsLine p := by
  unfold Part.checkAt; split <;> simp [Part.KeepsLine]
@[simp] theorem Part.beginCheck_keepsLine (origin : CheckFrom) : (p.beginCheck origin).KeepsLine p := by
  simp [Part.beginCheck, Part.KeepsLine]
@[simp] theorem Part.settleCheck_keepsLine : (p.settleCheck).KeepsLine p := by
  unfold Part.settleCheck; (repeat' split) <;> simp [Part.KeepsLine]
@[simp] theorem Part.snapshotAt_keepsLine (s : Snapshot) : (p.snapshotAt s).KeepsLine p := by
  simp [Part.snapshotAt, Part.KeepsLine]
@[simp] theorem Part.beginSnapshot_keepsLine : (p.beginSnapshot).KeepsLine p := by
  simp [Part.beginSnapshot, Part.KeepsLine]
@[simp] theorem Part.triggerSnapshot_keepsLine : (p.triggerSnapshot).KeepsLine p := by
  unfold Part.triggerSnapshot; (repeat' split) <;> simp [Part.KeepsLine]
@[simp] theorem Part.settleSnapshot_keepsLine : (p.settleSnapshot).KeepsLine p := by
  unfold Part.settleSnapshot; split <;> simp [Part.KeepsLine]
@[simp] theorem Part.openRewrites_keepsLine : (p.openRewrites).KeepsLine p := by
  unfold Part.openRewrites; (repeat' split) <;> simp [Part.KeepsLine]
@[simp] theorem Part.openPatience_keepsLine : (p.openPatience).KeepsLine p := by
  unfold Part.openPatience; (repeat' split) <;> simp [Part.KeepsLine]
@[simp] theorem Part.openScan_keepsLine : (p.openScan).KeepsLine p := by
  unfold Part.openScan; (repeat' split) <;> simp [Part.KeepsLine]
@[simp] theorem Part.settleParcelOpen_keepsLine : (p.settleParcelOpen).KeepsLine p := by
  unfold Part.settleParcelOpen; (repeat' split) <;> simp [Part.KeepsLine]

/-- Outside STARTING and HELD-SERVICE `settle` changes nothing of the ladder controller or the frame engine. -/
theorem Part.settle_keepsLine (h : p.ladder.state ≠ .starting) (h' : p.ladder.state ≠ .heldService) :
    p.settle.KeepsLine p := by
  have startup : ∀ q : Part, q.ladder = p.ladder → q.settleStartup = q := by
    intro q e; unfold Part.settleStartup; split
    · simp [e, h]
    · rfl
  have service : ∀ q : Part, q.ladder = p.ladder → q.settleService = q := by
    intro q e; simp [Part.settleService, e, h']
  unfold Part.settle
  rw [startup _ (by simp), service _ (by simp)]
  simp [Part.KeepsLine]

/-! ## Causes -/

/-- `q` has the causes of `p`, but for CAUSE.NODE, which it may have besides. -/
abbrev Part.KeepsCause (q p : Part) : Prop :=
  (∀ b : CauseBit, b ≠ .node → q.hasCause b = p.hasCause b) ∧ (p.hasCause .node = true → q.hasCause .node = true)

theorem Part.KeepsCause.rfl {p : Part} : p.KeepsCause p := by simp [Part.KeepsCause]

theorem Part.KeepsCause.trans {p q r : Part} (h : r.KeepsCause q) (k : q.KeepsCause p) : r.KeepsCause p :=
  ⟨fun b hb => (h.1 b hb).trans (k.1 b hb), fun e => h.2 (k.2 e)⟩

theorem Part.KeepsCause.of_faults {p q : Part} (h : q.faults.cause = p.faults.cause) : q.KeepsCause p := by
  simp [Part.KeepsCause, Part.hasCause, h]

@[simp] theorem Part.setCause_node_keepsCause : (p.setCause .node).KeepsCause p := by
  simp only [Part.KeepsCause, Part.hasCause, Part.setCause]
  refine ⟨fun b hb => ?_, fun h => ?_⟩
  · cases b <;> simp_all [CauseBit.mask, CauseBit.position]
  · simp_all [CauseBit.mask, CauseBit.position]

@[simp] theorem Part.writeAnswer_cause (writes : List (Nat × Word)) :
    (p.writeAnswer writes).faults.cause = p.faults.cause := by
  unfold Part.writeAnswer; split <;> simp
@[simp] theorem Part.readWithdraw_cause (source : Source) (slot : SlotIx) :
    (p.readWithdraw source slot).faults.cause = p.faults.cause := by
  simp [Part.readWithdraw]
@[simp] theorem Part.startAnswer_cause : (p.startAnswer).faults.cause = p.faults.cause := by
  unfold Part.startAnswer; (repeat' split) <;> simp
@[simp] theorem Part.readyAnswer_cause (a : AnswerFor) : (p.readyAnswer a).faults.cause = p.faults.cause := by
  simp [Part.readyAnswer]
@[simp] theorem Part.readTotal_cause : (p.readTotal).faults.cause = p.faults.cause := by
  simp [Part.readTotal]
@[simp] theorem Part.scanTrigger_cause : (p.scanTrigger).faults.cause = p.faults.cause := by
  unfold Part.scanTrigger; (repeat' split) <;> simp
@[simp] theorem Part.retryAnswers_cause : (p.retryAnswers).faults.cause = p.faults.cause := by
  simp only [Part.retryAnswers]; (repeat' split) <;> simp [foldl_keeps (fun q : Part => q.faults.cause)]
@[simp] theorem Part.lowerPatience_cause : (p.lowerPatience).faults.cause = p.faults.cause := by
  simp [Part.lowerPatience]
@[simp] theorem Part.issueStatus_cause (i : NodeIx) (k : Fin 4) : (p.issueStatus i k).faults.cause = p.faults.cause := by
  simp [Part.issueStatus]
@[simp] theorem Part.startStatus_cause : (p.startStatus).faults.cause = p.faults.cause := by
  unfold Part.startStatus; split <;> simp
@[simp] theorem Part.queueStatus_cause (i : NodeIx) (cause : Bool) : (p.queueStatus i cause).faults.cause = p.faults.cause := by
  unfold Part.queueStatus; dsimp only; (repeat' split) <;> simp
@[simp] theorem Part.writeOwed_cause : (p.writeOwed).faults.cause = p.faults.cause := by
  simp [Part.writeOwed, foldl_keeps (fun q : Part => q.faults.cause)]
@[simp] theorem Part.newRound_cause : (p.newRound).faults.cause = p.faults.cause := by
  simp [Part.newRound]
@[simp] theorem Part.nameNode_cause (i : NodeIx) : (p.nameNode i).faults.cause = p.faults.cause := by
  simp [Part.nameNode]
@[simp] theorem Part.startAppend_cause : (p.startAppend).faults.cause = p.faults.cause := by
  unfold Part.startAppend; split <;> simp
@[simp] theorem Part.requestTaken_cause (onFetch : Bool) : (p.requestTaken onFetch).faults.cause = p.faults.cause := by
  unfold Part.requestTaken; split <;> simp
@[simp] theorem Part.settleNodeOpen_cause : (p.settleNodeOpen).faults.cause = p.faults.cause := by
  unfold Part.settleNodeOpen; dsimp only; (repeat' split) <;> simp
@[simp] theorem Part.checkAt_cause (c : Check) : (p.checkAt c).faults.cause = p.faults.cause := by
  unfold Part.checkAt; split <;> simp
@[simp] theorem Part.beginCheck_cause (origin : CheckFrom) : (p.beginCheck origin).faults.cause = p.faults.cause := by
  simp [Part.beginCheck]
@[simp] theorem Part.snapshotAt_cause (s : Snapshot) : (p.snapshotAt s).faults.cause = p.faults.cause := by
  simp [Part.snapshotAt]
@[simp] theorem Part.beginSnapshot_cause : (p.beginSnapshot).faults.cause = p.faults.cause := by
  simp [Part.beginSnapshot]
@[simp] theorem Part.triggerSnapshot_cause : (p.triggerSnapshot).faults.cause = p.faults.cause := by
  unfold Part.triggerSnapshot; (repeat' split) <;> simp
@[simp] theorem Part.settleSnapshot_cause : (p.settleSnapshot).faults.cause = p.faults.cause := by
  unfold Part.settleSnapshot; split <;> simp
@[simp] theorem Part.openRewrites_cause : (p.openRewrites).faults.cause = p.faults.cause := by
  unfold Part.openRewrites; (repeat' split) <;> simp
@[simp] theorem Part.openPatience_cause : (p.openPatience).faults.cause = p.faults.cause := by
  unfold Part.openPatience; (repeat' split) <;> simp
@[simp] theorem Part.openScan_cause : (p.openScan).faults.cause = p.faults.cause := by
  unfold Part.openScan; (repeat' split) <;> simp
@[simp] theorem Part.settleParcelOpen_cause : (p.settleParcelOpen).faults.cause = p.faults.cause := by
  unfold Part.settleParcelOpen; (repeat' split) <;> simp
@[simp] theorem Part.giveFetch_cause (i : NodeIx) : (p.giveFetch i).faults.cause = p.faults.cause := by
  simp [Part.giveFetch]
@[simp] theorem Part.startupFail_cause : (p.startupFail).faults.cause = p.faults.cause := by
  simp [Part.startupFail]
@[simp] theorem Part.startupRead_cause (s : Startup) (pos : StartPos) (offset : Nat) :
    (p.startupRead s pos offset).faults.cause = p.faults.cause := by
  simp [Part.startupRead]
@[simp] theorem Part.settleStartup_cause : (p.settleStartup).faults.cause = p.faults.cause := by
  unfold Part.settleStartup; (repeat' split) <;> simp
@[simp] theorem Part.endService_cause : (p.endService).faults.cause = p.faults.cause := by
  unfold Part.endService; dsimp only; (repeat' split) <;> simp
@[simp] theorem Part.serveNode_cause (i : NodeIx) : (p.serveNode i).faults.cause = p.faults.cause := by
  simp [Part.serveNode]
@[simp] theorem Part.serviceName_cause (i : NodeIx) : (p.serviceName i).faults.cause = p.faults.cause := by
  unfold Part.serviceName; split <;> simp
@[simp] theorem Part.serviceNext_cause : (p.serviceNext).faults.cause = p.faults.cause := by
  unfold Part.serviceNext; dsimp only; (repeat' split) <;> simp
@[simp] theorem Part.settleService_cause : (p.settleService).faults.cause = p.faults.cause := by
  unfold Part.settleService; (repeat' split) <;> simp
@[simp] theorem Part.settleCheck_keepsCause : (p.settleCheck).KeepsCause p := by
  unfold Part.settleCheck
  (repeat' split)
  · exact (Part.KeepsCause.of_faults (by simp)).trans (p.setCause_node_keepsCause)
  all_goals exact .of_faults (by simp)

theorem Part.settle_keepsCause : p.settle.KeepsCause p := by
  refine (Part.KeepsCause.of_faults (q := p.settle) (p := p.settleNodeOpen.settleCheck) ?_).trans
    ((p.settleNodeOpen.settleCheck_keepsCause).trans (.of_faults (by simp)))
  simp [Part.settle]

/-- A cause but CAUSE.NODE after an event is the cause the event's own work leaves. -/
theorem State.act_hasCause (s : State) (f : Part → Part) (b : CauseBit) (h : b ≠ .node) :
    (s.act f).part.hasCause b = (f s.part).hasCause b := by
  have := (f s.part).settle_keepsCause.1 b h
  simpa [Part.hasCause] using this

/-- An event after which the ladder is neither in STARTING nor in HELD-SERVICE leaves the ladder controller and the frame engine as its
own work does. -/
theorem State.act_keepsLine (s : State) (f : Part → Part) (h : (f s.part).ladder.state ≠ .starting)
    (h' : (f s.part).ladder.state ≠ .heldService) : (s.act f).part.KeepsLine (f s.part) := by
  have := (f s.part).settle_keepsLine h h'
  simpa [Part.KeepsLine] using this

/-- What an event's own work leaves of everything that no step of `settle` changes stands after the event. -/
theorem State.act_keeps (s : State) (f : Part → Part) : (s.act f).part.Keeps (f s.part) := by
  have := (f s.part).settle_keeps
  simpa [Part.Keeps] using this

end Sys2Proof.Machine
end

