-- ==== Sys2Proof/Laws/Appends.lean ====
section
/-! SUPPORT. What `settle` does to the request list: it puts accesses at the end and takes none away, so that an access an event's own
work has put on the list is on it after the event. -/

namespace Sys2Proof.Machine

/-- The request list of `q` is that of `p` with accesses added at its end. -/
abbrev Part.Extends (q p : Part) : Prop := p.bus <+: q.bus

theorem Part.Extends.rfl {p : Part} : p.Extends p := List.prefix_refl _

theorem Part.Extends.of_bus {p q r : Part} (h : q.Extends r) (e : r.bus = p.bus) : q.Extends p := by
  unfold Part.Extends at *; rwa [e] at h

variable (p : Part)

@[simp] theorem Part.startAnswer_extends : (p.startAnswer).Extends p := by
  unfold Part.startAnswer Part.writeAnswer Part.readWithdraw; dsimp only; (repeat' split) <;> simp [Part.Extends]
@[simp] theorem Part.readyAnswer_extends (a : AnswerFor) : (p.readyAnswer a).Extends p := by
  have := Part.startAnswer_extends { p with parcels := { p.parcels with answers := p.parcels.answers ++ [a] } }
  simpa only [Part.readyAnswer] using this
@[simp] theorem Part.scanTrigger_extends : (p.scanTrigger).Extends p := by
  unfold Part.scanTrigger Part.readTotal; dsimp only; (repeat' split) <;> simp [Part.Extends]
@[simp] theorem Part.retryAnswers_extends : (p.retryAnswers).Extends p := by
  unfold Part.retryAnswers; dsimp only; split
  · exact .rfl
  · exact foldl_relates Part.Extends .rfl (fun h k => List.IsPrefix.trans k h) _ (fun _ _ => by simp) _ _
@[simp] theorem Part.queueStatus_extends (i : NodeIx) (cause : Bool) : (p.queueStatus i cause).Extends p := by
  unfold Part.queueStatus Part.startStatus Part.issueStatus; dsimp only; (repeat' split) <;> simp [Part.Extends]
@[simp] theorem Part.writeOwed_extends : (p.writeOwed).Extends p := by
  unfold Part.writeOwed
  exact foldl_relates Part.Extends .rfl (fun h k => List.IsPrefix.trans k h) _ (fun _ _ => by simp) _ _
@[simp] theorem Part.startAppend_extends : (p.startAppend).Extends p := by
  unfold Part.startAppend; split <;> simp [Part.Extends]
@[simp] theorem Part.requestTaken_extends (onFetch : Bool) : (p.requestTaken onFetch).Extends p := by
  unfold Part.requestTaken; split <;> simp [Part.Extends]
@[simp] theorem Part.checkAt_extends (c : Check) : (p.checkAt c).Extends p := by
  unfold Part.checkAt; split <;> simp [Part.Extends]
@[simp] theorem Part.beginCheck_extends (origin : CheckFrom) : (p.beginCheck origin).Extends p := by
  exact Part.checkAt_extends _ _
@[simp] theorem Part.snapshotAt_extends (s : Snapshot) : (p.snapshotAt s).Extends p := by
  simp [Part.Extends, Part.snapshotAt]
@[simp] theorem Part.beginSnapshot_extends : (p.beginSnapshot).Extends p := by
  unfold Part.beginSnapshot; exact (Part.snapshotAt_extends _ _).of_bus (by simp)
theorem Part.settleNodeOpen_extends : (p.settleNodeOpen).Extends p := by
  unfold Part.settleNodeOpen; dsimp only; (repeat' split) <;> first | exact p.writeOwed_extends | exact .rfl
theorem Part.settleCheck_extends : (p.settleCheck).Extends p := by
  unfold Part.settleCheck; (repeat' split) <;>
    first | exact .rfl | exact (Part.checkAt_extends _ _).of_bus (by simp)
theorem Part.settleStartup_extends : (p.settleStartup).Extends p := by
  unfold Part.settleStartup; (repeat' split) <;> simp [Part.Extends, Part.startupRead, Part.startupFail]
theorem Part.openRewrites_extends : (p.openRewrites).Extends p := by
  unfold Part.openRewrites; split
  · exact p.retryAnswers_extends
  · exact .rfl
theorem Part.openPatience_extends : (p.openPatience).Extends p := by
  unfold Part.openPatience; split <;> exact .rfl
theorem Part.openScan_extends : (p.openScan).Extends p := by
  unfold Part.openScan; split
  · exact (Part.scanTrigger_extends _).of_bus (Part.modSched_bus _ _)
  · exact .rfl
theorem Part.settleParcelOpen_extends : (p.settleParcelOpen).Extends p := by
  unfold Part.settleParcelOpen; split
  · exact (p.openRewrites_extends.trans (Part.openPatience_extends _)).trans (Part.openScan_extends _)
  · exact .rfl
theorem Part.settleSnapshot_extends : (p.settleSnapshot).Extends p := by
  unfold Part.settleSnapshot Part.triggerSnapshot; (repeat' split) <;>
    first | exact .rfl | exact (Part.beginSnapshot_extends _).of_bus (Part.modFaults_bus _ _)
theorem Part.serviceName_extends (i : NodeIx) : (p.serviceName i).Extends p := by
  unfold Part.serviceName Part.serveNode Part.giveFetch Part.nameNode; dsimp only; split
  · simp [Part.Extends]
  · exact (Part.requestTaken_extends _ _).of_bus (Part.modLadder_bus _ _)
theorem Part.endService_extends : (p.endService).Extends p := by
  unfold Part.endService; dsimp only; split
  · exact (Part.beginCheck_extends _ _).of_bus (by simp)
  · exact .rfl
theorem Part.serviceNext_extends : (p.serviceNext).Extends p := by
  have hn : p.newRound.bus = p.bus := rfl
  unfold Part.serviceNext
  split
  · exact p.endService_extends
  split
  · exact p.serviceName_extends _
  split
  · exact p.endService_extends
  split
  · dsimp only
    split
    · exact (p.newRound.serviceName_extends _).of_bus hn
    · exact (p.newRound.endService_extends).of_bus hn
  · exact .rfl
theorem Part.settleService_extends : (p.settleService).Extends p := by
  unfold Part.settleService
  split
  · split
    · exact p.endService_extends
    · split
      · exact (Part.serviceNext_extends _).of_bus (Part.modLadder_bus _ _)
      · exact .rfl
  · exact .rfl

/-- `settle` puts accesses at the end of the request list, and takes none from it. -/
theorem Part.settle_extends : p.settle.Extends p :=
  p.settleNodeOpen_extends.trans <| (Part.settleCheck_extends _).trans <| (Part.settleStartup_extends _).trans <|
    (Part.settleParcelOpen_extends _).trans <| (Part.settleSnapshot_extends _).trans <| (Part.startAppend_extends _).trans <|
    Part.settleService_extends _

/-- An access that an event's own work leaves on the request list is on it after the event, or parked. -/
theorem State.act_issued (s : State) (f : Part → Part) {a : Access} (h : a ∈ (f s.part).bus) :
    a ∈ (s.act f).part.requested := by
  simp only [State.act]
  exact ((f s.part).settle.arbitrate_mem _ _).2 (List.mem_append_left _ ((f s.part).settle_extends.subset h))

/-- It is on the list where the line does not rest, and if it goes on at rest. -/
theorem State.act_admitted (s : State) (f : Part → Part) {a : Access} (h : a ∈ (f s.part).bus)
    (ha : (f s.part).settle.admits a = true) : a ∈ (s.act f).part.bus := by
  simp only [State.act]
  exact (f s.part).settle.arbitrate_admitted _ _ ha ((f s.part).settle_extends.subset h)

/-- So the part asks for it. -/
theorem State.act_asks (s : State) (f : Part → Part) {a : Access} (h : a ∈ (f s.part).bus) : (s.act f).part.asks a := by
  refine ⟨s.act_issued f h, fun k => s.act_admitted f h (Part.admits_of_running ?_ a)⟩
  simpa using k

end Sys2Proof.Machine
end

