-- ==== Sys2Proof/Laws/Choice.lean ====
section
/-! SUPPORT. What the choice of the next exchange leaves as it is: from the poll list to the close, it names an exchange or ends a phase,
and changes no record, cause or setting. -/

namespace Sys2Proof.Machine

/-- `q` has what `p` has of everything that the choice of the next exchange leaves. -/
abbrev Part.KeepsChoice (q p : Part) : Prop :=
  q.ladder = p.ladder ∧ q.loader = p.loader ∧ q.table = p.table ∧
  q.frames.toggles = p.frames.toggles ∧ q.frames.slot = p.frames.slot ∧
  q.sched.cycle = p.sched.cycle ∧ q.sched.timer = p.sched.timer ∧ q.sched.overrun = p.sched.overrun ∧
  q.sched.pollList = p.sched.pollList ∧
  q.sched.probeStart = p.sched.probeStart ∧ q.sched.passedOver = p.sched.passedOver ∧
  q.sched.nodeOpen = p.sched.nodeOpen ∧ q.sched.parcelOpen = p.sched.parcelOpen ∧
  q.faults.cause = p.faults.cause ∧ q.faults.capture = p.faults.capture ∧
  q.images.shadow = p.images.shadow ∧ q.images.inUse = p.images.inUse ∧
  q.images.lastPublished = p.images.lastPublished ∧ q.images.publishCount = p.images.publishCount ∧
  q.windows.strays = p.windows.strays ∧
  q.events.queue = p.events.queue ∧ q.events.written = p.events.written ∧ q.events.taken = p.events.taken ∧
  q.events.takenInvalid = p.events.takenInvalid ∧ q.events.appendStopped = p.events.appendStopped ∧
  q.events.appends = p.events.appends ∧ q.events.appending = p.events.appending ∧
  q.parcels.walk = p.parcels.walk ∧ q.parcels.answers = p.parcels.answers ∧ q.parcels.answering = p.parcels.answering ∧
  ∀ k : Fin 24, 3 ≠ k → 9 ≠ k → 16 ≠ k → q.faults.counters.get k = p.faults.counters.get k

theorem Part.KeepsChoice.rfl {p : Part} : p.KeepsChoice p := by simp [Part.KeepsChoice]

theorem Part.KeepsChoice.trans {p q r : Part} (h : r.KeepsChoice q) (k : q.KeepsChoice p) : r.KeepsChoice p := by
  simp +contextual [Part.KeepsChoice] at *
  simp_all

variable (p : Part)

@[simp] theorem Part.issueSlice_keepsChoice (bank : Bank) (e : NodeEntry) (done : Nat) : (p.issueSlice bank e done).KeepsChoice p := by
  simp [Part.issueSlice, Part.KeepsChoice]
@[simp] theorem Part.beginClose_keepsChoice : (p.beginClose).KeepsChoice p := by
  simp [Part.beginClose, Part.KeepsChoice]
@[simp] theorem Part.readWithdraw_keepsChoice (source : Source) (slot : SlotIx) : (p.readWithdraw source slot).KeepsChoice p := by
  simp [Part.readWithdraw, Part.KeepsChoice]
@[simp] theorem Part.newRound_keepsChoice : (p.newRound).KeepsChoice p := by
  simp [Part.newRound, Part.KeepsChoice]
@[simp] theorem Part.nameNode_keepsChoice (i : NodeIx) : (p.nameNode i).KeepsChoice p := by
  simp [Part.nameNode, Part.KeepsChoice]
@[simp] theorem Part.requestTaken_keepsChoice (onFetch : Bool) : (p.requestTaken onFetch).KeepsChoice p := by
  unfold Part.requestTaken; split <;> simp [Part.KeepsChoice]
@[simp] theorem Part.openWindow_keepsChoice : (p.openWindow).KeepsChoice p := by
  simp [Part.openWindow, Part.KeepsChoice]
@[simp] theorem Part.windowNotFitted_keepsChoice (fault : Bool) : (p.windowNotFitted fault).KeepsChoice p := by
  unfold Part.windowNotFitted; split <;> simp [Part.KeepsChoice]
@[simp] theorem Part.enterClosing_keepsChoice : (p.enterClosing).KeepsChoice p := by
  unfold Part.enterClosing; (repeat' split) <;> simp_all [Part.KeepsChoice]
@[simp] theorem Part.nameExchange_keepsChoice (e : Parcel) (bt : Nat) (f : Parcel → Parcel) (ex : Exchange) (frame : List Byte) : (p.nameExchange e bt f ex frame).KeepsChoice p := by
  unfold Part.nameExchange; (repeat' split) <;> simp_all [Part.KeepsChoice]
@[simp] theorem Part.nameSeg_keepsChoice (e : Parcel) : (p.nameSeg e).KeepsChoice p := by
  unfold Part.nameSeg; (repeat' split) <;> simp_all [Part.KeepsChoice]
@[simp] theorem Part.nameNext_keepsChoice (e : Parcel) (n : Nat) : (p.nameNext e n).KeepsChoice p := by
  unfold Part.nameNext; (repeat' split) <;> simp_all [Part.KeepsChoice]
@[simp] theorem Part.nameAbandon_keepsChoice (e : Parcel) : (p.nameAbandon e).KeepsChoice p := by
  unfold Part.nameAbandon; (repeat' split) <;> simp_all [Part.KeepsChoice]
@[simp] theorem Part.serveParcel_keepsChoice (e : Parcel) : (p.serveParcel e).KeepsChoice p := by
  unfold Part.serveParcel; (repeat' split) <;> simp_all [Part.KeepsChoice]
@[simp] theorem Part.newPass_keepsChoice : (p.newPass).KeepsChoice p := by
  simp [Part.newPass, Part.KeepsChoice]
@[simp] theorem Part.parcelNext_keepsChoice : (p.parcelNext).KeepsChoice p := by
  simp only [Part.parcelNext]; (repeat' split) <;> simp +contextual [Part.KeepsChoice, Counter.index]
@[simp] theorem Part.parcelPhase_keepsChoice : (p.parcelPhase).KeepsChoice p := by
  unfold Part.parcelPhase; (repeat' split) <;> simp_all [Part.KeepsChoice]
@[simp] theorem Part.giveFetch_keepsChoice (i : NodeIx) : (p.giveFetch i).KeepsChoice p := by
  simp [Part.giveFetch, Part.KeepsChoice]
@[simp] theorem Part.beginFetch_keepsChoice (i : NodeIx) : (p.beginFetch i).KeepsChoice p := by
  simp only [Part.beginFetch]; (repeat' split) <;> simp +contextual [Part.KeepsChoice, Counter.index]
@[simp] theorem Part.fetchNext_keepsChoice : (p.fetchNext).KeepsChoice p := by
  unfold Part.fetchNext; (repeat' split) <;> simp_all [Part.KeepsChoice]
@[simp] theorem Part.fetchPhase_keepsChoice : (p.fetchPhase).KeepsChoice p := by
  unfold Part.fetchPhase; (repeat' split) <;> simp_all [Part.KeepsChoice]
@[simp] theorem Part.windowPhase_keepsChoice : (p.windowPhase).KeepsChoice p := by
  unfold Part.windowPhase; (repeat' split) <;> simp_all [Part.KeepsChoice]
@[simp] theorem Part.givePoll_keepsChoice (i : NodeIx) (ack : Option Byte) (slice : List Byte) : (p.givePoll i ack slice).KeepsChoice p := by
  simp +contextual [Part.givePoll, Part.KeepsChoice, Counter.index]
@[simp] theorem Part.pollAttempt_keepsChoice (i : NodeIx) : (p.pollAttempt i).KeepsChoice p := by
  simp only [Part.pollAttempt]; (repeat' split) <;> simp +contextual [Part.KeepsChoice, Counter.index]

/-! The fetch and parcel phases leave the window unit alone. -/

@[simp] theorem Part.issueSlice_windows (bank : Bank) (e : NodeEntry) (done : Nat) :
    (p.issueSlice bank e done).windows = p.windows := by
  simp [Part.issueSlice]
@[simp] theorem Part.beginClose_windows : (p.beginClose).windows = p.windows := by
  simp [Part.beginClose]
@[simp] theorem Part.readWithdraw_windows (source : Source) (slot : SlotIx) :
    (p.readWithdraw source slot).windows = p.windows := by
  simp [Part.readWithdraw]
@[simp] theorem Part.newRound_windows : (p.newRound).windows = p.windows := by
  simp [Part.newRound]
@[simp] theorem Part.nameNode_windows (i : NodeIx) : (p.nameNode i).windows = p.windows := by
  simp [Part.nameNode]
@[simp] theorem Part.requestTaken_windows (onFetch : Bool) : (p.requestTaken onFetch).windows = p.windows := by
  unfold Part.requestTaken; split <;> simp
@[simp] theorem Part.enterClosing_windows : (p.enterClosing).windows = p.windows := by
  simp [Part.enterClosing]
@[simp] theorem Part.nameExchange_windows (e : Parcel) (bt : Nat) (f : Parcel → Parcel) (ex : Exchange) (frame : List Byte) :
    (p.nameExchange e bt f ex frame).windows = p.windows := by
  unfold Part.nameExchange; split <;> simp
@[simp] theorem Part.nameSeg_windows (e : Parcel) : (p.nameSeg e).windows = p.windows := by
  simp [Part.nameSeg]
@[simp] theorem Part.nameNext_windows (e : Parcel) (n : Nat) : (p.nameNext e n).windows = p.windows := by
  simp [Part.nameNext]
@[simp] theorem Part.nameAbandon_windows (e : Parcel) : (p.nameAbandon e).windows = p.windows := by
  simp [Part.nameAbandon]
@[simp] theorem Part.serveParcel_windows (e : Parcel) : (p.serveParcel e).windows = p.windows := by
  unfold Part.serveParcel; split <;> simp
@[simp] theorem Part.newPass_windows : (p.newPass).windows = p.windows := by
  simp [Part.newPass]
@[simp] theorem Part.parcelNext_windows : (p.parcelNext).windows = p.windows := by
  unfold Part.parcelNext; dsimp only; (repeat' split) <;> simp
@[simp] theorem Part.parcelPhase_windows : (p.parcelPhase).windows = p.windows := by
  simp [Part.parcelPhase]
@[simp] theorem Part.giveFetch_windows (i : NodeIx) : (p.giveFetch i).windows = p.windows := by
  simp [Part.giveFetch]
@[simp] theorem Part.beginFetch_windows (i : NodeIx) : (p.beginFetch i).windows = p.windows := by
  unfold Part.beginFetch; dsimp only; (repeat' split) <;> simp
@[simp] theorem Part.fetchNext_windows : (p.fetchNext).windows = p.windows := by
  unfold Part.fetchNext; (repeat' split) <;> simp
@[simp] theorem Part.fetchPhase_windows : (p.fetchPhase).windows = p.windows := by
  simp [Part.fetchPhase]
@[simp] theorem Part.givePoll_windows (i : NodeIx) (ack : Option Byte) (slice : List Byte) :
    (p.givePoll i ack slice).windows = p.windows := by
  simp [Part.givePoll]
@[simp] theorem Part.pollAttempt_windows (i : NodeIx) : (p.pollAttempt i).windows = p.windows := by
  unfold Part.pollAttempt; dsimp only; (repeat' split) <;> simp

/-- The next entry of the poll list, besides the list, changes only its node's poll total and toggle (R34, R35). -/
abbrev Part.KeepsPoll (q p : Part) : Prop :=
  q.ladder = p.ladder ∧ q.loader = p.loader ∧ (∀ i, q.node i = { p.node i with pollTotal := (q.node i).pollTotal }) ∧
  q.frames.slot = p.frames.slot ∧
  q.sched.cycle = p.sched.cycle ∧ q.sched.timer = p.sched.timer ∧ q.sched.overrun = p.sched.overrun ∧
  q.sched.probeStart = p.sched.probeStart ∧ q.sched.passedOver = p.sched.passedOver ∧
  q.sched.nodeOpen = p.sched.nodeOpen ∧ q.sched.parcelOpen = p.sched.parcelOpen ∧
  q.faults.cause = p.faults.cause ∧ q.faults.capture = p.faults.capture ∧
  q.images.shadow = p.images.shadow ∧ q.images.inUse = p.images.inUse ∧
  q.images.lastPublished = p.images.lastPublished ∧ q.images.publishCount = p.images.publishCount ∧
  q.windows.strays = p.windows.strays ∧
  q.events.queue = p.events.queue ∧ q.events.written = p.events.written ∧ q.events.taken = p.events.taken ∧
  q.events.takenInvalid = p.events.takenInvalid ∧ q.events.appendStopped = p.events.appendStopped ∧
  q.events.appends = p.events.appends ∧ q.events.appending = p.events.appending ∧
  ∀ k : Fin 24, 3 ≠ k → 9 ≠ k → 16 ≠ k → q.faults.counters.get k = p.faults.counters.get k

theorem Part.pollNext_keepsPoll : p.pollNext.KeepsPoll p := by
  unfold Part.pollNext
  split
  · simp +contextual [Part.KeepsPoll, Part.node]
  · simp +contextual [Part.KeepsPoll, Part.node]
    intro i; split <;> rfl
  · simp +contextual [Part.KeepsPoll, Part.node, Counter.index]

end Sys2Proof.Machine
end

