-- ==== Sys2Proof/Laws/Hold.lean ====
section
/-! SUPPORT. The fault hold, once it stands, is ended by no operation but the clearing of CAUSE.FAULT and the resets (R158): one lemma
per operation of the ladder controller and of the bus-master engine's completions. -/

namespace Sys2Proof.Machine

variable (p : Part)

@[simp] theorem Part.report_holds (h : p.ladder.faultHold = true) (code : FaultCode) (d : Half) :
    (p.report code d).ladder.faultHold = true := by
  unfold Part.report Part.noteMemoryError
  split <;> simp [h]

@[simp] theorem Part.writeState_holds (h : p.ladder.faultHold = true) (state : LadderState) :
    (p.writeState state).ladder.faultHold = true := by
  simp [Part.writeState, h]
@[simp] theorem Part.enterRun_holds (h : p.ladder.faultHold = true) : (p.enterRun).ladder.faultHold = true := by
  simp [Part.enterRun, h]
@[simp] theorem Part.enterHeld_holds (h : p.ladder.faultHold = true) (named : Bool) :
    (p.enterHeld named).ladder.faultHold = true := by
  simp [Part.enterHeld, h]
@[simp] theorem Part.enterResting_holds (h : p.ladder.faultHold = true) : (p.enterResting).ladder.faultHold = true := by
  simp [Part.enterResting, h]
@[simp] theorem Part.enterRousing_holds (h : p.ladder.faultHold = true) : (p.enterRousing).ladder.faultHold = true := by
  simp [Part.enterRousing, h]
@[simp] theorem Part.beginStill_holds (h : p.ladder.faultHold = true) : (p.beginStill).ladder.faultHold = true := by
  simp [Part.beginStill, h]
@[simp] theorem Part.enterSettling_holds (h : p.ladder.faultHold = true) : (p.enterSettling).ladder.faultHold = true := by
  simp [Part.enterSettling, h]
@[simp] theorem Part.startupFail_holds (h : p.ladder.faultHold = true) : (p.startupFail).ladder.faultHold = true := by
  simp [Part.startupFail, h]
@[simp] theorem Part.startupRead_holds (h : p.ladder.faultHold = true) (s : Startup) (pos : StartPos) (offset : Nat) :
    (p.startupRead s pos offset).ladder.faultHold = true := by
  simp [Part.startupRead, h]
@[simp] theorem Part.startupWrite_holds (h : p.ladder.faultHold = true) (s : Startup) (pos : StartPos) (offset : Nat) (w : Word) :
    (p.startupWrite s pos offset w).ladder.faultHold = true := by
  simp [Part.startupWrite, h]
@[simp] theorem Part.resetWorkingUnits_holds (h : p.ladder.faultHold = true) :
    (p.resetWorkingUnits).ladder.faultHold = true := by
  simp [Part.resetWorkingUnits, h]
@[simp] theorem Part.enterStarting_holds (h : p.ladder.faultHold = true) (area : Word) (r : Request) :
    (p.enterStarting area r).ladder.faultHold = true := by
  unfold Part.enterStarting; split <;> simp [h]
@[simp] theorem Part.startupFinal_holds (h : p.ladder.faultHold = true) (s : Startup) :
    (p.startupFinal s).ladder.faultHold = true := by
  simp [Part.startupFinal, h]
@[simp] theorem Part.sweepNext_holds (h : p.ladder.faultHold = true) (s : Startup) (slot : SlotIx) :
    (p.sweepNext s slot).ladder.faultHold = true := by
  unfold Part.sweepNext; (repeat' split) <;> simp [h]
@[simp] theorem Part.startupDone_holds (h : p.ladder.faultHold = true) (w : Word) :
    (p.startupDone w).ladder.faultHold = true := by
  unfold Part.startupDone
  extract_lets q im pa r target u
  have hu : u.ladder.faultHold = true := by
    simp only [u]
    split <;> simp [r, q, h]
  split <;> simp [hu]
theorem Part.keepStatusWord_holds (h : p.ladder.faultHold = true) (s : Startup) (i : NodeIx) (k : Nat) (w : Word) :
    (p.keepStatusWord s i k w).1.ladder.faultHold = true := by
  unfold Part.keepStatusWord; (repeat' split) <;> simp [h]
@[simp] theorem Part.startupStep_holds (h : p.ladder.faultHold = true) (w : Word) :
    (p.startupStep w).ladder.faultHold = true := by
  unfold Part.startupStep
  split
  · exact h
  · split
    case h_7 i k _ =>
      rename_i s _ _ _
      have hk := p.keepStatusWord_holds h s i k.val w
      revert hk
      generalize p.keepStatusWord s i k.val w = q
      intro hk
      dsimp only
      (repeat' split) <;> simp [hk]
    all_goals
      (repeat' split) <;> simp [h]
@[simp] theorem Part.settleStartup_holds (h : p.ladder.faultHold = true) : (p.settleStartup).ladder.faultHold = true := by
  unfold Part.settleStartup; (repeat' split) <;> simp [h]
@[simp] theorem Part.skipRequest_holds (h : p.ladder.faultHold = true) (r : Request) :
    (p.skipRequest r).ladder.faultHold = true := by
  simp [Part.skipRequest, h]
@[simp] theorem Part.emptySlot_holds (h : p.ladder.faultHold = true) : (p.emptySlot).ladder.faultHold = true := by
  simp [Part.emptySlot, h]
@[simp] theorem Part.keepPending_holds (h : p.ladder.faultHold = true) (r : Request) :
    (p.keepPending r).ladder.faultHold = true := by
  simp [Part.keepPending, h]
@[simp] theorem Part.takeRequest_holds (h : p.ladder.faultHold = true) (area : Word) (r : Request) :
    (p.takeRequest area r).ladder.faultHold = true := by
  unfold Part.takeRequest; dsimp only; (repeat' split) <;> simp (maxDischargeDepth := 12) [h]
@[simp] theorem Part.requestWritten_holds (h : p.ladder.faultHold = true) (area : Word) (r : Request) :
    (p.requestWritten area r).ladder.faultHold = true := by
  unfold Part.requestWritten; split <;> simp [h]
@[simp] theorem Part.takePending_holds (h : p.ladder.faultHold = true) (area : Word) :
    (p.takePending area).ladder.faultHold = true := by
  unfold Part.takePending; (repeat' split) <;> simp [h]
@[simp] theorem Part.judgeInRun_holds (h : p.ladder.faultHold = true) : (p.judgeInRun).ladder.faultHold = true := by
  unfold Part.judgeInRun; split <;> simp [h]
@[simp] theorem Part.leaveRun_holds (h : p.ladder.faultHold = true) (named : Bool) :
    (p.leaveRun named).ladder.faultHold = true := by
  simp [Part.leaveRun, h]
@[simp] theorem Part.closeComplete_holds (h : p.ladder.faultHold = true) : (p.closeComplete).ladder.faultHold = true := by
  unfold Part.closeComplete; (repeat' split) <;> simp [h]
@[simp] theorem Part.holdCheckStopped_holds (h : p.ladder.faultHold = true) : (p.holdCheckStopped).ladder.faultHold = true := by
  unfold Part.holdCheckStopped; split <;> simp [h]
@[simp] theorem Part.endService_holds (h : p.ladder.faultHold = true) : (p.endService).ladder.faultHold = true := by
  unfold Part.endService; dsimp only; (repeat' split) <;> simp [h]
@[simp] theorem Part.serveNode_holds (h : p.ladder.faultHold = true) (i : NodeIx) :
    (p.serveNode i).ladder.faultHold = true := by
  simp [Part.serveNode, h]
@[simp] theorem Part.serviceName_holds (h : p.ladder.faultHold = true) (i : NodeIx) :
    (p.serviceName i).ladder.faultHold = true := by
  unfold Part.serviceName; split <;> simp [h]
@[simp] theorem Part.serviceNext_holds (h : p.ladder.faultHold = true) : (p.serviceNext).ladder.faultHold = true := by
  simp [Part.serviceNext, h]
@[simp] theorem Part.enterService_holds (h : p.ladder.faultHold = true) : (p.enterService).ladder.faultHold = true := by
  simp [Part.enterService, h]
@[simp] theorem Part.serviceAfterRead_holds (h : p.ladder.faultHold = true) : (p.serviceAfterRead).ladder.faultHold = true := by
  unfold Part.serviceAfterRead; dsimp only; (repeat' split) <;> simp [h]
@[simp] theorem Part.serviceOutcome_holds (h : p.ladder.faultHold = true) (ex : Exchange) (reply : Option Frame) :
    (p.serviceOutcome ex reply).ladder.faultHold = true := by
  unfold Part.serviceOutcome; (repeat' split) <;> simp [h]
@[simp] theorem Part.settleService_holds (h : p.ladder.faultHold = true) : (p.settleService).ladder.faultHold = true := by
  unfold Part.settleService; split <;> simp [h]
@[simp] theorem Part.nudge_holds (h : p.ladder.faultHold = true) : (p.nudge).ladder.faultHold = true := by
  unfold Part.nudge; (repeat' split) <;> simp [h]
@[simp] theorem Part.takeAlert_holds (h : p.ladder.faultHold = true) (address : Byte) :
    (p.takeAlert address).ladder.faultHold = true := by
  unfold Part.takeAlert; dsimp only; (repeat' split) <;> simp [h]
@[simp] theorem Part.unsolicitedFrame_holds (h : p.ladder.faultHold = true) (frame : Option Frame) :
    (p.unsolicitedFrame frame).ladder.faultHold = true := by
  unfold Part.unsolicitedFrame; (repeat' split) <;> simp [h]
@[simp] theorem Part.unsolicitedItems_holds (h : p.ladder.faultHold = true) (items : List LineItem) :
    (p.unsolicitedItems items).ladder.faultHold = true := by
  have : ∀ (l : List (Option Frame)) (q : Part), q.ladder.faultHold = true →
      (l.foldl Part.unsolicitedFrame q).ladder.faultHold = true := by
    intro l; induction l with
    | nil => exact fun q k => k
    | cons f l ih => exact fun q k => ih _ (q.unsolicitedFrame_holds k f)
  simpa [Part.unsolicitedItems] using this _ p h
@[simp] theorem Part.lineActivity_holds (h : p.ladder.faultHold = true) : (p.lineActivity).ladder.faultHold = true := by
  unfold Part.lineActivity; split <;> simp [h]
@[simp] theorem Part.holdFrameSent_holds (h : p.ladder.faultHold = true) (area : Word) :
    (p.holdFrameSent area).ladder.faultHold = true := by
  unfold Part.holdFrameSent; dsimp only; (repeat' split) <;> simp [h]
@[simp] theorem Part.restFrameSent_holds (h : p.ladder.faultHold = true) (area : Word) :
    (p.restFrameSent area).ladder.faultHold = true := by
  simp [Part.restFrameSent, h]
@[simp] theorem Part.rouseFrameSent_holds (h : p.ladder.faultHold = true) : (p.rouseFrameSent).ladder.faultHold = true := by
  simp [Part.rouseFrameSent, h]
@[simp] theorem Part.rouseExpired_holds (h : p.ladder.faultHold = true) : (p.rouseExpired).ladder.faultHold = true := by
  simp [Part.rouseExpired, h]
@[simp] theorem Part.settleExpired_holds (h : p.ladder.faultHold = true) (area : Word) :
    (p.settleExpired area).ladder.faultHold = true := by
  simp [Part.settleExpired, h]
@[simp] theorem Part.enterStill_holds (h : p.ladder.faultHold = true) :
    (p.enterStill).ladder.faultHold = true := by
  simp [Part.enterStill, h]
@[simp] theorem Part.stateWordEnded_holds (h : p.ladder.faultHold = true) :
    (p.stateWordEnded).ladder.faultHold = true := by
  unfold Part.stateWordEnded; split <;> simp [h]
@[simp] theorem Part.settle_holds (h : p.ladder.faultHold = true) : (p.settle).ladder.faultHold = true := by
  simp [Part.settle, h]
@[simp] theorem Part.afterTaken_holds (h : p.ladder.faultHold = true) : (p.afterTaken).ladder.faultHold = true := by
  unfold Part.afterTaken; (repeat' split) <;> simp [h]
@[simp] theorem Part.takenEnded_holds (h : p.ladder.faultHold = true) (w : Word) :
    (p.takenEnded w).ladder.faultHold = true := by
  unfold Part.takenEnded; dsimp only; (repeat' split) <;> simp [h]
@[simp] theorem Part.withdrawEnded_holds (h : p.ladder.faultHold = true) (w : Word) :
    (p.withdrawEnded w).ladder.faultHold = true := by
  unfold Part.withdrawEnded; split <;> simp [h]
@[simp] theorem Part.accessDone_holds (h : p.ladder.faultHold = true) (source : Source) (w : Word) :
    (p.accessDone source w).ladder.faultHold = true := by
  unfold Part.accessDone; (repeat' split) <;> simp [h]
@[simp] theorem Part.blockFailed_holds (h : p.ladder.faultHold = true) (source : Source) :
    (p.blockFailed source).ladder.faultHold = true := by
  unfold Part.blockFailed; (repeat' split) <;> simp [h]
@[simp] theorem Part.accessFailed_holds (h : p.ladder.faultHold = true) (a : Access) :
    (p.accessFailed a).ladder.faultHold = true := by
  unfold Part.accessFailed; dsimp only; (repeat' split) <;> simp (maxDischargeDepth := 12) [h]
@[simp] theorem Part.returnOutcome_holds (h : p.ladder.faultHold = true) : (p.returnOutcome).ladder.faultHold = true := by
  unfold Part.returnOutcome; dsimp only; (repeat' split) <;> simp [h]
@[simp] theorem Part.carrier_holds (h : p.ladder.faultHold = true) (items : List LineItem) :
    (p.carrier items).ladder.faultHold = true := by
  unfold Part.carrier; (repeat' split) <;> simp [h]

end Sys2Proof.Machine
end

