-- ==== Sys2Proof/Laws/Moves.lean ====
section
/-! SUPPORT. What a node's state change does (R5), and what the event and parcel units' work on it leaves as it is. -/

namespace Sys2Proof.Machine

/-- `q` has the records, the images and the line of `p`. -/
abbrev Part.KeepsUnits (q p : Part) : Prop :=
  q.table.records = p.table.records ∧ q.frames = p.frames ∧ q.sched = p.sched ∧ q.images = p.images ∧
  q.windows = p.windows ∧ q.loader = p.loader ∧ q.ladder = p.ladder ∧ q.faults = p.faults

theorem Part.KeepsUnits.rfl {p : Part} : p.KeepsUnits p := by simp [Part.KeepsUnits]

theorem Part.KeepsUnits.trans {p q r : Part} (h : r.KeepsUnits q) (k : q.KeepsUnits p) : r.KeepsUnits p := by
  simp_all [Part.KeepsUnits]

variable (p : Part)

@[simp] theorem Part.writeAnswer_keepsUnits (writes : List (Nat × Word)) : (p.writeAnswer writes).KeepsUnits p := by
  unfold Part.writeAnswer; split <;> simp [Part.KeepsUnits]
@[simp] theorem Part.readWithdraw_keepsUnits (source : Source) (slot : SlotIx) : (p.readWithdraw source slot).KeepsUnits p := by
  simp [Part.readWithdraw, Part.KeepsUnits]
@[simp] theorem Part.startAnswer_keepsUnits : (p.startAnswer).KeepsUnits p := by
  unfold Part.startAnswer; (repeat' split) <;> simp [Part.KeepsUnits]
@[simp] theorem Part.readyAnswer_keepsUnits (a : AnswerFor) : (p.readyAnswer a).KeepsUnits p := by
  simp [Part.readyAnswer, Part.KeepsUnits]
@[simp] theorem Part.nextAnswer_keepsUnits : (p.nextAnswer).KeepsUnits p := by
  simp [Part.nextAnswer, Part.KeepsUnits]
@[simp] theorem Part.freeParcel_keepsUnits (slot : SlotIx) : (p.freeParcel slot).KeepsUnits p := by
  simp [Part.freeParcel, Part.KeepsUnits]
@[simp] theorem Part.finishParcel_keepsUnits (slot : SlotIx) (outcome : ParcelOutcome) (status : Byte) : (p.finishParcel slot outcome status).KeepsUnits p := by
  simp [Part.finishParcel, Part.KeepsUnits]
@[simp] theorem Part.abandonParcel_keepsUnits (slot : SlotIx) (outcome : ParcelOutcome) : (p.abandonParcel slot outcome).KeepsUnits p := by
  simp [Part.abandonParcel, Part.KeepsUnits]
@[simp] theorem Part.abandonDone_keepsUnits (slot : SlotIx) : (p.abandonDone slot).KeepsUnits p := by
  simp [Part.abandonDone, Part.KeepsUnits]
@[simp] theorem Part.parcelAtChange_keepsUnits (new : NodeState) (e : Parcel) : (p.parcelAtChange new e).KeepsUnits p := by
  unfold Part.parcelAtChange; (repeat' split) <;> simp [Part.KeepsUnits]
@[simp] theorem Part.parcelNodeChange_keepsUnits (i : NodeIx) (new : NodeState) : (p.parcelNodeChange i new).KeepsUnits p := by
  unfold Part.parcelNodeChange
  exact foldl_relates Part.KeepsUnits Part.KeepsUnits.rfl (fun h k => h.trans k) _ (fun _ _ => by simp [Part.KeepsUnits]) _ _
@[simp] theorem Part.parcelCommit_keepsUnits (new : Vector NodeEntry 48) : (p.parcelCommit new).KeepsUnits p := by
  unfold Part.parcelCommit; dsimp only
  exact foldl_relates Part.KeepsUnits Part.KeepsUnits.rfl (fun h k => h.trans k) _ (fun _ _ => by (repeat' split) <;> simp [Part.KeepsUnits]) _ _
@[simp] theorem Part.readTotal_keepsUnits : (p.readTotal).KeepsUnits p := by
  simp [Part.readTotal, Part.KeepsUnits]
@[simp] theorem Part.scanTrigger_keepsUnits : (p.scanTrigger).KeepsUnits p := by
  unfold Part.scanTrigger; (repeat' split) <;> simp [Part.KeepsUnits]
@[simp] theorem Part.retryAnswers_keepsUnits : (p.retryAnswers).KeepsUnits p := by
  unfold Part.retryAnswers; dsimp only; split
  · exact Part.KeepsUnits.rfl
  · exact foldl_relates Part.KeepsUnits Part.KeepsUnits.rfl (fun h k => h.trans k) _ (fun _ _ => by simp [Part.KeepsUnits]) _ _
@[simp] theorem Part.lowerPatience_keepsUnits : (p.lowerPatience).KeepsUnits p := by
  simp [Part.lowerPatience, Part.KeepsUnits]
@[simp] theorem Part.issueStatus_keepsUnits (i : NodeIx) (k : Fin 4) : (p.issueStatus i k).KeepsUnits p := by
  simp [Part.issueStatus, Part.KeepsUnits]
@[simp] theorem Part.startStatus_keepsUnits : (p.startStatus).KeepsUnits p := by
  unfold Part.startStatus; split <;> simp [Part.KeepsUnits]
@[simp] theorem Part.queueStatus_keepsUnits (i : NodeIx) (cause : Bool) : (p.queueStatus i cause).KeepsUnits p := by
  unfold Part.queueStatus; dsimp only; (repeat' split) <;> simp [Part.KeepsUnits]
@[simp] theorem Part.writeOwed_keepsUnits : (p.writeOwed).KeepsUnits p := by
  unfold Part.writeOwed
  exact foldl_relates Part.KeepsUnits Part.KeepsUnits.rfl (fun h k => h.trans k) _ (fun _ _ => by simp [Part.KeepsUnits]) _ _
@[simp] theorem Part.unqueue_keepsUnits (i : NodeIx) : (p.unqueue i).KeepsUnits p := by
  simp [Part.unqueue, Part.KeepsUnits]
@[simp] theorem Part.toTail_keepsUnits (i : NodeIx) : (p.toTail i).KeepsUnits p := by
  unfold Part.toTail; split <;> simp [Part.KeepsUnits]
@[simp] theorem Part.eventLeaves_keepsUnits (i : NodeIx) : (p.eventLeaves i).KeepsUnits p := by
  simp [Part.eventLeaves, Part.KeepsUnits]
@[simp] theorem Part.eventCleared_keepsUnits (i : NodeIx) : (p.eventCleared i).KeepsUnits p := by
  simp [Part.eventCleared, Part.KeepsUnits]
@[simp] theorem Part.voidNotes_keepsUnits : (p.voidNotes).KeepsUnits p := by
  simp [Part.voidNotes, Part.KeepsUnits]
@[simp] theorem Part.confirmAck_keepsUnits (i : NodeIx) (carried : Option Byte) : (p.confirmAck i carried).KeepsUnits p := by
  unfold Part.confirmAck; (repeat' split) <;> simp [Part.KeepsUnits]
@[simp] theorem Part.newRound_keepsUnits : (p.newRound).KeepsUnits p := by
  simp [Part.newRound, Part.KeepsUnits]
@[simp] theorem Part.nameNode_keepsUnits (i : NodeIx) : (p.nameNode i).KeepsUnits p := by
  simp [Part.nameNode, Part.KeepsUnits]
@[simp] theorem Part.startAppend_keepsUnits : (p.startAppend).KeepsUnits p := by
  unfold Part.startAppend; split <;> simp [Part.KeepsUnits]
@[simp] theorem Part.enqueueAppend_keepsUnits (what : AppendFor) (record : List Word) : (p.enqueueAppend what record).KeepsUnits p := by
  simp [Part.enqueueAppend, Part.KeepsUnits]
@[simp] theorem Part.nextAppend_keepsUnits : (p.nextAppend).KeepsUnits p := by
  simp [Part.nextAppend, Part.KeepsUnits]
@[simp] theorem Part.requestTaken_keepsUnits (onFetch : Bool) : (p.requestTaken onFetch).KeepsUnits p := by
  unfold Part.requestTaken; split <;> simp [Part.KeepsUnits]
@[simp] theorem Part.takeEvent_keepsUnits (i : NodeIx) (f : Frame) : (p.takeEvent i f).KeepsUnits p := by
  simp [Part.takeEvent, Part.KeepsUnits]

/-- A state change of node `i` moves its record and no other (R5). -/
theorem Part.moveNode_node (i j : NodeIx) (f : NodeRecord → NodeRecord) (new : NodeState) :
    (p.moveNode i f new).node j = if i = j then (p.node i).moved f new else p.node j := by
  unfold Part.moveNode Part.node
  dsimp only
  (repeat' split) <;> simp_all [Part.modNode]

/-- A state change leaves the images, the windows, the scheduler, the loader and the ladder controller, and sets no cause of its own: that
is the work of its status record's write (R5). -/
abbrev Part.KeepsMove (q p : Part) : Prop :=
  q.sched = p.sched ∧ q.windows = p.windows ∧ q.loader = p.loader ∧ q.ladder = p.ladder ∧
  q.faults = p.faults ∧
  q.frames.state = p.frames.state ∧ q.frames.exchange = p.frames.exchange ∧ q.frames.slot = p.frames.slot ∧
  q.frames.tx = p.frames.tx

theorem Part.moveNode_keeps (i : NodeIx) (f : NodeRecord → NodeRecord) (new : NodeState) :
    (p.moveNode i f new).images = p.images ∧ (p.moveNode i f new).KeepsMove p := by
  unfold Part.moveNode Part.KeepsMove
  dsimp only
  (repeat' split) <;> simp

@[simp] theorem Part.startStatus_writes : (p.startStatus).table.writes = p.table.writes := by
  unfold Part.startStatus; split <;> rfl
@[simp] theorem Part.queueStatus_writes (i : NodeIx) (cause : Bool) :
    (p.queueStatus i cause).table.writes = p.table.writes ++ [{ node := i, cause := cause }] := by
  unfold Part.queueStatus; dsimp only; split <;> simp

@[simp] theorem Part.applyLoss_node (e : NodeEntry) (size : Nat) (i : NodeIx) : (p.applyLoss e size).node i = p.node i := by
  unfold Part.applyLoss; split <;> rfl

/-- A state change of node `i` with its loss policy moves its record and no other. -/
theorem Part.changeState_node (i j : NodeIx) (f : NodeRecord → NodeRecord) (new : NodeState) :
    (p.changeState i f new).node j = if i = j then (p.node i).moved f new else p.node j := by
  unfold Part.changeState
  dsimp only
  split <;> simp [Part.moveNode_node]

theorem Part.applyLoss_keeps (e : NodeEntry) (size : Nat) : (p.applyLoss e size).KeepsMove p := by
  unfold Part.applyLoss Part.clearSlice Part.clearShadow Part.KeepsMove
  split <;> simp [Part.hasCause]

theorem Part.changeState_keeps (i : NodeIx) (f : NodeRecord → NodeRecord) (new : NodeState) :
    (p.changeState i f new).KeepsMove p := by
  unfold Part.changeState
  dsimp only
  split
  · exact (Part.moveNode_keeps _ _ _ _).2
  · have h := (Part.moveNode_keeps (p.applyLoss (p.node i).applied p.loader.settings.inBytes) i f new).2
    have k := p.applyLoss_keeps (p.node i).applied p.loader.settings.inBytes
    simp +contextual only [Part.KeepsMove] at *
    simp +contextual [h, k]

/-- The input shadow after a state change: the loss policy of a node that leaves service is applied (R18). -/
theorem Part.changeState_images (i : NodeIx) (f : NodeRecord → NodeRecord) (new : NodeState) :
    (p.changeState i f new).images =
      if new.inService then p.images else (p.applyLoss (p.node i).applied p.loader.settings.inBytes).images := by
  unfold Part.changeState
  dsimp only
  split <;> simp [(Part.moveNode_keeps _ _ _ _).1]

end Sys2Proof.Machine
end

