-- ==== Sys2Proof/Laws/Snaps.lean ====
section
/-! SUPPORT. What `settle` does with the statistics snapshots: nothing but `settleSnapshot` bears on them. -/

namespace Sys2Proof.Machine

/-- `q` has the snapshots of `p`, and what a snapshot copies. -/
abbrev Part.KeepsSnap (q p : Part) : Prop :=
  q.faults.snapState = p.faults.snapState ∧ q.faults.snapshot = p.faults.snapshot ∧ q.faults.snapSeq = p.faults.snapSeq ∧
  q.faults.triggered = p.faults.triggered ∧ q.faults.askReading = p.faults.askReading ∧
  q.faults.periodDue = p.faults.periodDue ∧ q.faults.askSeen = p.faults.askSeen ∧
  q.faults.counters = p.faults.counters ∧ q.sched.cycle = p.sched.cycle ∧ q.table.records = p.table.records

theorem Part.KeepsSnap.rfl {p : Part} : p.KeepsSnap p := by simp [Part.KeepsSnap]

theorem Part.KeepsSnap.trans {p q r : Part} (h : r.KeepsSnap q) (k : q.KeepsSnap p) : r.KeepsSnap p := by
  simp_all [Part.KeepsSnap]

variable (p : Part)

@[simp] theorem Part.writeAnswer_keepsSnap (writes : List (Nat × Word)) : (p.writeAnswer writes).KeepsSnap p := by
  unfold Part.writeAnswer; split <;> simp [Part.KeepsSnap]
@[simp] theorem Part.readWithdraw_keepsSnap (source : Source) (slot : SlotIx) : (p.readWithdraw source slot).KeepsSnap p := by
  simp [Part.readWithdraw, Part.KeepsSnap]
@[simp] theorem Part.startAnswer_keepsSnap : (p.startAnswer).KeepsSnap p := by
  unfold Part.startAnswer; (repeat' split) <;> simp [Part.KeepsSnap]
@[simp] theorem Part.readyAnswer_keepsSnap (a : AnswerFor) : (p.readyAnswer a).KeepsSnap p := by
  simp [Part.readyAnswer, Part.KeepsSnap]
@[simp] theorem Part.readTotal_keepsSnap : (p.readTotal).KeepsSnap p := by
  simp [Part.readTotal, Part.KeepsSnap]
@[simp] theorem Part.scanTrigger_keepsSnap : (p.scanTrigger).KeepsSnap p := by
  unfold Part.scanTrigger; (repeat' split) <;> simp [Part.KeepsSnap]
@[simp] theorem Part.retryAnswers_keepsSnap : (p.retryAnswers).KeepsSnap p := by
  unfold Part.retryAnswers; dsimp only; split
  · exact Part.KeepsSnap.rfl
  · exact foldl_relates Part.KeepsSnap Part.KeepsSnap.rfl (fun h k => h.trans k) _ (fun _ _ => by simp [Part.KeepsSnap]) _ _
@[simp] theorem Part.lowerPatience_keepsSnap : (p.lowerPatience).KeepsSnap p := by
  simp [Part.lowerPatience, Part.KeepsSnap]
@[simp] theorem Part.issueStatus_keepsSnap (i : NodeIx) (k : Fin 4) : (p.issueStatus i k).KeepsSnap p := by
  simp [Part.issueStatus, Part.KeepsSnap]
@[simp] theorem Part.startStatus_keepsSnap : (p.startStatus).KeepsSnap p := by
  unfold Part.startStatus; split <;> simp [Part.KeepsSnap]
@[simp] theorem Part.queueStatus_keepsSnap (i : NodeIx) (cause : Bool) : (p.queueStatus i cause).KeepsSnap p := by
  unfold Part.queueStatus; dsimp only; (repeat' split) <;> simp [Part.KeepsSnap]
@[simp] theorem Part.writeOwed_keepsSnap : (p.writeOwed).KeepsSnap p := by
  unfold Part.writeOwed
  exact foldl_relates Part.KeepsSnap Part.KeepsSnap.rfl (fun h k => h.trans k) _ (fun _ _ => by simp [Part.KeepsSnap]) _ _
@[simp] theorem Part.newRound_keepsSnap : (p.newRound).KeepsSnap p := by
  simp [Part.newRound, Part.KeepsSnap]
@[simp] theorem Part.nameNode_keepsSnap (i : NodeIx) : (p.nameNode i).KeepsSnap p := by
  simp [Part.nameNode, Part.KeepsSnap]
@[simp] theorem Part.startAppend_keepsSnap : (p.startAppend).KeepsSnap p := by
  unfold Part.startAppend; split <;> simp [Part.KeepsSnap]
@[simp] theorem Part.requestTaken_keepsSnap (onFetch : Bool) : (p.requestTaken onFetch).KeepsSnap p := by
  unfold Part.requestTaken; split <;> simp [Part.KeepsSnap]
@[simp] theorem Part.settleNodeOpen_keepsSnap : (p.settleNodeOpen).KeepsSnap p := by
  unfold Part.settleNodeOpen; dsimp only; (repeat' split) <;> simp [Part.KeepsSnap]
@[simp] theorem Part.checkAt_keepsSnap (c : Check) : (p.checkAt c).KeepsSnap p := by
  unfold Part.checkAt; split <;> simp [Part.KeepsSnap]
@[simp] theorem Part.beginCheck_keepsSnap (origin : CheckFrom) : (p.beginCheck origin).KeepsSnap p := by
  simp [Part.beginCheck, Part.KeepsSnap]
@[simp] theorem Part.settleCheck_keepsSnap : (p.settleCheck).KeepsSnap p := by
  unfold Part.settleCheck; (repeat' split) <;> simp [Part.KeepsSnap]
@[simp] theorem Part.openRewrites_keepsSnap : (p.openRewrites).KeepsSnap p := by
  unfold Part.openRewrites; (repeat' split) <;> simp [Part.KeepsSnap]
@[simp] theorem Part.openPatience_keepsSnap : (p.openPatience).KeepsSnap p := by
  unfold Part.openPatience; (repeat' split) <;> simp [Part.KeepsSnap]
@[simp] theorem Part.openScan_keepsSnap : (p.openScan).KeepsSnap p := by
  unfold Part.openScan; (repeat' split) <;> simp [Part.KeepsSnap]
@[simp] theorem Part.settleParcelOpen_keepsSnap : (p.settleParcelOpen).KeepsSnap p := by
  unfold Part.settleParcelOpen; (repeat' split) <;> simp [Part.KeepsSnap]
@[simp] theorem Part.giveFetch_keepsSnap (i : NodeIx) : (p.giveFetch i).KeepsSnap p := by
  simp [Part.giveFetch, Part.KeepsSnap]
@[simp] theorem Part.startupFail_keepsSnap : (p.startupFail).KeepsSnap p := by
  simp [Part.startupFail, Part.KeepsSnap]
@[simp] theorem Part.startupRead_keepsSnap (s : Startup) (pos : StartPos) (offset : Nat) : (p.startupRead s pos offset).KeepsSnap p := by
  simp [Part.startupRead, Part.KeepsSnap]
@[simp] theorem Part.settleStartup_keepsSnap : (p.settleStartup).KeepsSnap p := by
  unfold Part.settleStartup; (repeat' split) <;> simp [Part.KeepsSnap]
@[simp] theorem Part.endService_keepsSnap : (p.endService).KeepsSnap p := by
  unfold Part.endService; dsimp only; (repeat' split) <;> simp [Part.KeepsSnap]
@[simp] theorem Part.serveNode_keepsSnap (i : NodeIx) : (p.serveNode i).KeepsSnap p := by
  simp [Part.serveNode, Part.KeepsSnap]
@[simp] theorem Part.serviceName_keepsSnap (i : NodeIx) : (p.serviceName i).KeepsSnap p := by
  unfold Part.serviceName; split <;> simp [Part.KeepsSnap]
@[simp] theorem Part.serviceNext_keepsSnap : (p.serviceNext).KeepsSnap p := by
  unfold Part.serviceNext; dsimp only; (repeat' split) <;> simp [Part.KeepsSnap]
@[simp] theorem Part.settleService_keepsSnap : (p.settleService).KeepsSnap p := by
  unfold Part.settleService; (repeat' split) <;> simp [Part.KeepsSnap]

/-- What the trigger of an open and the snapshots come to in `settle` is what `settleSnapshot` makes of them (R166). -/
theorem Part.settle_snapshot : ∃ q : Part, q.KeepsSnap p ∧ p.settle.KeepsSnap q.settleSnapshot ∧
    (p.ladder.state ≠ .starting → q.ladder.state = p.ladder.state) := by
  refine ⟨p.settleNodeOpen.settleCheck.settleStartup.settleParcelOpen, by simp [Part.KeepsSnap], ?_, ?_⟩
  · simp [Part.settle, Part.KeepsSnap]
  · intro h
    simp only [Part.settleParcelOpen_ladder]
    unfold Part.settleStartup
    split
    · simp [h]
    · simp

end Sys2Proof.Machine
end

