-- ==== Sys2Proof/Laws/Latches.lean ====
section
/-! SUPPORT. What `settle` does with the nodes' event state: held-line service names nodes, and nothing else of it changes. -/

namespace Sys2Proof.Machine

/-- `q` has the nodes' event state of `p`, but for "fetched this turn". -/
abbrev Part.KeepsEvents (q p : Part) : Prop :=
  ∀ i, { q.events.nodes.get i with fetched := false } = { p.events.nodes.get i with fetched := false }

variable (p : Part)

@[simp] theorem Part.writeAnswer_nodes (writes : List (Nat × Word)) : (p.writeAnswer writes).events.nodes = p.events.nodes := by
  unfold Part.writeAnswer; split <;> simp [Part.KeepsEvents]
@[simp] theorem Part.readWithdraw_nodes (source : Source) (slot : SlotIx) : (p.readWithdraw source slot).events.nodes = p.events.nodes := by
  simp [Part.readWithdraw, Part.KeepsEvents]
@[simp] theorem Part.startAnswer_nodes : (p.startAnswer).events.nodes = p.events.nodes := by
  unfold Part.startAnswer; (repeat' split) <;> simp [Part.KeepsEvents]
@[simp] theorem Part.readyAnswer_nodes (a : AnswerFor) : (p.readyAnswer a).events.nodes = p.events.nodes := by
  simp [Part.readyAnswer, Part.KeepsEvents]
@[simp] theorem Part.readTotal_nodes : (p.readTotal).events.nodes = p.events.nodes := by
  simp [Part.readTotal, Part.KeepsEvents]
@[simp] theorem Part.scanTrigger_nodes : (p.scanTrigger).events.nodes = p.events.nodes := by
  unfold Part.scanTrigger; (repeat' split) <;> simp [Part.KeepsEvents]
@[simp] theorem Part.retryAnswers_nodes : (p.retryAnswers).events.nodes = p.events.nodes := by
  simp only [Part.retryAnswers]; (repeat' split) <;> simp [foldl_keeps (fun q : Part => q.events.nodes)]
@[simp] theorem Part.lowerPatience_nodes : (p.lowerPatience).events.nodes = p.events.nodes := by
  simp [Part.lowerPatience, Part.KeepsEvents]
@[simp] theorem Part.issueStatus_nodes (i : NodeIx) (k : Fin 4) : (p.issueStatus i k).events.nodes = p.events.nodes := by
  simp [Part.issueStatus, Part.KeepsEvents]
@[simp] theorem Part.startStatus_nodes : (p.startStatus).events.nodes = p.events.nodes := by
  unfold Part.startStatus; split <;> simp [Part.KeepsEvents]
@[simp] theorem Part.queueStatus_nodes (i : NodeIx) (cause : Bool) : (p.queueStatus i cause).events.nodes = p.events.nodes := by
  unfold Part.queueStatus; dsimp only; (repeat' split) <;> simp [Part.KeepsEvents]
@[simp] theorem Part.writeOwed_nodes : (p.writeOwed).events.nodes = p.events.nodes := by
  simp [Part.writeOwed, foldl_keeps (fun q : Part => q.events.nodes)]
@[simp] theorem Part.startAppend_nodes : (p.startAppend).events.nodes = p.events.nodes := by
  unfold Part.startAppend; split <;> simp [Part.KeepsEvents]
@[simp] theorem Part.requestTaken_nodes (onFetch : Bool) : (p.requestTaken onFetch).events.nodes = p.events.nodes := by
  unfold Part.requestTaken; split <;> simp [Part.KeepsEvents]
@[simp] theorem Part.settleNodeOpen_nodes : (p.settleNodeOpen).events.nodes = p.events.nodes := by
  unfold Part.settleNodeOpen; dsimp only; (repeat' split) <;> simp [Part.KeepsEvents]
@[simp] theorem Part.checkAt_nodes (c : Check) : (p.checkAt c).events.nodes = p.events.nodes := by
  unfold Part.checkAt; split <;> simp [Part.KeepsEvents]
@[simp] theorem Part.beginCheck_nodes (origin : CheckFrom) : (p.beginCheck origin).events.nodes = p.events.nodes := by
  simp [Part.beginCheck, Part.KeepsEvents]
@[simp] theorem Part.settleCheck_nodes : (p.settleCheck).events.nodes = p.events.nodes := by
  unfold Part.settleCheck; (repeat' split) <;> simp [Part.KeepsEvents]
@[simp] theorem Part.snapshotAt_nodes (s : Snapshot) : (p.snapshotAt s).events.nodes = p.events.nodes := by
  simp [Part.snapshotAt, Part.KeepsEvents]
@[simp] theorem Part.beginSnapshot_nodes : (p.beginSnapshot).events.nodes = p.events.nodes := by
  simp [Part.beginSnapshot, Part.KeepsEvents]
@[simp] theorem Part.triggerSnapshot_nodes : (p.triggerSnapshot).events.nodes = p.events.nodes := by
  unfold Part.triggerSnapshot; (repeat' split) <;> simp [Part.KeepsEvents]
@[simp] theorem Part.settleSnapshot_nodes : (p.settleSnapshot).events.nodes = p.events.nodes := by
  unfold Part.settleSnapshot; split <;> simp [Part.KeepsEvents]
@[simp] theorem Part.openRewrites_nodes : (p.openRewrites).events.nodes = p.events.nodes := by
  unfold Part.openRewrites; (repeat' split) <;> simp [Part.KeepsEvents]
@[simp] theorem Part.openPatience_nodes : (p.openPatience).events.nodes = p.events.nodes := by
  unfold Part.openPatience; (repeat' split) <;> simp [Part.KeepsEvents]
@[simp] theorem Part.openScan_nodes : (p.openScan).events.nodes = p.events.nodes := by
  unfold Part.openScan; (repeat' split) <;> simp [Part.KeepsEvents]
@[simp] theorem Part.settleParcelOpen_nodes : (p.settleParcelOpen).events.nodes = p.events.nodes := by
  unfold Part.settleParcelOpen; (repeat' split) <;> simp [Part.KeepsEvents]
@[simp] theorem Part.giveFetch_nodes (i : NodeIx) : (p.giveFetch i).events.nodes = p.events.nodes := by
  simp [Part.giveFetch, Part.KeepsEvents]
@[simp] theorem Part.startupFail_nodes : (p.startupFail).events.nodes = p.events.nodes := by
  simp [Part.startupFail, Part.KeepsEvents]
@[simp] theorem Part.startupRead_nodes (s : Startup) (pos : StartPos) (offset : Nat) : (p.startupRead s pos offset).events.nodes = p.events.nodes := by
  simp [Part.startupRead, Part.KeepsEvents]
@[simp] theorem Part.settleStartup_nodes : (p.settleStartup).events.nodes = p.events.nodes := by
  unfold Part.settleStartup; (repeat' split) <;> simp [Part.KeepsEvents]
@[simp] theorem Part.endService_nodes : (p.endService).events.nodes = p.events.nodes := by
  unfold Part.endService; dsimp only; (repeat' split) <;> simp [Part.KeepsEvents]
@[simp] theorem Part.newRound_keepsEvents : (p.newRound).KeepsEvents p := by
  simp [Part.newRound, Part.KeepsEvents]
@[simp] theorem Part.nameNode_keepsEvents (i : NodeIx) : (p.nameNode i).KeepsEvents p := by
  intro i; simp only [Part.nameNode]; simp; (repeat' split) <;> simp_all
@[simp] theorem Part.serveNode_keepsEvents (i : NodeIx) : (p.serveNode i).KeepsEvents p := by
  simp [Part.serveNode, Part.KeepsEvents]
@[simp] theorem Part.serviceName_keepsEvents (i : NodeIx) : (p.serviceName i).KeepsEvents p := by
  unfold Part.serviceName; split <;> simp [Part.KeepsEvents]
@[simp] theorem Part.serviceNext_keepsEvents : (p.serviceNext).KeepsEvents p := by
  unfold Part.serviceNext; dsimp only; (repeat' split) <;> simp [Part.KeepsEvents]
@[simp] theorem Part.settleService_keepsEvents : (p.settleService).KeepsEvents p := by
  unfold Part.settleService; (repeat' split) <;> simp [Part.KeepsEvents]
@[simp] theorem Part.settle_keepsEvents : (p.settle).KeepsEvents p := by
  simp [Part.settle, Part.KeepsEvents]

end Sys2Proof.Machine
end

