-- ==== Sys2Proof/Laws/Line.lean ====
section
/-! SUPPORT. Bytes on the line: a byte's 10 bit times are read back as the byte, without the stop bit as none, and what a frame puts on
the line. -/

namespace Sys2Proof

/-- The receiver takes from a well-framed byte the byte sent (R46). -/
@[simp] theorem LineItem.byte?_byte (b : Byte) : (LineItem.byte b).byte? = some b := by
  revert b; unfold LineItem.byte LineItem.byte? serialBits; decide

/-- Without its stop bit nothing on the line is a byte (R46). -/
theorem LineItem.byte?_noStop (bits : BitVec 10) (h : bits.getLsbD 9 = false) : (LineItem.serial bits).byte? = none := by
  simp only [LineItem.byte?, h, Bool.and_false, Bool.false_eq_true, if_false]

/-- The bits of a byte by their place: start bit, data bits least significant first, stop bit (R46). -/
theorem serialBits_getLsbD (b : Byte) (k : Nat) :
    (serialBits b).getLsbD k = (if k = 0 then false else if k < 9 then b.getLsbD (k - 1) else decide (k = 9)) := by
  unfold serialBits
  rw [BitVec.getLsbD_append, BitVec.getLsbD_append]
  rcases k with _ | k
  · simp
  · by_cases h : k < 8
    · simp [h, show k + 1 < 9 by omega]
    · simp only [Nat.add_sub_cancel, h, show ¬ k + 1 < 9 by omega, show ¬ k + 1 < 1 by omega, if_false, Nat.succ_ne_zero]
      by_cases hk : k = 8
      · subst hk; rfl
      · simp [BitVec.getLsbD_of_ge (1#1) (k - 8) (by omega), hk]

end Sys2Proof

namespace Sys2Proof.Machine

/-- Well-framed bytes are taken one after the other, up to the first item that is none. -/
theorem leadingBytes_append (bytes : List Byte) (rest : List LineItem) :
    leadingBytes (bytes.map .byte ++ rest) = bytes ++ leadingBytes rest := by
  induction bytes with
  | nil => rfl
  | cons b bytes ih => simp [leadingBytes, ih]

theorem leadingBytes_of_none (item : LineItem) (rest : List LineItem) (h : item.byte? = none) : leadingBytes (item :: rest) = [] := by
  simp [leadingBytes, h]

/-- A frame is 6 + LEN bytes (R46). -/
@[simp] theorem encodeFrame_length (kind : PartKind) (flags : BitVec 3) (address : Byte) (payload : List Byte) :
    (encodeFrame kind flags address payload).length = 6 + payload.length := by
  simp [encodeFrame]; omega

/-- A frame on the line lasts 10 bit times a byte (R46). -/
theorem FrameEngine.transmits_length (f : FrameEngine) (h : f.state = .sending) (k : f.onLine = true) :
    f.transmits.length = 10 * f.tx.length := by
  simp [FrameEngine.transmits, h, k, Config.bitsPerByte, Nat.mul_comm]

end Sys2Proof.Machine
end

