-- ==== Sys2Proof/Laws/Records.lean ====
section
/-! SUPPORT. Which operations leave every node record as it is (Chapter 1). -/

namespace Sys2Proof.Machine

variable (p : Part)

@[simp] theorem Part.noteMemoryError_records : (p.noteMemoryError).table.records = p.table.records := by
  simp [Part.noteMemoryError]
@[simp] theorem Part.giveBroadcast_records (ex : Exchange) (kind : PartKind) :
    (p.giveBroadcast ex kind).table.records = p.table.records := by
  simp [Part.giveBroadcast]
@[simp] theorem Part.frameStart_records : (p.frameStart).table.records = p.table.records := by
  unfold Part.frameStart; dsimp only; (repeat' split) <;> simp
@[simp] theorem Part.requestSent_records : (p.requestSent).table.records = p.table.records := by
  unfold Part.requestSent; (repeat' split) <;> simp
@[simp] theorem Part.decideAttempt_records (a : Attempt) (rx : Option Frame) :
    (p.decideAttempt a rx).table.records = p.table.records := by
  unfold Part.decideAttempt; split <;> simp
@[simp] theorem Part.replyTimerLimit_records : (p.replyTimerLimit).table.records = p.table.records := by
  unfold Part.replyTimerLimit; split <;> simp
@[simp] theorem Part.guardCarrier_records : (p.guardCarrier).table.records = p.table.records := by
  unfold Part.guardCarrier; split <;> simp
@[simp] theorem Part.carrierInGuard_records (items : List LineItem) :
    (p.carrierInGuard items).table.records = p.table.records := by
  unfold Part.carrierInGuard; (repeat' split) <;> simp
@[simp] theorem Part.judgeReply_records (ex : Exchange) (items : List LineItem) :
    (p.judgeReply ex items).table.records = p.table.records := by
  unfold Part.judgeReply; (repeat' split) <;> simp
@[simp] theorem Part.replyFrameEnd_records (items : List LineItem) : (p.replyFrameEnd items).table.records = p.table.records := by
  unfold Part.replyFrameEnd; dsimp only; (repeat' split) <;> simp
@[simp] theorem Part.strayFrame_records : (p.strayFrame).table.records = p.table.records := by
  unfold Part.strayFrame; split <;> simp
@[simp] theorem Part.strayClash_records : (p.strayClash).table.records = p.table.records := by
  unfold Part.strayClash; dsimp only; split <;> simp
@[simp] theorem Part.quietPassed_records : (p.quietPassed).table.records = p.table.records := rfl
@[simp] theorem Part.lineClash_records : p.lineClash.table.records = p.table.records := by
  unfold Part.lineClash; (repeat' split) <;> simp
@[simp] theorem Part.writeShadow_records (offset : Nat) (bytes : List Byte) :
    (p.writeShadow offset bytes).table.records = p.table.records := by
  simp [Part.writeShadow]
@[simp] theorem Part.clearShadow_records (lo hi : Nat) : (p.clearShadow lo hi).table.records = p.table.records := by
  simp [Part.clearShadow]
@[simp] theorem Part.clearSlice_records (e : NodeEntry) (size : Nat) :
    (p.clearSlice e size).table.records = p.table.records := by
  simp [Part.clearSlice]
@[simp] theorem Part.applyLoss_records (e : NodeEntry) (size : Nat) :
    (p.applyLoss e size).table.records = p.table.records := by
  unfold Part.applyLoss; split <;> simp
@[simp] theorem Part.outputTake_records (w : Word) : (p.outputTake w).table.records = p.table.records := by
  unfold Part.outputTake; dsimp only; (repeat' split) <;> simp
@[simp] theorem Part.imageIsReady_records : (p.imageIsReady).table.records = p.table.records := by
  simp [Part.imageIsReady]
@[simp] theorem Part.issueSlice_records (bank : Bank) (e : NodeEntry) (done : Nat) :
    (p.issueSlice bank e done).table.records = p.table.records := by
  simp [Part.issueSlice]
@[simp] theorem Part.beginClose_records : (p.beginClose).table.records = p.table.records := by
  simp [Part.beginClose]
@[simp] theorem Part.issueClose_records (fill : Bank) (job : CloseJob) :
    (p.issueClose fill job).table.records = p.table.records := by
  simp [Part.issueClose]
@[simp] theorem Part.holdWordTaken_records (w : Word) (job : CloseJob) :
    (p.holdWordTaken w job).table.records = p.table.records := by
  unfold Part.holdWordTaken; dsimp only; (repeat' split) <;> simp
@[simp] theorem Part.writeCycleWord_records : (p.writeCycleWord).table.records = p.table.records := by
  simp [Part.writeCycleWord]
@[simp] theorem Part.endClose_records : (p.endClose).table.records = p.table.records := by
  simp [Part.endClose]
@[simp] theorem Part.published_records (fill : Bank) : (p.published fill).table.records = p.table.records := by
  unfold Part.published; dsimp only; (repeat' split) <;> simp
@[simp] theorem Part.continueClose_records (w : Word) : (p.continueClose w).table.records = p.table.records := by
  unfold Part.continueClose; (repeat' split) <;> simp
@[simp] theorem Part.divisorReached_records : (p.divisorReached).table.records = p.table.records := by
  unfold Part.divisorReached; split <;> simp
@[simp] theorem Part.writeAnswer_records (writes : List (Nat × Word)) :
    (p.writeAnswer writes).table.records = p.table.records := by
  unfold Part.writeAnswer; split <;> simp
@[simp] theorem Part.readWithdraw_records (source : Source) (slot : SlotIx) :
    (p.readWithdraw source slot).table.records = p.table.records := by
  simp [Part.readWithdraw]
@[simp] theorem Part.startAnswer_records : (p.startAnswer).table.records = p.table.records := by
  unfold Part.startAnswer; (repeat' split) <;> simp
@[simp] theorem Part.readyAnswer_records (a : AnswerFor) : (p.readyAnswer a).table.records = p.table.records := by
  simp [Part.readyAnswer]
@[simp] theorem Part.nextAnswer_records : (p.nextAnswer).table.records = p.table.records := by
  simp [Part.nextAnswer]
@[simp] theorem Part.countAnswer_records (outcome : ParcelOutcome) :
    (p.countAnswer outcome).table.records = p.table.records := by
  simp [Part.countAnswer]
@[simp] theorem Part.freeParcel_records (slot : SlotIx) : (p.freeParcel slot).table.records = p.table.records := by
  simp [Part.freeParcel]
@[simp] theorem Part.finishParcel_records (slot : SlotIx) (outcome : ParcelOutcome) (status : Byte) :
    (p.finishParcel slot outcome status).table.records = p.table.records := by
  simp [Part.finishParcel]
@[simp] theorem Part.abandonParcel_records (slot : SlotIx) (outcome : ParcelOutcome) :
    (p.abandonParcel slot outcome).table.records = p.table.records := by
  simp [Part.abandonParcel]
@[simp] theorem Part.abandonDone_records (slot : SlotIx) : (p.abandonDone slot).table.records = p.table.records := by
  simp [Part.abandonDone]
@[simp] theorem Part.parcelAtChange_records (new : NodeState) (e : Parcel) :
    (p.parcelAtChange new e).table.records = p.table.records := by
  unfold Part.parcelAtChange; (repeat' split) <;> simp
@[simp] theorem Part.parcelNodeChange_records (i : NodeIx) (new : NodeState) :
    (p.parcelNodeChange i new).table.records = p.table.records := by
  simp [Part.parcelNodeChange, foldl_keeps (fun q : Part => q.table.records)]
@[simp] theorem Part.readTotal_records : (p.readTotal).table.records = p.table.records := by
  simp [Part.readTotal]
@[simp] theorem Part.scanTrigger_records : (p.scanTrigger).table.records = p.table.records := by
  unfold Part.scanTrigger; (repeat' split) <;> simp
@[simp] theorem Part.visitSlot_records (slot : SlotIx) (left : Nat) :
    (p.visitSlot slot left).table.records = p.table.records := by
  simp [Part.visitSlot]
@[simp] theorem Part.answerDeferred_records (slot : SlotIx) (left : Nat) :
    (p.answerDeferred slot left).table.records = p.table.records := by
  simp [Part.answerDeferred]
@[simp] theorem Part.walkStop_records (slot : SlotIx) : (p.walkStop slot).table.records = p.table.records := by
  simp [Part.walkStop]
@[simp] theorem Part.walkEnd_records : (p.walkEnd).table.records = p.table.records := by
  unfold Part.walkEnd; dsimp only; (repeat' split) <;> simp
@[simp] theorem Part.walkOn_records (slot : SlotIx) (left : Nat) : (p.walkOn slot left).table.records = p.table.records := by
  unfold Part.walkOn; split <;> simp
@[simp] theorem Part.totalRead_records (total : Word) : (p.totalRead total).table.records = p.table.records := by
  unfold Part.totalRead; dsimp only; (repeat' split) <;> simp
@[simp] theorem Part.answerAtOnce_records (slot : SlotIx) (left : Nat) (ask : Half) (outcome : ParcelOutcome) :
    (p.answerAtOnce slot left ask outcome).table.records = p.table.records := by
  simp [Part.answerAtOnce]
@[simp] theorem Part.writeTaken_records (slot : SlotIx) (left : Nat) (h : SlotHeader) (words : List Word) :
    (p.writeTaken slot left h words).table.records = p.table.records := by
  simp [Part.writeTaken]
@[simp] theorem Part.beginTake_records (slot : SlotIx) (left : Nat) (h : SlotHeader) :
    (p.beginTake slot left h).table.records = p.table.records := by
  unfold Part.beginTake; split <;> simp
@[simp] theorem Part.judgeSlot_records (slot : SlotIx) (left : Nat) (ask withdraw : Half) (target length : Word) :
    (p.judgeSlot slot left ask withdraw target length).table.records = p.table.records := by
  unfold Part.judgeSlot; dsimp only; (repeat' split) <;> simp
@[simp] theorem Part.visitRead_records (slot : SlotIx) (left : Nat) (got : List Word) :
    (p.visitRead slot left got).table.records = p.table.records := by
  unfold Part.visitRead; (repeat' split) <;> simp
@[simp] theorem Part.parcelTaken_records (slot : SlotIx) (left : Nat) (h : SlotHeader) (request : List Byte) :
    (p.parcelTaken slot left h request).table.records = p.table.records := by
  unfold Part.parcelTaken; dsimp only; (repeat' split) <;> simp
@[simp] theorem Part.continueWalk_records (w : Word) : (p.continueWalk w).table.records = p.table.records := by
  unfold Part.continueWalk; dsimp only; (repeat' split) <;> simp
@[simp] theorem Part.walkFailed_records : (p.walkFailed).table.records = p.table.records := by
  unfold Part.walkFailed; dsimp only; (repeat' split) <;> simp
@[simp] theorem Part.answerComplete_records : (p.answerComplete).table.records = p.table.records := by
  unfold Part.answerComplete; dsimp only; (repeat' split) <;> simp
@[simp] theorem Part.continueAnswer_records (w : Word) : (p.continueAnswer w).table.records = p.table.records := by
  unfold Part.continueAnswer; dsimp only; (repeat' split) <;> simp
@[simp] theorem Part.answerFailed_records : (p.answerFailed).table.records = p.table.records := by
  unfold Part.answerFailed; (repeat' split) <;> simp
@[simp] theorem Part.parkParcels_records : (p.parkParcels).table.records = p.table.records := by
  simp [Part.parkParcels]
@[simp] theorem Part.parcelEnd_records (e : ParcelEnd) : (p.parcelEnd e).table.records = p.table.records := by
  unfold Part.parcelEnd; split <;> simp
@[simp] theorem Part.takeParcelEnd_records (e : ParcelEnd) : (p.takeParcelEnd e).table.records = p.table.records := by
  unfold Part.takeParcelEnd; split <;> simp
@[simp] theorem Part.takeKeptEnd_records : (p.takeKeptEnd).table.records = p.table.records := by
  unfold Part.takeKeptEnd; split <;> simp
@[simp] theorem Part.resumeParcels_records : (p.resumeParcels).table.records = p.table.records := by
  unfold Part.resumeParcels; dsimp only; split <;> simp
@[simp] theorem Part.retryAnswers_records : (p.retryAnswers).table.records = p.table.records := by
  simp only [Part.retryAnswers]; (repeat' split) <;> simp [foldl_keeps (fun q : Part => q.table.records)]
@[simp] theorem Part.lowerPatience_records : (p.lowerPatience).table.records = p.table.records := by
  simp [Part.lowerPatience]
@[simp] theorem Part.patienceExpired_records (slot : SlotIx) : (p.patienceExpired slot).table.records = p.table.records := by
  unfold Part.patienceExpired; (repeat' split) <;> simp
@[simp] theorem Part.issueStatus_records (i : NodeIx) (k : Fin 4) : (p.issueStatus i k).table.records = p.table.records := by
  simp [Part.issueStatus]
@[simp] theorem Part.startStatus_records : (p.startStatus).table.records = p.table.records := by
  unfold Part.startStatus; split <;> simp
@[simp] theorem Part.queueStatus_records (i : NodeIx) (cause : Bool) :
    (p.queueStatus i cause).table.records = p.table.records := by
  unfold Part.queueStatus; dsimp only; (repeat' split) <;> simp
@[simp] theorem Part.nextStatus_records (w : StatusWrite) : (p.nextStatus w).table.records = p.table.records := by
  unfold Part.nextStatus; split <;> simp
@[simp] theorem Part.writeOwed_records : (p.writeOwed).table.records = p.table.records := by
  simp [Part.writeOwed, foldl_keeps (fun q : Part => q.table.records)]
@[simp] theorem Part.toTail_records (i : NodeIx) : (p.toTail i).table.records = p.table.records := by
  unfold Part.toTail; split <;> simp
@[simp] theorem Part.indicate_records (i : NodeIx) (origin : LatchOrigin) :
    (p.indicate i origin).table.records = p.table.records := by
  unfold Part.indicate; (repeat' split) <;> simp
@[simp] theorem Part.unqueue_records (i : NodeIx) : (p.unqueue i).table.records = p.table.records := by
  simp [Part.unqueue]
@[simp] theorem Part.eventLeaves_records (i : NodeIx) : (p.eventLeaves i).table.records = p.table.records := by
  simp [Part.eventLeaves]
@[simp] theorem Part.eventCleared_records (i : NodeIx) : (p.eventCleared i).table.records = p.table.records := by
  simp [Part.eventCleared]
@[simp] theorem Part.voidNotes_records : (p.voidNotes).table.records = p.table.records := by
  simp [Part.voidNotes]
@[simp] theorem Part.confirmAck_records (i : NodeIx) (carried : Option Byte) :
    (p.confirmAck i carried).table.records = p.table.records := by
  unfold Part.confirmAck; (repeat' split) <;> simp
@[simp] theorem Part.newRound_records : (p.newRound).table.records = p.table.records := by
  simp [Part.newRound]
@[simp] theorem Part.nameNode_records (i : NodeIx) : (p.nameNode i).table.records = p.table.records := by
  simp [Part.nameNode]
@[simp] theorem Part.startAppend_records : (p.startAppend).table.records = p.table.records := by
  unfold Part.startAppend; split <;> simp
@[simp] theorem Part.enqueueAppend_records (what : AppendFor) (record : List Word) :
    (p.enqueueAppend what record).table.records = p.table.records := by
  simp [Part.enqueueAppend]
@[simp] theorem Part.nextAppend_records : (p.nextAppend).table.records = p.table.records := by
  simp [Part.nextAppend]
@[simp] theorem Part.offerNote_records : (p.offerNote).table.records = p.table.records := by
  unfold Part.offerNote; (repeat' split) <;> simp
@[simp] theorem Part.noteAppended_records (address : Byte) (count : Nat) :
    (p.noteAppended address count).table.records = p.table.records := by
  simp [Part.noteAppended]
@[simp] theorem Part.eventAccepted_records (a : Append) (i : NodeIx) (seq : Byte) (more : Bool) :
    (p.eventAccepted a i seq more).table.records = p.table.records := by
  unfold Part.eventAccepted; (repeat' split) <;> simp
@[simp] theorem Part.appendPublished_records (a : Append) : (p.appendPublished a).table.records = p.table.records := by
  unfold Part.appendPublished; dsimp only; (repeat' split) <;> simp
@[simp] theorem Part.continueAppend_records : (p.continueAppend).table.records = p.table.records := by
  unfold Part.continueAppend; (repeat' split) <;> simp
@[simp] theorem Part.appendAborted_records (a : Append) : (p.appendAborted a).table.records = p.table.records := by
  unfold Part.appendAborted; split <;> simp
@[simp] theorem Part.requestTaken_records (onFetch : Bool) : (p.requestTaken onFetch).table.records = p.table.records := by
  unfold Part.requestTaken; split <;> simp
@[simp] theorem Part.takenValue_records (t : Word) (onFetch : Bool) :
    (p.takenValue t onFetch).table.records = p.table.records := by
  unfold Part.takenValue; dsimp only; (repeat' split) <;> simp
@[simp] theorem Part.takenLost_records : (p.takenLost).table.records = p.table.records := by
  simp [Part.takenLost]
@[simp] theorem Part.takeEvent_records (i : NodeIx) (f : Frame) : (p.takeEvent i f).table.records = p.table.records := by
  simp [Part.takeEvent]
@[simp] theorem Part.fetchReply_records (i : NodeIx) (f : Frame) : (p.fetchReply i f).table.records = p.table.records := by
  unfold Part.fetchReply; dsimp only; (repeat' split) <;> simp
@[simp] theorem Part.lossBefore_records (i : NodeIx) (new : NodeEntry) (size : Nat) :
    (p.lossBefore i new size).table.records = p.table.records := by
  unfold Part.lossBefore; dsimp only; (repeat' split) <;> simp
@[simp] theorem Part.lossAfter_records (i : NodeIx) (new : NodeEntry) (size : Nat) :
    (p.lossAfter i new size).table.records = p.table.records := by
  unfold Part.lossAfter; dsimp only; (repeat' split) <;> simp
@[simp] theorem Part.settleNodeOpen_records : (p.settleNodeOpen).table.records = p.table.records := by
  unfold Part.settleNodeOpen; dsimp only; (repeat' split) <;> simp
@[simp] theorem Part.openWindow_records : (p.openWindow).table.records = p.table.records := by
  simp [Part.openWindow]
@[simp] theorem Part.windowNotFitted_records (fault : Bool) : (p.windowNotFitted fault).table.records = p.table.records := by
  unfold Part.windowNotFitted; split <;> simp
@[simp] theorem Part.sighting_records (address : Byte) (origin : StrayOrigin) (kind : Byte) :
    (p.sighting address origin kind).table.records = p.table.records := by
  unfold Part.sighting; dsimp only; (repeat' split) <;> simp
@[simp] theorem Part.tally_records (f : Tallies → Tallies) : (p.tally f).table.records = p.table.records := by
  simp [Part.tally]
@[simp] theorem Part.endWindow_records : (p.endWindow).table.records = p.table.records := by
  simp [Part.endWindow]
@[simp] theorem Part.windowCommit_records (initial : Nat) : (p.windowCommit initial).table.records = p.table.records := by
  simp [Part.windowCommit]
@[simp] theorem Part.checkAt_records (c : Check) : (p.checkAt c).table.records = p.table.records := by
  unfold Part.checkAt; split <;> simp
@[simp] theorem Part.beginCheck_records (origin : CheckFrom) : (p.beginCheck origin).table.records = p.table.records := by
  simp [Part.beginCheck]
@[simp] theorem Part.statOpen_records : (p.statOpen).table.records = p.table.records := by
  simp [Part.statOpen]
@[simp] theorem Part.restoreAccepted_records : (p.restoreAccepted).table.records = p.table.records := by
  unfold Part.restoreAccepted; split <;> simp
@[simp] theorem Part.refuseCommit_records (c : Check) (v : Verdict) :
    (p.refuseCommit c v).table.records = p.table.records := by
  simp [Part.refuseCommit]
@[simp] theorem Part.reportRefused_records : (p.reportRefused).table.records = p.table.records := by
  simp [Part.reportRefused]
@[simp] theorem Part.verdictFailed_records : (p.verdictFailed).table.records = p.table.records := by
  unfold Part.verdictFailed; (repeat' split) <;> simp
@[simp] theorem Part.settleCheck_records : (p.settleCheck).table.records = p.table.records := by
  unfold Part.settleCheck; (repeat' split) <;> simp
@[simp] theorem Part.snapshotAt_records (s : Snapshot) : (p.snapshotAt s).table.records = p.table.records := by
  simp [Part.snapshotAt]
@[simp] theorem Part.beginSnapshot_records : (p.beginSnapshot).table.records = p.table.records := by
  simp [Part.beginSnapshot]
@[simp] theorem Part.endSnapshot_records : (p.endSnapshot).table.records = p.table.records := by
  unfold Part.endSnapshot; dsimp only; (repeat' split) <;> simp
@[simp] theorem Part.continueSnapshot_records : (p.continueSnapshot).table.records = p.table.records := by
  unfold Part.continueSnapshot; (repeat' split) <;> simp
@[simp] theorem Part.triggerSnapshot_records : (p.triggerSnapshot).table.records = p.table.records := by
  unfold Part.triggerSnapshot; (repeat' split) <;> simp
@[simp] theorem Part.settleSnapshot_records : (p.settleSnapshot).table.records = p.table.records := by
  unfold Part.settleSnapshot; split <;> simp
@[simp] theorem Part.periodExpired_records : (p.periodExpired).table.records = p.table.records := by
  simp [Part.periodExpired]
@[simp] theorem Part.statAskRead_records (w : Word) : (p.statAskRead w).table.records = p.table.records := by
  simp [Part.statAskRead]
@[simp] theorem Part.statAskFailed_records : (p.statAskFailed).table.records = p.table.records := by
  simp [Part.statAskFailed]
@[simp] theorem Part.cutSnapshot_records : (p.cutSnapshot).table.records = p.table.records := by
  simp [Part.cutSnapshot]
@[simp] theorem Part.startCycle_records : (p.startCycle).table.records = p.table.records := by
  simp [Part.startCycle]
@[simp] theorem Part.openRewrites_records : (p.openRewrites).table.records = p.table.records := by
  unfold Part.openRewrites; (repeat' split) <;> simp
@[simp] theorem Part.openPatience_records : (p.openPatience).table.records = p.table.records := by
  unfold Part.openPatience; (repeat' split) <;> simp
@[simp] theorem Part.openScan_records : (p.openScan).table.records = p.table.records := by
  unfold Part.openScan; (repeat' split) <;> simp
@[simp] theorem Part.settleParcelOpen_records : (p.settleParcelOpen).table.records = p.table.records := by
  unfold Part.settleParcelOpen; (repeat' split) <;> simp
@[simp] theorem Part.enterPolling_records : (p.enterPolling).table.records = p.table.records := by
  simp [Part.enterPolling]
@[simp] theorem Part.enterClosing_records : (p.enterClosing).table.records = p.table.records := by
  simp [Part.enterClosing]
@[simp] theorem Part.nameExchange_records (e : Parcel) (bt : Nat) (f : Parcel → Parcel) (ex : Exchange) (frame : List Byte) :
    (p.nameExchange e bt f ex frame).table.records = p.table.records := by
  unfold Part.nameExchange; split <;> simp
@[simp] theorem Part.nameSeg_records (e : Parcel) : (p.nameSeg e).table.records = p.table.records := by
  simp [Part.nameSeg]
@[simp] theorem Part.nameNext_records (e : Parcel) (n : Nat) : (p.nameNext e n).table.records = p.table.records := by
  simp [Part.nameNext]
@[simp] theorem Part.nameAbandon_records (e : Parcel) : (p.nameAbandon e).table.records = p.table.records := by
  simp [Part.nameAbandon]
@[simp] theorem Part.serveParcel_records (e : Parcel) : (p.serveParcel e).table.records = p.table.records := by
  unfold Part.serveParcel; split <;> simp
@[simp] theorem Part.newPass_records : (p.newPass).table.records = p.table.records := by
  simp [Part.newPass]
@[simp] theorem Part.parcelNext_records : (p.parcelNext).table.records = p.table.records := by
  unfold Part.parcelNext; dsimp only; (repeat' split) <;> simp
@[simp] theorem Part.parcelPhase_records : (p.parcelPhase).table.records = p.table.records := by
  simp [Part.parcelPhase]
@[simp] theorem Part.withdrawRead_records (slot : SlotIx) (w : Word) :
    (p.withdrawRead slot w).table.records = p.table.records := by
  unfold Part.withdrawRead; dsimp only; (repeat' split) <;> simp
@[simp] theorem Part.withdrawLost_records (slot : SlotIx) : (p.withdrawLost slot).table.records = p.table.records := by
  simp [Part.withdrawLost]
@[simp] theorem Part.parcelAttemptFailed_records (slot : SlotIx) :
    (p.parcelAttemptFailed slot).table.records = p.table.records := by
  unfold Part.parcelAttemptFailed; (repeat' split) <;> simp
@[simp] theorem Part.segAcked_records (slot : SlotIx) (b : Byte) : (p.segAcked slot b).table.records = p.table.records := by
  simp [Part.segAcked]
@[simp] theorem Part.segReplied_records (slot : SlotIx) (n : Nat) (f : Frame) :
    (p.segReplied slot n f).table.records = p.table.records := by
  unfold Part.segReplied; dsimp only; (repeat' split) <;> simp
@[simp] theorem Part.giveFetch_records (i : NodeIx) : (p.giveFetch i).table.records = p.table.records := by
  simp [Part.giveFetch]
@[simp] theorem Part.beginFetch_records (i : NodeIx) : (p.beginFetch i).table.records = p.table.records := by
  unfold Part.beginFetch; dsimp only; (repeat' split) <;> simp
@[simp] theorem Part.fetchNext_records : (p.fetchNext).table.records = p.table.records := by
  unfold Part.fetchNext; (repeat' split) <;> simp
@[simp] theorem Part.fetchPhase_records : (p.fetchPhase).table.records = p.table.records := by
  simp [Part.fetchPhase]
@[simp] theorem Part.fetchAfterRead_records : (p.fetchAfterRead).table.records = p.table.records := by
  unfold Part.fetchAfterRead; dsimp only; (repeat' split) <;> simp
@[simp] theorem Part.windowPhase_records : (p.windowPhase).table.records = p.table.records := by
  unfold Part.windowPhase; (repeat' split) <;> simp
@[simp] theorem Part.givePoll_records (i : NodeIx) (ack : Option Byte) (slice : List Byte) :
    (p.givePoll i ack slice).table.records = p.table.records := by
  simp [Part.givePoll]
@[simp] theorem Part.pollAttempt_records (i : NodeIx) : (p.pollAttempt i).table.records = p.table.records := by
  unfold Part.pollAttempt; dsimp only; (repeat' split) <;> simp
@[simp] theorem Part.continueSlice_records (w : Word) : (p.continueSlice w).table.records = p.table.records := by
  unfold Part.continueSlice; (repeat' split) <;> simp
@[simp] theorem Part.sliceFailed_records : (p.sliceFailed).table.records = p.table.records := by
  unfold Part.sliceFailed; split <;> simp
@[simp] theorem Part.abandonSent_records (slot : SlotIx) : (p.abandonSent slot).table.records = p.table.records := by
  simp [Part.abandonSent]
@[simp] theorem Part.closeInRun_records : (p.closeInRun).table.records = p.table.records := by
  unfold Part.closeInRun; split <;> simp
@[simp] theorem Part.cycleExpiry_records : (p.cycleExpiry).table.records = p.table.records := by
  unfold Part.cycleExpiry; dsimp only; (repeat' split) <;> simp
@[simp] theorem Part.writeState_records (state : LadderState) : (p.writeState state).table.records = p.table.records := by
  simp [Part.writeState]
@[simp] theorem Part.enterRun_records : (p.enterRun).table.records = p.table.records := by
  simp [Part.enterRun]
@[simp] theorem Part.enterHeld_records (named : Bool) : (p.enterHeld named).table.records = p.table.records := by
  simp [Part.enterHeld]
@[simp] theorem Part.enterResting_records : (p.enterResting).table.records = p.table.records := by
  simp [Part.enterResting]
@[simp] theorem Part.enterRousing_records : (p.enterRousing).table.records = p.table.records := by
  simp [Part.enterRousing]
@[simp] theorem Part.beginStill_records : (p.beginStill).table.records = p.table.records := by
  simp [Part.beginStill]
@[simp] theorem Part.enterSettling_records : (p.enterSettling).table.records = p.table.records := by
  simp [Part.enterSettling]
@[simp] theorem Part.startupFail_records : (p.startupFail).table.records = p.table.records := by
  simp [Part.startupFail]
@[simp] theorem Part.startupRead_records (s : Startup) (pos : StartPos) (offset : Nat) :
    (p.startupRead s pos offset).table.records = p.table.records := by
  simp [Part.startupRead]
@[simp] theorem Part.startupWrite_records (s : Startup) (pos : StartPos) (offset : Nat) (w : Word) :
    (p.startupWrite s pos offset w).table.records = p.table.records := by
  simp [Part.startupWrite]
@[simp] theorem Part.startupFinal_records (s : Startup) : (p.startupFinal s).table.records = p.table.records := by
  simp [Part.startupFinal]
@[simp] theorem Part.sweepNext_records (s : Startup) (slot : SlotIx) :
    (p.sweepNext s slot).table.records = p.table.records := by
  unfold Part.sweepNext; (repeat' split) <;> simp
@[simp] theorem Part.startupDone_records (w : Word) : (p.startupDone w).table.records = p.table.records := by
  unfold Part.startupDone; dsimp only; (repeat' split) <;> simp
@[simp] theorem Part.settleStartup_records : (p.settleStartup).table.records = p.table.records := by
  unfold Part.settleStartup; (repeat' split) <;> simp
@[simp] theorem Part.skipRequest_records (r : Request) : (p.skipRequest r).table.records = p.table.records := by
  simp [Part.skipRequest]
@[simp] theorem Part.emptySlot_records : (p.emptySlot).table.records = p.table.records := by
  simp [Part.emptySlot]
@[simp] theorem Part.keepPending_records (r : Request) : (p.keepPending r).table.records = p.table.records := by
  simp [Part.keepPending]
@[simp] theorem Part.judgeInRun_records : (p.judgeInRun).table.records = p.table.records := by
  unfold Part.judgeInRun; (repeat' split) <;> simp
@[simp] theorem Part.leaveRun_records (named : Bool) : (p.leaveRun named).table.records = p.table.records := by
  simp [Part.leaveRun]
@[simp] theorem Part.closeComplete_records : (p.closeComplete).table.records = p.table.records := by
  unfold Part.closeComplete; (repeat' split) <;> simp
@[simp] theorem Part.holdCheckStopped_records : (p.holdCheckStopped).table.records = p.table.records := by
  unfold Part.holdCheckStopped; split <;> simp
@[simp] theorem Part.endService_records : (p.endService).table.records = p.table.records := by
  unfold Part.endService; dsimp only; (repeat' split) <;> simp
@[simp] theorem Part.serveNode_records (i : NodeIx) : (p.serveNode i).table.records = p.table.records := by
  simp [Part.serveNode]
@[simp] theorem Part.serviceName_records (i : NodeIx) : (p.serviceName i).table.records = p.table.records := by
  unfold Part.serviceName; split <;> simp
@[simp] theorem Part.serviceNext_records : (p.serviceNext).table.records = p.table.records := by
  unfold Part.serviceNext; dsimp only; (repeat' split) <;> simp
@[simp] theorem Part.enterService_records : (p.enterService).table.records = p.table.records := by
  simp [Part.enterService]
@[simp] theorem Part.serviceAfterRead_records : (p.serviceAfterRead).table.records = p.table.records := by
  unfold Part.serviceAfterRead; dsimp only; (repeat' split) <;> simp
@[simp] theorem Part.settleService_records : (p.settleService).table.records = p.table.records := by
  unfold Part.settleService; (repeat' split) <;> simp
@[simp] theorem Part.nudge_records : (p.nudge).table.records = p.table.records := by
  unfold Part.nudge; (repeat' split) <;> simp
@[simp] theorem Part.lineActivity_records : (p.lineActivity).table.records = p.table.records := by
  unfold Part.lineActivity; split <;> simp
@[simp] theorem Part.rouseFrameSent_records : (p.rouseFrameSent).table.records = p.table.records := by
  simp [Part.rouseFrameSent]
@[simp] theorem Part.enterStill_records : (p.enterStill).table.records = p.table.records := by
  simp [Part.enterStill]
@[simp] theorem Part.stateWordEnded_records : (p.stateWordEnded).table.records = p.table.records := by
  unfold Part.stateWordEnded; split <;> simp
@[simp] theorem Part.settle_records : (p.settle).table.records = p.table.records := by
  simp [Part.settle]
@[simp] theorem Part.afterTaken_records : (p.afterTaken).table.records = p.table.records := by
  unfold Part.afterTaken; (repeat' split) <;> simp
@[simp] theorem Part.takenEnded_records (w : Word) : (p.takenEnded w).table.records = p.table.records := by
  unfold Part.takenEnded; dsimp only; (repeat' split) <;> simp
@[simp] theorem Part.withdrawEnded_records (w : Word) : (p.withdrawEnded w).table.records = p.table.records := by
  unfold Part.withdrawEnded; split <;> simp

@[simp] theorem Part.parcelCommit_records (new : Vector NodeEntry 48) :
    (p.parcelCommit new).table.records = p.table.records := (p.parcelCommit_keepsUnits new).1

end Sys2Proof.Machine
end

