-- ==== Sys2Proof/Laws/NodeLaw.lean ====
section
/-! SUPPORT. The node table's law (Chapter 1) along the operations that touch a record: state changes, outcomes, commits, the open. -/

namespace Sys2Proof.Machine
/-- The node table's law, of the records alone. -/
def RecordsLaw (rs : Vector NodeRecord 48) : Prop :=
  (∀ i, (rs.get i).lawful) ∧
  ∀ i j, (rs.get i).applied.enabled = true → (rs.get j).applied.enabled = true →
    (rs.get i).applied.address = (rs.get j).applied.address → i = j

theorem RecordsLaw.modify {rs : Vector NodeRecord 48} (h : RecordsLaw rs) (i : NodeIx) (f : NodeRecord → NodeRecord)
    (hl : (f (rs.get i)).lawful) (ha : (f (rs.get i)).applied = (rs.get i).applied) : RecordsLaw (tabModify rs i f) := by
  refine ⟨fun j => ?_, fun j k => ?_⟩
  · rw [tabModify_get]; split
    · subst_vars; exact hl
    · exact h.1 j
  · have e : ∀ j, ((tabModify rs i f).get j).applied = (rs.get j).applied := by
      intro j; rw [tabModify_get]; split
      · subst_vars; exact ha
      · rfl
    rw [e, e]; exact h.2 j k

variable (p : Part)

theorem Part.modNode_law (h : RecordsLaw p.table.records) (i : NodeIx) (f : NodeRecord → NodeRecord)
    (hl : (f (p.node i)).lawful) (ha : (f (p.node i)).applied = (p.node i).applied) :
    RecordsLaw (p.modNode i f).table.records := h.modify i f hl ha

theorem RecordsLaw.congr_node {p q : Part} (h : RecordsLaw p.table.records) (hl : ∀ j, (q.node j).lawful)
    (ha : ∀ j, (q.node j).applied = (p.node j).applied) : RecordsLaw q.table.records := by
  refine ⟨hl, fun j k => ?_⟩
  have := h.2 j k
  change (q.node j).applied.enabled = true → (q.node k).applied.enabled = true → (q.node j).applied.address = (q.node k).applied.address → _
  rw [ha, ha]; exact this

@[simp] theorem NodeRecord.moved_applied (r : NodeRecord) (f : NodeRecord → NodeRecord) (new : NodeState) :
    (r.moved f new).applied = (f r).applied := by
  unfold NodeRecord.moved NodeRecord.leaveService; dsimp only; split <;> rfl

theorem NodeRecord.moved_lawful (r : NodeRecord) (f : NodeRecord → NodeRecord) (new : NodeState) (ha : (f r).applied.inRange)
    (he : (f r).applied.enabled = false ↔ new = .excluded)
    (hs : NodeRecord.stateLaw { f r with state := new }) : (r.moved f new).lawful := by
  unfold NodeRecord.moved NodeRecord.leaveService
  dsimp only
  split
  · rename_i hn
    exact ⟨ha, hs, he, fun k => by rw [hn] at k; cases k⟩
  · exact ⟨ha, hs, he, fun _ => ⟨rfl, rfl⟩⟩

theorem Part.changeState_law (h : RecordsLaw p.table.records) (i : NodeIx) (f : NodeRecord → NodeRecord) (new : NodeState)
    (ha : (f (p.node i)).applied = (p.node i).applied) (he : (p.node i).state ≠ .excluded) (hn : new ≠ .excluded)
    (hs : NodeRecord.stateLaw { f (p.node i) with state := new }) :
    RecordsLaw (p.changeState i f new).table.records := by
  have hr : (p.node i).lawful := h.1 i
  refine h.congr_node (fun j => ?_) (fun j => ?_) <;> rw [Part.changeState_node]
  · split
    · refine NodeRecord.moved_lawful _ _ _ (ha ▸ hr.1) ?_ hs
      rw [ha, hr.2.2.1]; exact ⟨fun k => absurd k he, fun k => absurd k hn⟩
    · exact h.1 j
  · split
    · subst_vars; simp [ha]
    · rfl

theorem NodeRecord.lawful.notExcluded {r : NodeRecord} (hs : r.state ≠ .excluded) (h : r.lawful) : r.applied.enabled = true := by
  cases he : r.applied.enabled
  · exact absurd (h.2.2.1.1 he) hs
  · rfl

@[simp] theorem Part.setLastGood_law (h : RecordsLaw p.table.records) (i : NodeIx) : RecordsLaw (p.setLastGood i).table.records :=
  p.modNode_law h i _ (h.1 i) rfl

theorem Part.goodAnswer_law (h : RecordsLaw p.table.records) (i : NodeIx) (f : NodeRecord → NodeRecord)
    (hi : (p.node i).state.inService = true)
    (ha : (f (p.node i)).applied = (p.node i).applied) (hs : (f (p.node i)).state = (p.node i).state)
    (hc : (f (p.node i)).countdown = (p.node i).countdown) : RecordsLaw (p.goodAnswer i f).table.records := by
  have hr : (p.node i).lawful := h.1 i
  unfold Part.goodAnswer
  dsimp only
  have h0 : (p.node i).countdown = none := by
    have := hr.2.1
    unfold NodeRecord.stateLaw at this
    revert this hi
    cases (p.node i).state <;> simp [NodeState.inService]
  split
  · rename_i hsus
    refine p.changeState_law h i _ _ ha (by rw [hsus]; decide) (by decide) ?_
    simp [NodeRecord.stateLaw, hc, h0]
  · rename_i hns
    have hlive : (p.node i).state = .live := by
      revert hi hns
      cases (p.node i).state <;> simp [NodeState.inService]
    refine p.modNode_law h i _ ?_ ha
    refine ⟨by show NodeEntry.inRange (f (p.node i)).applied; rw [ha]; exact hr.1, ?_, ?_, ?_⟩
    · simp [NodeRecord.stateLaw, hs, hlive, hc, h0]
    · show (f (p.node i)).applied.enabled = false ↔ (f (p.node i)).state = _
      rw [ha, hs]; exact hr.2.2.1
    · show (f (p.node i)).state.inService = false → _
      rw [hs, hlive]; intro k; cases k

@[simp] theorem Part.goodData_law (h : RecordsLaw p.table.records) (i : NodeIx) (f : Frame) :
    RecordsLaw (p.goodData i f).table.records := by
  unfold Part.goodData
  dsimp only
  split
  · rename_i hi
    have hne : (p.node i).state ≠ .excluded := fun k => by rw [k] at hi; cases hi
    split
    · exact p.changeState_law h i _ _ rfl hne (by decide) ⟨rfl, rfl⟩
    · have k := Part.goodAnswer_law (p.writeShadow (p.node i).applied.inOffset f.payload) (by simpa using h) i
        (fun r => { r with fresh := true, degraded := f.flag 1 }) hi rfl rfl rfl
      (repeat' split) <;> simpa using k
  · exact h

@[simp] theorem Part.goodEvent_law (h : RecordsLaw p.table.records) (i : NodeIx) : RecordsLaw (p.goodEvent i).table.records := by
  unfold Part.goodEvent
  split
  · rename_i hi; exact p.goodAnswer_law h i id hi rfl rfl rfl
  · exact h

@[simp] theorem Part.goodIdent_law (h : RecordsLaw p.table.records) (i : NodeIx) (f : Frame) :
    RecordsLaw (p.goodIdent i f).table.records := by
  unfold Part.goodIdent
  dsimp only
  split
  · rename_i hs
    have hr : (p.node i).lawful := h.1 i
    have h0 : (p.node i).countdown = none := by
      have := hr.2.1
      rw [NodeRecord.stateLaw, hs] at this
      exact this.2
    refine p.changeState_law h i _ _ rfl (by rw [hs]; decide) (by split <;> decide) ?_
    split <;> simp [NodeRecord.stateLaw, h0]
  · exact h

theorem loadedCountdown_law (d : Nat) : loadedCountdown d = none ↔ d = 0 := by
  unfold loadedCountdown; split <;> simp_all

@[simp] theorem Part.miss_law (h : RecordsLaw p.table.records) (i : NodeIx) : RecordsLaw (p.miss i).table.records := by
  have hr : (p.node i).lawful := h.1 i
  unfold Part.miss
  dsimp only
  split
  · rename_i hi
    have hne : (p.node i).state ≠ .excluded := fun k => by rw [k] at hi; cases hi
    have h0 : (p.node i).countdown = none := by
      have := hr.2.1
      unfold NodeRecord.stateLaw at this
      revert this hi
      cases (p.node i).state <;> simp [NodeState.inService]
    split
    · rename_i hlim
      refine Part.changeState_law _ (by simpa using h) i _ _ rfl hne (by decide) ?_
      refine ⟨?_, loadedCountdown_law _⟩
      have := hr.2.1
      show (p.node i).missCount + 1 = (p.node i).applied.missLimit
      revert this hi
      have h1 := hr.1.2.2.2.2.2.1
      unfold NodeRecord.stateLaw
      cases (p.node i).state <;> simp [NodeState.inService] <;> omega
    · split
      · rename_i hlim _
        refine Part.changeState_law _ (by simpa using h) i _ _ rfl hne (by decide) ?_
        refine ⟨?_, ?_, h0⟩
        · show 1 ≤ (p.node i).missCount + 1; omega
        · show (p.node i).missCount + 1 < (p.node i).applied.missLimit; omega
      · rename_i hlim hnl
        have hsus : (p.node i).state = .suspect := by
          revert hi hnl
          cases (p.node i).state <;> simp [NodeState.inService]
        have k := Part.modNode_law (p.count .nodeMisses) (by simpa using h) i
          (fun r : NodeRecord => { r with missCount := (p.node i).missCount + 1, missTotal := r.missTotal + 1 })
          ⟨hr.1, by
            have hs' : ((p.count .nodeMisses).node i).state = .suspect := hsus
            simp only [NodeRecord.stateLaw, hs']
            refine ⟨by omega, ?_, h0⟩
            show (p.node i).missCount + 1 < (p.node i).applied.missLimit
            omega, hr.2.2.1, hr.2.2.2⟩ rfl
        simpa using k
  · exact h
@[simp] theorem Part.nodeBid_law (h : RecordsLaw p.table.records) (i : NodeIx) (reason : Byte) :
    RecordsLaw (p.nodeBid i reason).table.records := by
  unfold Part.nodeBid
  split
  · rename_i hs; split
    · simpa using h
    · exact p.changeState_law h i _ _ rfl (by rw [hs]; decide) (by decide) ⟨rfl, rfl⟩
  · rename_i hs; split
    · simpa using h
    · exact p.changeState_law h i _ _ rfl (by rw [hs]; decide) (by decide) ⟨rfl, rfl⟩
  · rename_i hs; exact p.changeState_law h i _ _ rfl (by rw [hs]; decide) (by decide) ⟨rfl, rfl⟩
  all_goals exact h

@[simp] theorem Part.nodeAlert_law (h : RecordsLaw p.table.records) (i : NodeIx) : RecordsLaw (p.nodeAlert i).table.records := by
  unfold Part.nodeAlert
  split
  · simpa using h
  · simpa using h
  · rename_i hs; exact p.changeState_law h i _ _ rfl (by rw [hs]; decide) (by decide) ⟨rfl, rfl⟩
  all_goals exact h

@[simp] theorem Part.statusStep_law (h : RecordsLaw p.table.records) (k : Fin 4) : RecordsLaw (p.statusStep k).table.records := by
  unfold Part.statusStep
  split
  · rename_i w _ _
    split
    · simpa using h
    · have hm := p.modNode_law h w.node (fun r => { r with statusOwed := false }) (h.1 w.node) rfl
      dsimp only
      split <;> simpa using hm
  · exact h

@[simp] theorem Part.oweStatus_law (h : RecordsLaw p.table.records) : RecordsLaw (p.oweStatus).table.records := by
  unfold Part.oweStatus
  split
  · rename_i w _ _
    exact p.modNode_law h w.node _ (h.1 w.node) rfl
  · exact h

@[simp] theorem Part.statusFailed_law (h : RecordsLaw p.table.records) : RecordsLaw (p.statusFailed).table.records := by
  unfold Part.statusFailed
  split <;> simp [h]

@[simp] theorem Part.nodeOpen_law (h : RecordsLaw p.table.records) (exempt : NodeIx → Bool) :
    RecordsLaw (p.nodeOpen exempt).table.records := by
  refine h.congr_node (q := p.nodeOpen exempt) (fun j => ?_) (fun j => ?_)
  · have hr : (p.node j).lawful := h.1 j
    have e : (p.nodeOpen exempt).node j = (p.node j).atOpen (exempt j) := by
      simp [Part.nodeOpen, Part.node]
    rw [e]
    refine ⟨hr.1, ?_, hr.2.2.1, fun k => ⟨(hr.2.2.2 k).1, rfl⟩⟩
    have := hr.2.1
    revert this
    unfold NodeRecord.stateLaw NodeRecord.atOpen
    cases (p.node j).state <;> simp
    intro a b
    refine ⟨a, ?_⟩
    split <;> simp [b]
  · simp [Part.nodeOpen, Part.node, NodeRecord.atOpen]

theorem NodeRecord.reset_lawful : NodeRecord.reset.lawful := by
  refine ⟨?_, ⟨rfl, rfl⟩, ⟨fun _ => rfl, fun _ => rfl⟩, fun _ => ⟨rfl, rfl⟩⟩
  simp [NodeEntry.inRange, NodeRecord.reset, NodeEntry.cleared]

theorem RecordsLaw.reset : RecordsLaw NodeTable.reset.records := by
  have e : ∀ i, NodeTable.reset.records.get i = NodeRecord.reset := by decide
  refine ⟨fun i => ?_, fun i j hi => ?_⟩
  · rw [e]; exact NodeRecord.reset_lawful
  · rw [e] at hi; cases hi

@[simp] theorem Part.pollNext_law (h : RecordsLaw p.table.records) : RecordsLaw (p.pollNext).table.records := by
  unfold Part.pollNext
  split
  · simpa using h
  · rename_i i _ _
    have hm := p.modNode_law h i (fun r => { r with pollTotal := r.pollTotal + 1 }) (h.1 i) rfl
    simpa using hm
  · simpa using h

theorem Part.keepStatusWord_law (h : RecordsLaw p.table.records) (s : Startup) (i : NodeIx) (k : Nat) (w : Word) :
    RecordsLaw (p.keepStatusWord s i k w).1.table.records := by
  unfold Part.keepStatusWord
  split
  · exact h
  split
  · exact p.modNode_law h i _ (h.1 i) rfl
  split
  · exact h
  · exact h

@[simp] theorem Part.startupStep_law (h : RecordsLaw p.table.records) (w : Word) : RecordsLaw (p.startupStep w).table.records := by
  unfold Part.startupStep
  split
  · exact h
  · split
    case h_7 i k _ =>
      rename_i s _ _ _
      have hk := p.keepStatusWord_law h s i k.val w
      revert hk
      generalize p.keepStatusWord s i k.val w = q
      intro hk
      dsimp only
      (repeat' split) <;> simpa using hk
    all_goals
      (repeat' split) <;> simpa using h

@[simp] theorem Part.appendFailed_law (h : RecordsLaw p.table.records) : RecordsLaw (p.appendFailed).table.records := by
  unfold Part.appendFailed
  split
  · split
    · simpa using h
    · split
      · rename_i i _ _ _
        have hm := p.modNode_law h i (fun r => { r with statusOwed := true }) (h.1 i) rfl
        simpa using hm
      · simpa using h
  · exact h

theorem Part.queueStatus_node (i j : NodeIx) (cause : Bool) : (p.queueStatus i cause).node j = p.node j := by
  simp [Part.node]
theorem Part.eventCleared_node (i j : NodeIx) : (p.eventCleared i).node j = p.node j := by
  simp [Part.node]
theorem Part.eventLeaves_node (i j : NodeIx) : (p.eventLeaves i).node j = p.node j := by
  simp [Part.node]

theorem Part.commitNode_other (i j : NodeIx) (new : NodeEntry) (hij : i ≠ j) : (p.commitNode i new).node j = p.node j := by
  unfold Part.commitNode
  dsimp only
  (repeat' split) <;>
    simp [Part.moveNode_node, Part.queueStatus_node, Part.eventCleared_node, Part.eventLeaves_node, Part.modNode_node, hij]

theorem Part.commitNode_applied (i : NodeIx) (new : NodeEntry) : ((p.commitNode i new).node i).applied = new := by
  unfold Part.commitNode
  dsimp only
  (repeat' split) <;>
    simp [Part.moveNode_node, Part.queueStatus_node, Part.eventCleared_node, Part.eventLeaves_node, Part.modNode_node,
      NodeRecord.toProbing]

theorem keptCountdown_law (c : Option Nat) (d : Nat) : keptCountdown c d = none ↔ d = 0 := by
  unfold keptCountdown
  split
  · exact loadedCountdown_law d
  · split <;> simp_all

theorem Part.commitNode_lawful (i : NodeIx) (new : NodeEntry) (hr : (p.node i).lawful) (hn : new.inRange) :
    ((p.commitNode i new).node i).lawful := by
  obtain ⟨h1, h2, h3, h4⟩ := hr
  unfold Part.commitNode
  dsimp only
  split
  · rename_i he
    have he : new.enabled = false := by simpa using he
    split
    · rename_i hs
      have k : NodeRecord.lawful { p.node i with applied := new, missCount := 0, countdown := none } := by
        refine ⟨hn, ?_, ⟨fun _ => hs, fun _ => he⟩, h4⟩
        simp [NodeRecord.stateLaw, hs]
      split <;> simpa [Part.queueStatus_node, Part.modNode_node] using k
    · rw [Part.moveNode_node]; simp only [if_true]
      exact NodeRecord.moved_lawful _ _ _ hn ⟨fun _ => rfl, fun _ => he⟩ ⟨rfl, rfl⟩
  · rename_i he
    have he : new.enabled = true := by simpa using he
    split
    · split
      · rename_i hs
        have k : NodeRecord.lawful ({ p.node i with applied := new }).toProbing := by
          refine ⟨hn, ?_, ⟨fun k => ?_, fun k => ?_⟩, h4⟩
          · simp [NodeRecord.stateLaw, NodeRecord.toProbing, hs]
          · change new.enabled = false at k; rw [he] at k; cases k
          · change (p.node i).state = _ at k; rw [hs] at k; cases k
        split <;> simpa [Part.queueStatus_node, Part.modNode_node, Part.eventCleared_node] using k
      · rw [Part.moveNode_node]; simp only [if_true, Part.eventCleared_node]
        refine NodeRecord.moved_lawful _ _ _ hn ⟨fun k => ?_, fun k => by cases k⟩ ⟨rfl, rfl⟩
        change new.enabled = false at k; rw [he] at k; cases k
    · rename_i hc
      have hen : (p.node i).applied.enabled = true := by
        cases hx : (p.node i).applied.enabled
        · exact absurd (by simp [recreates, he, hx]) hc
        · rfl
      have hne : (p.node i).state ≠ .excluded := fun k => by rw [h3.2 k] at hen; cases hen
      have hx : (new.enabled = false ↔ (p.node i).state = .excluded) :=
        ⟨fun k => (by rw [he] at k; cases k), fun k => absurd k hne⟩
      have hq : (if (p.node i).applied.eventsEnabled && !new.eventsEnabled then p.eventLeaves i else p).node i =
          p.node i := by
        split
        · exact p.eventLeaves_node i i
        · rfl
      revert hq
      generalize (if (p.node i).applied.eventsEnabled && !new.eventsEnabled then p.eventLeaves i else p) = q
      intro hq
      split
      · rw [Part.moveNode_node]; simp only [if_true, hq]
        refine NodeRecord.moved_lawful _ _ _ hn ⟨fun k => ?_, fun k => by cases k⟩ ⟨rfl, loadedCountdown_law _⟩
        change new.enabled = false at k; rw [he] at k; cases k
      split
      · rename_i hs
        have k : NodeRecord.lawful { p.node i with
            applied := new, missCount := new.missLimit, countdown := keptCountdown (p.node i).countdown new.reprobeDelay } := by
          refine ⟨hn, ?_, hx, h4⟩
          simp [NodeRecord.stateLaw, hs, keptCountdown_law]
        split <;> simpa [Part.queueStatus_node, Part.modNode_node, hq] using k
      · rename_i hl hs
        have k : NodeRecord.lawful { p.node i with applied := new } := by
          refine ⟨hn, ?_, hx, h4⟩
          revert h2 hl hs hne
          simp only [NodeRecord.stateLaw, NodeRecord.limitReached]
          cases (p.node i).state <;> simp +contextual
        split <;> simpa [Part.queueStatus_node, Part.modNode_node, hq] using k

/-- The records after a commit: each has the new entry applied and is lawful. -/
theorem Part.commit_foldl (new : Vector NodeEntry 48) (l : List NodeIx) (hl : ∀ i, (p.node i).lawful)
    (hn : ∀ i, (new.get i).inRange) :
    let q := l.foldl (fun p i => p.commitNode i (new.get i)) p
    (∀ i, (q.node i).lawful) ∧ (∀ i ∈ l, (q.node i).applied = new.get i) ∧
      ∀ i, (p.node i).applied = new.get i → (q.node i).applied = new.get i := by
  induction l generalizing p with
  | nil => exact ⟨hl, by simp, fun i h => h⟩
  | cons x xs ih =>
    have step : ∀ i, ((p.commitNode x (new.get x)).node i).lawful := by
      intro i
      by_cases hx : x = i
      · subst hx; exact p.commitNode_lawful x _ (hl x) (hn x)
      · rw [p.commitNode_other x i _ hx]; exact hl i
    have app : ∀ i, (p.node i).applied = new.get i → ((p.commitNode x (new.get x)).node i).applied = new.get i := by
      intro i h
      by_cases hx : x = i
      · subst hx; exact p.commitNode_applied x _
      · rw [p.commitNode_other x i _ hx]; exact h
    obtain ⟨k1, k2, k3⟩ := ih (p.commitNode x (new.get x)) step
    refine ⟨k1, fun i hi => ?_, fun i h => k3 i (app i h)⟩
    rcases List.mem_cons.1 hi with rfl | hi
    · exact k3 _ (p.commitNode_applied _ _)
    · exact k2 i hi

/-- A commit of entries in range with distinct addresses keeps the node table's law. -/
theorem Part.nodeCommit_law (h : RecordsLaw p.table.records) (new : Vector NodeEntry 48) (size : Nat)
    (hn : ∀ i, (new.get i).inRange)
    (hd : ∀ i j, (new.get i).enabled = true → (new.get j).enabled = true → (new.get i).address = (new.get j).address → i = j) :
    RecordsLaw (p.nodeCommit new size).table.records := by
  unfold Part.nodeCommit
  dsimp only
  have e : ∀ i, Part.node (allNodes.foldl (fun p i => p.lossAfter i (new.get i) size)
      (allNodes.foldl (fun p i => p.lossBefore i (new.get i) size) p)) i = p.node i := by
    intro i
    unfold Part.node
    rw [foldl_keeps (fun q : Part => q.table.records), foldl_keeps (fun q : Part => q.table.records)] <;> simp
  obtain ⟨k1, k2, _⟩ := Part.commit_foldl _ new allNodes (fun i => by rw [e]; exact h.1 i) hn
  refine ⟨k1, fun i j => ?_⟩
  have a := fun i => k2 i (List.mem_finRange i)
  change (Part.node _ i).applied.enabled = true → (Part.node _ j).applied.enabled = true →
    (Part.node _ i).applied.address = (Part.node _ j).applied.address → _
  rw [a, a]
  exact hd i j

/-! ## What an accepted directory holds -/

theorem firstBad_none (b : DirEntry → Bool) (before : List NodeEntry) (l : List (NodeIx × DirEntry))
    (h : firstBad (fun _ d => b d) before l = none) : ∀ e ∈ l, b e.2 = false := by
  induction l generalizing before with
  | nil => simp
  | cons x xs ih =>
    obtain ⟨i, d⟩ := x
    simp only [firstBad] at h
    split at h
    · cases h
    · rename_i hb
      intro e he
      rcases List.mem_cons.1 he with rfl | he
      · simpa using hb
      · exact ih _ h e he

theorem firstBad_none_alike (before : List NodeEntry) (l : List (NodeIx × DirEntry))
    (h : firstBad (fun before d => before.any fun e => e.address == d.entry.address) before l = none) :
    (∀ e ∈ l, ∀ b ∈ before, b.address ≠ e.2.entry.address) ∧
    l.Pairwise fun a b => a.2.entry.address ≠ b.2.entry.address := by
  induction l generalizing before with
  | nil => simp
  | cons x xs ih =>
    obtain ⟨i, d⟩ := x
    simp only [firstBad] at h
    split at h
    · cases h
    · rename_i hb
      obtain ⟨h1, h2⟩ := ih _ h
      refine ⟨fun e he b hm => ?_, List.pairwise_cons.2 ⟨fun e he => h1 e he _ (by simp), h2⟩⟩
      rcases List.mem_cons.1 he with rfl | he
      · intro k; exact hb (List.any_eq_true.2 ⟨b, hm, by simpa using k⟩)
      · exact h1 e he b (by simp [hm])

theorem NodeEntry.cleared_inRange : NodeEntry.cleared.inRange := by
  simp [NodeEntry.inRange, NodeEntry.cleared]

theorem Directory.mem_enabled (d : Directory) (i : NodeIx) (h : (d.entries.get i).entry.enabled = true) :
    (i, d.entries.get i) ∈ d.enabled := by
  unfold Directory.enabled
  rw [List.mem_filter]
  exact ⟨List.mem_map.2 ⟨i, List.mem_finRange i, rfl⟩, h⟩

/-- The one-byte fields that validation leaves without an upper bound of its own hold a byte. -/
def Directory.bytesOk (d : Directory) : Prop :=
  ∀ i, (d.entries.get i).entry.replyTimeout ≤ 255 ∧ (d.entries.get i).entry.reprobeDelay ≤ 255

theorem directoryOf_bytesOk (words : List Word) : (directoryOf words).bytesOk := by
  intro i
  simp only [directoryOf, tabMap_get, entryOf]
  exact ⟨Nat.le_of_lt_succ (byteAt _ _).isLt, Nat.le_of_lt_succ (byteAt _ _).isLt⟩

/-- An accepted directory's entries are in range, and their line addresses distinct (R137, R138). -/
theorem judge_accepted (d : Directory) (a : Option LineSettings) (hb : d.bytesOk) (h : (judge d a).code = .accepted) :
    (∀ i, (d.entries.get i).applied.inRange) ∧
    ∀ i j, (d.entries.get i).applied.enabled = true → (d.entries.get j).applied.enabled = true →
      (d.entries.get i).applied.address = (d.entries.get j).applied.address → i = j := by
  unfold judge at h
  dsimp only at h
  split at h
  · cases h
  split at h
  · cases h
  split at h
  · cases h
  split at h
  · cases h
  rename_i h1 _ h2 _ h3
  have a1 := firstBad_none _ _ _ h1
  have a2 := (firstBad_none_alike _ _ h2).2
  have a3 := firstBad_none _ _ _ h3
  refine ⟨fun i => ?_, fun i j hi hj hij => ?_⟩
  · unfold DirEntry.applied
    split
    · rename_i he
      have m := d.mem_enabled i he
      have b1 := a1 _ m
      have b3 := a3 _ m
      simp only [Bool.not_eq_false', NodeEntry.addressValid, isLineAddress, DirEntry.timingValid, Bool.and_eq_true,
        Bool.or_eq_true, decide_eq_true_eq, beq_iff_eq] at b1 b3
      simp only [NodeEntry.inRange, List.mem_cons, List.not_mem_nil, or_false]
      have := Config.maxAddress
      refine ⟨by tauto, by tauto, by tauto, by tauto, by tauto, by tauto, by tauto, by tauto, (hb i).1, (hb i).2, fun _ => ?_⟩
      simpa [Config.maxAddress] using b1
    · exact NodeEntry.cleared_inRange
  · unfold DirEntry.applied at hi hj hij
    have ei : (d.entries.get i).entry.enabled = true := by
      by_contra k; simp [k, NodeEntry.cleared] at hi
    have ej : (d.entries.get j).entry.enabled = true := by
      by_contra k; simp [k, NodeEntry.cleared] at hj
    rw [if_pos ei, if_pos ej] at hij
    by_contra hne
    have _ : Std.Symm fun a b : NodeIx × DirEntry => a.2.entry.address ≠ b.2.entry.address := ⟨fun _ _ h => h.symm⟩
    exact List.Pairwise.forall a2 (d.mem_enabled i ei) (d.mem_enabled j ej) (by simp [hne]) hij

theorem Part.acceptCommit_law (h : RecordsLaw p.table.records) (d : Directory) (c : Check) (v : Verdict) (a : Option LineSettings)
    (hb : d.bytesOk) (hd : (judge d a).code = .accepted) : RecordsLaw (p.acceptCommit d c v).table.records := by
  obtain ⟨h1, h2⟩ := judge_accepted d a hb hd
  unfold Part.acceptCommit
  extract_lets before new oldSize q0 q1 q2 q3 q4 q5 q6
  have k1 : RecordsLaw q1.table.records :=
    Part.nodeCommit_law q0 (by simpa [q0] using h) new _ (by simpa [new] using h1) (by simpa [new] using h2)
  have k5 : RecordsLaw q5.table.records := by simpa [q2, q3, q4, q5] using k1
  have k6 : RecordsLaw q6.table.records := by
    simp only [q6]
    split
    · exact q5.nodeOpen_law k5 _
    · simpa [foldl_keeps (fun q : Part => q.table.records)] using k5
    · exact k5
    · exact k5
  simpa using k6

@[simp] theorem Part.judgeCopy_law (h : RecordsLaw p.table.records) (c : Check) : RecordsLaw (p.judgeCopy c).table.records := by
  unfold Part.judgeCopy
  have hb := directoryOf_bytesOk c.words.reverse
  generalize directoryOf c.words.reverse = d at hb ⊢
  dsimp only
  generalize hj : judge d _ = j
  split
  · rename_i k; exact p.acceptCommit_law h d c _ _ hb (by rw [hj]; exact k)
  · simpa using h

@[simp] theorem Part.copyRead_law (h : RecordsLaw p.table.records) (c : Check) : RecordsLaw (p.copyRead c).table.records := by
  unfold Part.copyRead; split <;> simp [h]

@[simp] theorem Part.judgeKept_law (h : RecordsLaw p.table.records) : RecordsLaw (p.judgeKept).table.records := by
  unfold Part.judgeKept; (repeat' split) <;> simp [h]

end Sys2Proof.Machine
end

