-- ==== Sys2Proof/Laws/NodeLawSteps.lean ====
section
/-! SUPPORT. The node table's law along every operation of the part that may touch a record (Chapter 1). -/

namespace Sys2Proof.Machine
variable (p : Part)
theorem Part.reprobe_law (h : RecordsLaw p.table.records) (i : NodeIx) (hs : (p.node i).state ≠ .excluded) :
    RecordsLaw (p.reprobe i).table.records :=
  p.changeState_law h i _ _ rfl hs (by decide) ⟨rfl, rfl⟩
@[simp] theorem Part.takeSlot_law (h : RecordsLaw p.table.records) (report : SlotReport) :
    RecordsLaw (p.takeSlot report).table.records := by
  unfold Part.takeSlot; (repeat' split) <;> simp [h]
@[simp] theorem Part.checkEnd_law (h : RecordsLaw p.table.records) (origin : CheckFrom) :
    RecordsLaw (p.checkEnd origin).table.records := by
  unfold Part.checkEnd; dsimp only; split
  · split
    · simpa using Part.nodeOpen_law _ (by simpa using h) _
    · simpa using h
  all_goals (repeat' split) <;> simpa using h
@[simp] theorem Part.generationRead_law (h : RecordsLaw p.table.records) (c : Check) (g : Word) :
    RecordsLaw (p.generationRead c g).table.records := by
  have k : RecordsLaw (Part.checkEnd (p.modLoader fun l => { l with refused := none }) c.origin).table.records :=
    Part.checkEnd_law (p.modLoader _) h _
  unfold Part.generationRead; dsimp only; (repeat' split) <;> first | exact k | simp [h]
@[simp] theorem Part.continueCheck_law (h : RecordsLaw p.table.records) (w : Word) :
    RecordsLaw (p.continueCheck w).table.records := by
  have k : ∀ q : Part, q.table.records = p.table.records → ∀ c, RecordsLaw (q.checkAt c).table.records := by
    intro q hq c; simpa [hq] using h
  have e : ∀ q : Part, q.table.records = p.table.records → ∀ o, RecordsLaw (q.checkEnd o).table.records :=
    fun q hq o => q.checkEnd_law (hq ▸ h) o
  unfold Part.continueCheck; dsimp only
  (repeat' split) <;>
    first
      | with_reducible exact h
      | with_reducible refine k _ ?_ _; simp
      | with_reducible refine e _ ?_ _; simp
      | with_reducible exact Part.generationRead_law _ h _ _
      | with_reducible exact Part.copyRead_law _ h _
@[simp] theorem Part.checkFailed_law (h : RecordsLaw p.table.records) : RecordsLaw (p.checkFailed).table.records := by
  unfold Part.checkFailed; (repeat' split) <;> simp [h]
@[simp] theorem Part.fetchGood_law (h : RecordsLaw p.table.records) (i : NodeIx) (ack : Option Byte) (f : Frame) :
    RecordsLaw (p.fetchGood i ack f).table.records := by
  simp [Part.fetchGood, h]
@[simp] theorem Part.fetchAttemptFailed_law (h : RecordsLaw p.table.records) (i : NodeIx) :
    RecordsLaw (p.fetchAttemptFailed i).table.records := by
  have k : RecordsLaw (p.releasePlace.miss i).table.records := Part.miss_law p.releasePlace h i
  unfold Part.fetchAttemptFailed; (repeat' split) <;> simp [h, k]
@[simp] theorem Part.pollAttemptFailed_law (h : RecordsLaw p.table.records) (i : NodeIx) :
    RecordsLaw (p.pollAttemptFailed i).table.records := by
  have k : ∀ q : Part, RecordsLaw q.table.records → RecordsLaw ((q.miss i).pollNext).table.records :=
    fun q hq => Part.pollNext_law _ (q.miss_law hq i)
  unfold Part.pollAttemptFailed; dsimp only; split
  · exact k _ (by simpa using h)
  · simpa using h
@[simp] theorem Part.takeOutcome_law (h : RecordsLaw p.table.records) (ex : Exchange) (reply : Option Frame) :
    RecordsLaw (p.takeOutcome ex reply).table.records := by
  unfold Part.takeOutcome; split <;> simp [h]
@[simp] theorem Part.slotEnd_law (h : RecordsLaw p.table.records) (heard : SlotHeard) :
    RecordsLaw (p.slotEnd heard).table.records := by
  unfold Part.slotEnd; dsimp only; (repeat' split) <;> simp [h]
@[simp] theorem Part.resetWorkingUnits_law :
    RecordsLaw (p.resetWorkingUnits).table.records := RecordsLaw.reset
@[simp] theorem Part.enterStarting_law (area : Word) (r : Request) :
    RecordsLaw (p.enterStarting area r).table.records := by
  unfold Part.enterStarting; dsimp only; split <;> simp
@[simp] theorem Part.takeRequest_law (h : RecordsLaw p.table.records) (area : Word) (r : Request) :
    RecordsLaw (p.takeRequest area r).table.records := by
  unfold Part.takeRequest; dsimp only; (repeat' split) <;> simp [h]
@[simp] theorem Part.requestWritten_law (h : RecordsLaw p.table.records) (area : Word) (r : Request) :
    RecordsLaw (p.requestWritten area r).table.records := by
  unfold Part.requestWritten; split <;> simp [h]
@[simp] theorem Part.takePending_law (h : RecordsLaw p.table.records) (area : Word) :
    RecordsLaw (p.takePending area).table.records := by
  unfold Part.takePending; (repeat' split) <;> simp [h]
@[simp] theorem Part.serviceOutcome_law (h : RecordsLaw p.table.records) (ex : Exchange) (reply : Option Frame) :
    RecordsLaw (p.serviceOutcome ex reply).table.records := by
  have k : ∀ i, RecordsLaw (p.releasePlace.miss i).table.records := Part.miss_law p.releasePlace h
  unfold Part.serviceOutcome; (repeat' split) <;> simp [h, k]
@[simp] theorem Part.takeAlert_law (h : RecordsLaw p.table.records) (address : Byte) :
    RecordsLaw (p.takeAlert address).table.records := by
  unfold Part.takeAlert; dsimp only; (repeat' split) <;> simp [h]
@[simp] theorem Part.unsolicitedFrame_law (h : RecordsLaw p.table.records) (frame : Option Frame) :
    RecordsLaw (p.unsolicitedFrame frame).table.records := by
  unfold Part.unsolicitedFrame; (repeat' split) <;> simp [h]
@[simp] theorem Part.unsolicitedItems_law (h : RecordsLaw p.table.records) (items : List LineItem) :
    RecordsLaw (p.unsolicitedItems items).table.records := by
  have k : ∀ l : List (Option Frame), ∀ q : Part, RecordsLaw q.table.records →
      RecordsLaw (l.foldl Part.unsolicitedFrame q).table.records := by
    intro l
    induction l with
    | nil => exact fun _ h => h
    | cons x xs ih => exact fun q h => ih _ (q.unsolicitedFrame_law h x)
  exact k _ p h
@[simp] theorem Part.holdFrameSent_law (h : RecordsLaw p.table.records) (area : Word) :
    RecordsLaw (p.holdFrameSent area).table.records := by
  unfold Part.holdFrameSent; dsimp only
  exact Part.takePending_law _ (by split <;> simpa using h) _
@[simp] theorem Part.restFrameSent_law (h : RecordsLaw p.table.records) (area : Word) :
    RecordsLaw (p.restFrameSent area).table.records := by
  simp [Part.restFrameSent, h]
@[simp] theorem Part.settleExpired_law (h : RecordsLaw p.table.records) (area : Word) :
    RecordsLaw (p.settleExpired area).table.records := by
  simp [Part.settleExpired, h]
@[simp] theorem Part.accessDone_law (h : RecordsLaw p.table.records) (source : Source) (w : Word) :
    RecordsLaw (p.accessDone source w).table.records := by
  unfold Part.accessDone; (repeat' split) <;> simp [h]
@[simp] theorem Part.blockFailed_law (h : RecordsLaw p.table.records) (source : Source) :
    RecordsLaw (p.blockFailed source).table.records := by
  unfold Part.blockFailed; (repeat' split) <;> simp [h]
@[simp] theorem Part.startupLoss_law (h : RecordsLaw p.table.records) (source : Source) :
    RecordsLaw (p.startupLoss source).table.records := by
  unfold Part.startupLoss; (repeat' split) <;> simp [h]
@[simp] theorem Part.accessFailed_law (h : RecordsLaw p.table.records) (a : Access) :
    RecordsLaw (p.accessFailed a).table.records := by
  unfold Part.accessFailed; dsimp only; (repeat' split) <;> simp [h]
@[simp] theorem Part.writeCause_law (h : RecordsLaw p.table.records) (area : Word) (v : Byte) :
    RecordsLaw (p.writeCause area v).table.records := by
  have k : ∀ q : Part, q.table.records = p.table.records → RecordsLaw (q.takePending area).table.records :=
    fun q e => q.takePending_law (e ▸ h) area
  unfold Part.writeCause; dsimp only; (repeat' split) <;>
    first
      | exact k _ (by simp [Part.clearFault]) | simpa [Part.clearFault] using h
@[simp] theorem Part.returnOutcome_law (h : RecordsLaw p.table.records) : RecordsLaw (p.returnOutcome).table.records := by
  have k : ∀ q : Part, q.table.records = p.table.records → ∀ ex r, RecordsLaw (q.takeOutcome ex r).table.records :=
    fun q e => q.takeOutcome_law (e ▸ h)
  have s : ∀ q : Part, q.table.records = p.table.records → ∀ ex r, RecordsLaw (q.serviceOutcome ex r).table.records :=
    fun q e => q.serviceOutcome_law (e ▸ h)
  unfold Part.returnOutcome; dsimp only; (repeat' split) <;>
    first
      | with_reducible exact h
      | with_reducible refine k _ ?_ _ _; simp
      | with_reducible refine s _ ?_ _ _; simp
      | simpa using h
@[simp] theorem Part.carrier_law (h : RecordsLaw p.table.records) (items : List LineItem) :
    RecordsLaw (p.carrier items).table.records := by
  unfold Part.carrier; (repeat' split) <;> simp [h]

end Sys2Proof.Machine
end

