-- ==== Sys2Proof/WellFormed.lean ====
section
/-! DEFINITION. What a command's operands must satisfy to describe something that can reach the part. The machine itself takes
every command; a command outside these checks stands for nothing on the pins. -/

namespace Sys2Proof

/-- A 32-bit access of the register window stands at a multiple of 4 (R173: "32-bit accesses at the six register
offsets", and the two unused offsets). -/
def PortAccess.aligned (a : PortAccess) : Bool :=
  a.narrow || a.offset.toNat % 4 == 0

/-- A frame or stretch of carrier begins with something on the line, not with a gap (R54, R61). -/
def startsWithCarrier : List LineItem → Bool
  | [] => false
  | .gap :: _ => false
  | _ :: _ => true

/-- What stands for a byte begins with its start bit (R46). -/
def LineItem.starts : LineItem → Bool
  | .serial bits => !bits.getLsbD 0
  | .violation | .gap | .present => true

/-- Nothing in the items tells of carrier that was on the line before. -/
def beginsNow (items : List LineItem) : Bool := !items.contains .present

/-- Carrier that was on the line as the reply timer started can only stand at the head of a reply (R53; log 10). -/
def presentAtHeadOnly (items : List LineItem) : Bool := beginsNow (items.drop 1)

/-- What begins in a slot begins with something on the line (R62). With nothing begun, `overruns` tells of the frame that was arriving
as the slot began (log 43). -/
def SlotHeard.wellFormed (h : SlotHeard) : Bool :=
  match h.items with
  | [] => true
  | items => startsWithCarrier items && beginsNow items && items.all LineItem.starts

/-- Whether a command's operands describe something that can reach the part. -/
def Instr.wellFormed : Instr → Bool
  | .portMisuse a => a.aligned
  | .replyFrameEnd items => startsWithCarrier items && presentAtHeadOnly items && items.all LineItem.starts
  | .unsolicitedFrame items => startsWithCarrier items && beginsNow items && items.all LineItem.starts
  | .slotEnd h _ => h.wellFormed
  | .fullReset _ | .softReset _ | .softResetTakesEffect | .requestRun _ | .requestHold _ | .requestRest _
  | .requestStill _ | .nudge | .areaWrite _ | .causeWrite _ | .maskWrite _ | .faultViewWrite _
  | .startupStepComplete _ | .cycleTimerExpiry | .reprobeCountdownExpiry _ | .patienceExpiry _ | .statPeriodExpiry
  | .openReady _ | .frameStart | .requestSent | .replyTimerLimit | .lineClash | .guardEnd _ | .appendComplete
  | .eventsTakenRead _ _ | .withdrawCheck _ _ | .abandonSent _ | .slotVisit _ | .answerWriteComplete
  | .holdWordRead _ | .inputPublish | .cycleDivisorReached | .closeComplete | .holdFrameSent | .heldLineQuiet
  | .heldServiceEntry | .alert _ | .restFrameSent | .lineActivity | .rouseFrameSent | .rouseTimerExpiry
  | .settleTimerExpiry | .memoryAccessComplete _ _ | .memoryErrorResponse _ | .snapshotEnd | .resetNRelease => true

end Sys2Proof
end

