-- ==== Sys2Proof/Laws/PerInstr.lean ====
section
/-! SUPPORT. Facts that hold of every command as syntax, one lemma per constructor: which operands are well formed, and that the
table's bits spell no command. -/

namespace Sys2Proof.Laws

/-! ## Which operands describe something that can reach the part -/

/-- Something stands on the line first, not a gap (R54, R61, R62). -/
def Carrier (items : List LineItem) : Prop := ∃ x rest, items = x :: rest ∧ x ≠ .gap

theorem startsWithCarrier_iff (items : List LineItem) : startsWithCarrier items = true ↔ Carrier items := by
  rcases items with _ | ⟨x, rest⟩
  · simp [startsWithCarrier, Carrier]
  · cases x <;> simp [startsWithCarrier, Carrier]

theorem beginsNow_iff (items : List LineItem) : beginsNow items = true ↔ .present ∉ items := by
  simp [beginsNow]

theorem starts_iff (items : List LineItem) :
    items.all LineItem.starts = true ↔ ∀ bits, .serial bits ∈ items → bits.getLsbD 0 = false := by
  simp only [List.all_eq_true]
  refine ⟨fun h bits hb => by simpa [LineItem.starts] using h _ hb, fun h item hi => ?_⟩
  cases item <;> simp_all [LineItem.starts]

/-- A command is well formed exactly if its access is aligned or narrow (R173), its frame begins with carrier (R54, R61), or what begins
in its slot, if anything, begins with carrier (R62), and carrier that was on the line before stands at the head of a reply only (R53),
and each byte on the line begins with its start bit (R46); every other command always is. -/
def WellFormedExactly.Statement (i : Instr) : Prop :=
  i.wellFormed = true ↔
    match i with
    | .portMisuse a => a.narrow = true ∨ a.offset.toNat % 4 = 0
    | .replyFrameEnd items => (Carrier items ∧ .present ∉ items.drop 1) ∧ ∀ bits, .serial bits ∈ items → bits.getLsbD 0 = false
    | .unsolicitedFrame items => (Carrier items ∧ .present ∉ items) ∧ ∀ bits, .serial bits ∈ items → bits.getLsbD 0 = false
    | .slotEnd h _ =>
      h.items = [] ∨ (Carrier h.items ∧ .present ∉ h.items) ∧ ∀ bits, .serial bits ∈ h.items → bits.getLsbD 0 = false
    | _ => True

namespace WellFormedExactly

theorem fullReset (pinLow : Bool) : Statement (.fullReset pinLow) := iff_true_intro rfl
theorem softReset (control : Word) : Statement (.softReset control) := iff_true_intro rfl
theorem softResetTakesEffect : Statement .softResetTakesEffect := iff_true_intro rfl
theorem requestRun (nudge : Bool) : Statement (.requestRun nudge) := iff_true_intro rfl
theorem requestHold (nudge : Bool) : Statement (.requestHold nudge) := iff_true_intro rfl
theorem requestRest (nudge : Bool) : Statement (.requestRest nudge) := iff_true_intro rfl
theorem requestStill (nudge : Bool) : Statement (.requestStill nudge) := iff_true_intro rfl
theorem nudge : Statement .nudge := iff_true_intro rfl
theorem areaWrite (value : Word) : Statement (.areaWrite value) := iff_true_intro rfl
theorem causeWrite (value : Word) : Statement (.causeWrite value) := iff_true_intro rfl
theorem maskWrite (value : Word) : Statement (.maskWrite value) := iff_true_intro rfl
theorem faultViewWrite (value : Word) : Statement (.faultViewWrite value) := iff_true_intro rfl
theorem portMisuse (access : PortAccess) : Statement (.portMisuse access) := by simp [Statement, Instr.wellFormed, PortAccess.aligned]
theorem startupStepComplete (host : Option Word) : Statement (.startupStepComplete host) := iff_true_intro rfl
theorem cycleTimerExpiry : Statement .cycleTimerExpiry := iff_true_intro rfl
theorem reprobeCountdownExpiry (node : NodeIx) : Statement (.reprobeCountdownExpiry node) := iff_true_intro rfl
theorem patienceExpiry (slot : SlotIx) : Statement (.patienceExpiry slot) := iff_true_intro rfl
theorem statPeriodExpiry : Statement .statPeriodExpiry := iff_true_intro rfl
theorem openReady (dt : Nat) : Statement (.openReady dt) := iff_true_intro rfl
theorem frameStart : Statement .frameStart := iff_true_intro rfl
theorem requestSent : Statement .requestSent := iff_true_intro rfl
theorem replyTimerLimit : Statement .replyTimerLimit := iff_true_intro rfl
theorem replyFrameEnd (items : List LineItem) : Statement (.replyFrameEnd items) := by
  simp only [Statement, Instr.wellFormed, presentAtHeadOnly, Bool.and_eq_true, startsWithCarrier_iff, beginsNow_iff, starts_iff]
theorem lineClash : Statement .lineClash := iff_true_intro rfl
theorem guardEnd (dt : Nat) : Statement (.guardEnd dt) := iff_true_intro rfl
theorem slotEnd (heard : SlotHeard) (dt : Nat) : Statement (.slotEnd heard dt) := by
  obtain ⟨items, o⟩ := heard
  rcases items with _ | ⟨x, rest⟩
  · simp [Statement, Instr.wellFormed, SlotHeard.wellFormed, Carrier]
  · simp only [Statement, Instr.wellFormed, SlotHeard.wellFormed, Bool.and_eq_true, startsWithCarrier_iff, beginsNow_iff, starts_iff]
    simp
theorem appendComplete : Statement .appendComplete := iff_true_intro rfl
theorem eventsTakenRead (host : Option Word) (dt : Nat) : Statement (.eventsTakenRead host dt) := iff_true_intro rfl
theorem withdrawCheck (host : Option Word) (dt : Nat) : Statement (.withdrawCheck host dt) := iff_true_intro rfl
theorem abandonSent (dt : Nat) : Statement (.abandonSent dt) := iff_true_intro rfl
theorem slotVisit (host : Option Word) : Statement (.slotVisit host) := iff_true_intro rfl
theorem answerWriteComplete : Statement .answerWriteComplete := iff_true_intro rfl
theorem holdWordRead (host : Option Word) : Statement (.holdWordRead host) := iff_true_intro rfl
theorem inputPublish : Statement .inputPublish := iff_true_intro rfl
theorem cycleDivisorReached : Statement .cycleDivisorReached := iff_true_intro rfl
theorem closeComplete : Statement .closeComplete := iff_true_intro rfl
theorem holdFrameSent : Statement .holdFrameSent := iff_true_intro rfl
theorem heldLineQuiet : Statement .heldLineQuiet := iff_true_intro rfl
theorem heldServiceEntry : Statement .heldServiceEntry := iff_true_intro rfl
theorem alert (address : Byte) : Statement (.alert address) := iff_true_intro rfl
theorem unsolicitedFrame (items : List LineItem) : Statement (.unsolicitedFrame items) := by
  simp only [Statement, Instr.wellFormed, Bool.and_eq_true, startsWithCarrier_iff, beginsNow_iff, starts_iff]
theorem restFrameSent : Statement .restFrameSent := iff_true_intro rfl
theorem lineActivity : Statement .lineActivity := iff_true_intro rfl
theorem rouseFrameSent : Statement .rouseFrameSent := iff_true_intro rfl
theorem rouseTimerExpiry : Statement .rouseTimerExpiry := iff_true_intro rfl
theorem settleTimerExpiry : Statement .settleTimerExpiry := iff_true_intro rfl
theorem memoryAccessComplete (host : Option Word) (dt : Nat) : Statement (.memoryAccessComplete host dt) := iff_true_intro rfl
theorem memoryErrorResponse (dt : Nat) : Statement (.memoryErrorResponse dt) := iff_true_intro rfl
theorem snapshotEnd : Statement .snapshotEnd := iff_true_intro rfl
theorem resetNRelease : Statement .resetNRelease := iff_true_intro rfl

end WellFormedExactly

/-! ## The table gives no bits -/

/-- No word spells the command (spec/opcode_table.json gives its row no bits). -/
def NoWordSpells.Statement (i : Instr) : Prop := ∀ nbits w : Nat, decodeTableWord nbits w ≠ some i

theorem decodeTableWord_none (nbits w : Nat) : decodeTableWord nbits w = none := rfl

namespace NoWordSpells

theorem fullReset (pinLow : Bool) : Statement (.fullReset pinLow) := fun _ _ => nofun
theorem softReset (control : Word) : Statement (.softReset control) := fun _ _ => nofun
theorem softResetTakesEffect : Statement .softResetTakesEffect := fun _ _ => nofun
theorem requestRun (nudge : Bool) : Statement (.requestRun nudge) := fun _ _ => nofun
theorem requestHold (nudge : Bool) : Statement (.requestHold nudge) := fun _ _ => nofun
theorem requestRest (nudge : Bool) : Statement (.requestRest nudge) := fun _ _ => nofun
theorem requestStill (nudge : Bool) : Statement (.requestStill nudge) := fun _ _ => nofun
theorem nudge : Statement .nudge := fun _ _ => nofun
theorem areaWrite (value : Word) : Statement (.areaWrite value) := fun _ _ => nofun
theorem causeWrite (value : Word) : Statement (.causeWrite value) := fun _ _ => nofun
theorem maskWrite (value : Word) : Statement (.maskWrite value) := fun _ _ => nofun
theorem faultViewWrite (value : Word) : Statement (.faultViewWrite value) := fun _ _ => nofun
theorem portMisuse (access : PortAccess) : Statement (.portMisuse access) := fun _ _ => nofun
theorem startupStepComplete (host : Option Word) : Statement (.startupStepComplete host) := fun _ _ => nofun
theorem cycleTimerExpiry : Statement .cycleTimerExpiry := fun _ _ => nofun
theorem reprobeCountdownExpiry (node : NodeIx) : Statement (.reprobeCountdownExpiry node) := fun _ _ => nofun
theorem patienceExpiry (slot : SlotIx) : Statement (.patienceExpiry slot) := fun _ _ => nofun
theorem statPeriodExpiry : Statement .statPeriodExpiry := fun _ _ => nofun
theorem openReady (dt : Nat) : Statement (.openReady dt) := fun _ _ => nofun
theorem frameStart : Statement .frameStart := fun _ _ => nofun
theorem requestSent : Statement .requestSent := fun _ _ => nofun
theorem replyTimerLimit : Statement .replyTimerLimit := fun _ _ => nofun
theorem replyFrameEnd (items : List LineItem) : Statement (.replyFrameEnd items) := fun _ _ => nofun
theorem lineClash : Statement .lineClash := fun _ _ => nofun
theorem guardEnd (dt : Nat) : Statement (.guardEnd dt) := fun _ _ => nofun
theorem slotEnd (heard : SlotHeard) (dt : Nat) : Statement (.slotEnd heard dt) := fun _ _ => nofun
theorem appendComplete : Statement .appendComplete := fun _ _ => nofun
theorem eventsTakenRead (host : Option Word) (dt : Nat) : Statement (.eventsTakenRead host dt) := fun _ _ => nofun
theorem withdrawCheck (host : Option Word) (dt : Nat) : Statement (.withdrawCheck host dt) := fun _ _ => nofun
theorem abandonSent (dt : Nat) : Statement (.abandonSent dt) := fun _ _ => nofun
theorem slotVisit (host : Option Word) : Statement (.slotVisit host) := fun _ _ => nofun
theorem answerWriteComplete : Statement .answerWriteComplete := fun _ _ => nofun
theorem holdWordRead (host : Option Word) : Statement (.holdWordRead host) := fun _ _ => nofun
theorem inputPublish : Statement .inputPublish := fun _ _ => nofun
theorem cycleDivisorReached : Statement .cycleDivisorReached := fun _ _ => nofun
theorem closeComplete : Statement .closeComplete := fun _ _ => nofun
theorem holdFrameSent : Statement .holdFrameSent := fun _ _ => nofun
theorem heldLineQuiet : Statement .heldLineQuiet := fun _ _ => nofun
theorem heldServiceEntry : Statement .heldServiceEntry := fun _ _ => nofun
theorem alert (address : Byte) : Statement (.alert address) := fun _ _ => nofun
theorem unsolicitedFrame (items : List LineItem) : Statement (.unsolicitedFrame items) := fun _ _ => nofun
theorem restFrameSent : Statement .restFrameSent := fun _ _ => nofun
theorem lineActivity : Statement .lineActivity := fun _ _ => nofun
theorem rouseFrameSent : Statement .rouseFrameSent := fun _ _ => nofun
theorem rouseTimerExpiry : Statement .rouseTimerExpiry := fun _ _ => nofun
theorem settleTimerExpiry : Statement .settleTimerExpiry := fun _ _ => nofun
theorem memoryAccessComplete (host : Option Word) (dt : Nat) : Statement (.memoryAccessComplete host dt) := fun _ _ => nofun
theorem memoryErrorResponse (dt : Nat) : Statement (.memoryErrorResponse dt) := fun _ _ => nofun
theorem snapshotEnd : Statement .snapshotEnd := fun _ _ => nofun
theorem resetNRelease : Statement .resetNRelease := fun _ _ => nofun

end NoWordSpells

end Sys2Proof.Laws
end

