-- ==== Sys2Proof/Laws/Phases.lean ====
section
/-! SUPPORT. The optional phases as the model runs them: each operation that begins a phase or serves an entry stands in the relation of
Safety.lean that says what the phase does; so do a sighting and an answer's writes. -/

namespace Sys2Proof.Machine
variable (p : Part)

/-! ## Time -/

theorem Scheduler.timeLeft_iff : p.sched.timeLeft = true ↔ p.beforeExpiry 0 := by
  unfold Scheduler.timeLeft Part.beforeExpiry
  cases p.sched.timer <;> simp

theorem Part.fits_iff (bt : Nat) : p.fits bt = true ↔ p.fitsIn 0 bt := by
  unfold Part.fits Part.fitsIn
  rw [Bool.and_eq_true, Scheduler.timeLeft_iff]
  refine and_congr_right fun _ => ?_
  cases h : p.sched.timer <;> simp [budgetTime, Config.closeAllowance]
  exact decide_eq_true_iff

theorem Part.passTime_fitsIn (dt bt : Nat) : (p.passTime dt).fitsIn 0 bt ↔ p.fitsIn dt bt := by
  unfold Part.fitsIn Part.beforeExpiry Part.passTime Part.modSched
  cases h : p.sched.timer <;> simp [h]
  omega

/-! ## The parcel phase -/

theorem Part.nameExchange_given (e : Parcel) (bt : Nat) (f : Parcel → Parcel) (ex : Exchange) (frame : List Byte) :
    p.parcelGiven (p.nameExchange e bt f ex frame) 0 bt ex frame := by
  unfold Part.nameExchange Part.parcelGiven
  rw [← Part.fits_iff]
  split <;> simp_all [Part.gives, Part.give, Part.modSched, Part.enterClosing, Part.beginClose]

theorem lastSegment_eq (n : Nat) : lastSegment n = (n + 47) / 48 - 1 := rfl

theorem Part.nameSeg_given (e : Parcel) : p.segGiven (p.nameSeg e) 0 e e.transfer.segment := by
  unfold Part.segGiven Part.nameSeg
  simp only [segmentByte, lastSegment_eq, parcelTag, beq_eq_decide]
  exact p.nameExchange_given _ _ _ _ _

theorem Part.nameNext_given (e : Parcel) (n : Nat) : p.nextGiven (p.nameNext e n) 0 e n := p.nameExchange_given _ _ _ _ _

theorem Part.nameAbandon_given (e : Parcel) : p.abandonGiven (p.nameAbandon e) 0 e := p.nameExchange_given _ _ _ _ _

/-- An entry is served as R118 and R119 say. -/
theorem Part.serveParcel_served (e : Parcel) : p.parcelServed (p.serveParcel e) 0 e := by
  unfold Part.parcelServed Part.serveParcel
  cases e.transfer
  case asking n => exact p.nameNext_given e n
  case finishing => exact p.nameAbandon_given e
  all_goals simp [Part.readWithdraw, Part.issueRead, Part.issue, Part.asks, Part.requested, Part.modSched, Config.offSlot,
    Config.offSlots, Nat.mul_comm]

/-- The parcel phase begins as R39 and R118 say. -/
theorem Part.parcelPhase_begins : p.parcelPhaseBegins p.parcelPhase 0 := by
  let q : Part := { p.newPass with parcels := { p.newPass.parcels with
    queue := p.newPass.parcels.queue.map fun (e : Parcel) => { e with passed := false } } }
  have hq : p.parcelPhase = q.parcelNext := rfl
  let g : Parcel → Parcel := fun e => { e with given := false, passed := false }
  have hqueue : q.parcels.queue = p.parcels.queue.map g := by simp [q, g, Part.newPass, Function.comp_def]
  have helig : ∀ e, q.parcelEligible (g e) = p.parcelEligible e := by
    intro e
    have hnode : ∀ i, q.node i = p.node i := fun _ => rfl
    unfold Part.parcelEligible
    rw [hnode, hqueue]
    simp only [g, List.all_map, List.takeWhile_map, Function.comp_def, Parcel.inTransfer]
  have hoff : q.offered 0 = (p.parcels.queue.find? p.parcelEligible).map g := by
    unfold Part.offered
    rw [List.drop_zero, hqueue, List.find?_map]
    congr 2
    funext e
    simp only [Function.comp_def, helig, g]
    simp
  unfold Part.parcelPhaseBegins
  rw [hq]
  unfold Part.parcelNext
  have hpos : q.parcels.passPos.getD 0 = 0 := rfl
  have hnamed : q.parcels.passNamed = false := rfl
  rw [hpos, hnamed, hoff]
  cases hf : p.parcels.queue.find? p.parcelEligible with
  | none => simp [Part.enterClosing, Part.beginClose, Part.modSched]
  | some e => exact q.serveParcel_served (g e)

/-! ## The fetch phase -/

theorem EventUnit.freePlaces_pos (e : EventUnit) : 0 < e.freePlaces ↔ e.hasPlace := by
  unfold EventUnit.freePlaces EventUnit.hasPlace EventUnit.backlog
  by_cases h : e.takenInvalid || e.appendStopped
  · simp only [h, if_true]
    simp_all
    intro h'; simp_all
  · simp only [h]
    simp_all [Config.eventRecords]
    exact ⟨fun k => by omega, fun k => by omega⟩

@[simp] theorem Part.enterClosing_events : p.enterClosing.events = p.events := rfl
@[simp] theorem Part.nameExchange_events (e : Parcel) (bt : Nat) (f : Parcel → Parcel) (ex : Exchange) (frame : List Byte) :
    (p.nameExchange e bt f ex frame).events = p.events := by
  unfold Part.nameExchange; split <;> rfl
@[simp] theorem Part.serveParcel_events (e : Parcel) : (p.serveParcel e).events = p.events := by
  unfold Part.serveParcel
  cases e.transfer
  case asking n => exact p.nameExchange_events _ _ _ _ _
  case finishing => exact p.nameExchange_events _ _ _ _ _
  all_goals rfl
@[simp] theorem Part.parcelNext_events : p.parcelNext.events = p.events := by
  unfold Part.parcelNext; dsimp only; (repeat' split) <;> simp [Part.newPass]
@[simp] theorem Part.parcelPhase_events : p.parcelPhase.events = p.events := by
  simp [Part.parcelPhase, Part.newPass]

/-- A named node's FETCH is given where it fits, and its place released where it does not (R38). -/
theorem Part.beginFetch_asked (i : NodeIx) :
    (p.fitsIn 0 (38 + p.replyTime i) →
      (p.beginFetch i).sched.state = .fetching ∧ (p.beginFetch i).sched.attempts = (p.node i).applied.retries ∧
      (p.beginFetch i).events.claimed = p.events.claimed + 1 ∧ (p.beginFetch i).gives (.fetch i (p.ackOf i))
        (fetchFrame (p.addressOf i) (p.ackOf i))) ∧
    (¬ p.fitsIn 0 (38 + p.replyTime i) →
      (p.beginFetch i).events.claimed = p.events.claimed ∧ p.parcelPhaseBegins (p.beginFetch i) 0) := by
  have hfit : (p.nameNode i).fits ((p.nameNode i).fetchWorst i) = true ↔ p.fitsIn 0 (38 + p.replyTime i) := by
    rw [Part.fits_iff]; rfl
  have hack : (p.nameNode i).ackOf i = p.ackOf i := by
    simp [Part.ackOf, Part.nameNode, Part.claimPlace, Part.modEvents, Part.nodeEvents]
    rfl
  constructor <;> intro h
  · simp only [Part.beginFetch, hfit, h, if_true]
    refine ⟨rfl, rfl, rfl, rfl, rfl, ?_, ?_⟩
    · exact congrArg (fun a => some (Exchange.fetch i a)) hack
    · exact congrArg (fetchFrame (p.addressOf i)) hack
  · simp only [Part.beginFetch, hfit, h, if_false]
    refine ⟨by simp [Part.nameNode, Part.claimPlace, Part.modEvents], ?_⟩
    exact (p.nameNode i).releasePlace.parcelPhase_begins

/-- The event unit is asked as R38 and R96 say. -/
theorem Part.fetchNext_asked : p.fetchAsked p.fetchNext 0 fun i => (p.nodeEvents i).eligible := by
  unfold Part.fetchAsked Part.fetchNext Part.firstEligible
  cases hf : p.events.queue.find? fun i => (p.nodeEvents i).eligible with
  | none => exact ⟨by simp, p.parcelPhase_begins⟩
  | some i =>
    have ⟨hy, hn⟩ := p.beginFetch_asked i
    have hack : p.ackOf i = if (p.nodeEvents i).ackOwed then some (p.nodeEvents i).accepted else none := rfl
    have hframe : fetchFrame (p.addressOf i) (p.ackOf i) =
        encodeFrame .fetch (if (p.nodeEvents i).ackOwed then 1 else 0) (p.node i).applied.address
          [if (p.nodeEvents i).ackOwed then (p.nodeEvents i).accepted else 0] := by
      rw [hack]; unfold fetchFrame ackFlag Part.addressOf; split <;> rfl
    rw [hframe, hack] at hy
    simp only [← EventUnit.freePlaces_pos]
    by_cases hp : 0 < p.events.freePlaces
    · simp only [hp, if_true, not_true, true_implies, false_implies, and_true]
      exact ⟨hy, hn⟩
    · simp only [hp, if_false, not_false_eq_true, true_implies, false_implies, true_and]
      unfold Part.requestTaken
      cases ht : p.events.takenRead <;>
        simp_all [Part.modSched, Part.issueRead, Part.issue, Part.asks, Part.requested, Config.offEventsTaken]

/-- The fetch phase begins as R96 says. -/
theorem Part.fetchPhase_begins : p.fetchPhaseBegins p.fetchPhase 0 := by
  have h := p.newRound.fetchNext_asked
  have hel : (fun i => (p.newRound.nodeEvents i).eligible) = fun i => !(p.nodeEvents i).intake := by
    funext i; simp [Part.newRound, Part.nodeEvents, NodeEvents.eligible]
  rw [hel] at h
  unfold Part.fetchPhaseBegins Part.fetchPhase
  have hev : ∀ i, (p.newRound.nodeEvents i).ackOwed = (p.nodeEvents i).ackOwed ∧
      (p.newRound.nodeEvents i).accepted = (p.nodeEvents i).accepted := by
    intro i; simp [Part.newRound, Part.nodeEvents]
  unfold Part.fetchAsked at *
  simp only [hev] at h
  exact h

/-! ## The window phase -/

theorem WindowSize.halve_slots (w : WindowSize) : w.halve.slots = max 2 (w.slots / 2) := by cases w <;> rfl

/-- A fetch phase that begins after the window unit changed begins as without the change. -/
theorem Part.fetchPhase_begins_windowNotFitted (fault : Bool) : p.fetchPhaseBegins (p.windowNotFitted fault).fetchPhase 0 := by
  have h := (p.windowNotFitted fault).fetchPhase_begins
  unfold Part.windowNotFitted at *
  split at h <;> rename_i hf <;> simp only [hf, if_true] <;> exact h

/-- The optional phases begin as R37, R82 and R89 say. -/
theorem Part.windowPhase_begins : p.optionalPhasesBegin p.windowPhase 0 := by
  have hdue : p.sched.windowDue = true ↔ p.sched.interval ≠ 0 ∧ p.sched.cycle.toNat % p.sched.interval = 0 := by
    simp [Scheduler.windowDue]
  have hfit : p.fits (windowWorst p.windows.size) = true ↔ p.fitsIn 0 (11 + 12 * p.windows.size.slots) := p.fits_iff _
  unfold Part.optionalPhasesBegin Part.windowPhase
  dsimp only
  rw [← hdue, ← hfit, ← Scheduler.timeLeft_iff]
  split
  · split
    · rename_i hd hf
      exact ⟨fun _ _ => ⟨rfl, rfl, ⟨rfl, rfl, rfl, rfl⟩, rfl⟩, fun _ h => absurd hf h, fun h => absurd hd h⟩
    · rename_i hd hf
      refine ⟨fun _ h => absurd h hf, fun _ _ => ⟨fun ht => ?_, fun ht => ?_, p.fetchPhase_begins_windowNotFitted _⟩,
        fun h => absurd hd h⟩
      · simp [ht, Part.windowNotFitted, Part.modWindows, WindowSize.halve_slots]
      · simp [ht, Part.windowNotFitted]
  · rename_i hd
    exact ⟨fun h => absurd h hd, fun h => absurd h hd, fun _ => ⟨by simp, p.fetchPhase_begins⟩⟩

/-! ## The stray set -/

/-- A sighting is taken as R90 and R91 say. -/
theorem sight_sighted (before : List Stray) (address : Byte) (origin : StrayOrigin) (kind : Byte) :
    sighted before address origin kind (sight before address origin kind) := by
  unfold sighted sight
  have hany : before.any (·.address == address) = true ↔ ∃ e ∈ before, e.address = address := by simp
  by_cases h : ∃ e ∈ before, e.address = address
  · simp only [hany.2 h, h, if_true]
    refine ⟨by simp, fun k e e' he he' => ?_⟩
    simp only [List.getElem?_map, he, Option.map_some, Option.some.injEq] at he'
    subst he'
    by_cases ha : e.address = address <;> simp [ha, Stray.sightedAgain]
  · simp only [h, if_false]
    simp [mt hany.1 h, Config.strayEntries, Stray.first]

/-! ## The words of an answer -/

theorem packWords_length (n : Nat) (bytes : List Byte) : (packWords n bytes).length = n := by
  induction n generalizing bytes with
  | zero => rfl
  | succ n ih => simp [packWords, ih]

theorem wordOf_byte (b0 b1 b2 b3 : Byte) (b : Fin 4) :
    (wordOf b0 b1 b2 b3).extractLsb' (8 * b.val) 8 = [b0, b1, b2, b3].getD b.val 0 := by
  have h (i : Nat) : (wordOf b0 b1 b2 b3).getLsbD i =
      if i < 8 then b0.getLsbD i else if i < 16 then b1.getLsbD (i - 8) else if i < 24 then b2.getLsbD (i - 16)
      else b3.getLsbD (i - 24) := by
    unfold wordOf
    simp only [BitVec.getLsbD_append]
    repeat' split
    all_goals first | rfl | omega
  apply BitVec.eq_of_getLsbD_eq
  intro i hi
  rw [BitVec.getLsbD_extractLsb', h]
  match b with
  | 0 | 1 | 2 | 3 => simp [hi]; try (repeat' split) <;> first | rfl | omega

theorem packWords_byte (n : Nat) (bytes : List Byte) (k : Nat) (word : Word) (b : Fin 4) (h : (packWords n bytes)[k]? = some word) :
    word.extractLsb' (8 * b.val) 8 = bytes.getD (4 * k + b.val) 0 := by
  induction n generalizing bytes k with
  | zero => simp [packWords] at h
  | succ n ih =>
    cases k with
    | zero =>
      simp only [packWords, List.getElem?_cons_zero, Option.some.injEq] at h
      rw [← h, wordOf_byte]
      match b with
      | 0 | 1 | 2 | 3 => simp
    | succ k =>
      simp only [packWords, List.getElem?_cons_succ] at h
      rw [ih _ _ h]
      simp only [List.getD_eq_getElem?_getD, List.getElem?_drop]
      congr 2; omega

theorem wordsAt_eq (offset : Nat) (words : List Word) : wordsAt offset words = words.mapIdx fun k w => (offset + 4 * k, w) := by
  induction words generalizing offset with
  | nil => rfl
  | cons w rest ih =>
    simp only [wordsAt, ih, List.mapIdx_cons]
    simp [Nat.add_assoc, Nat.mul_add, Nat.add_comm]

/-- An entry's answer is written as R127 says. -/
theorem Parcel.answerWrites_answeredBy (e : Parcel) : e.answeredBy e.answerWrites := by
  unfold Parcel.answeredBy Parcel.answerWrites
  have hc : e.outcome.carriesReply = true ↔ e.outcome = .done ∨ e.outcome = .nodeRejected := by cases e.outcome <;> decide
  simp only [hc]
  generalize (if e.outcome = .done ∨ e.outcome = .nodeRejected then e.total else 0) = length
  refine ⟨packWords ((length + 3) / 4) (e.reply.take length), packWords_length _ _, fun k word b h => ?_, ?_⟩
  · rw [packWords_byte _ _ _ _ b h]
    simp only [List.getD_eq_getElem?_getD, List.getElem?_take]
    split <;> rfl
  · rw [wordsAt_eq]
    cases e.outcome <;> rfl

/-! ## The timer moved before the phase -/

theorem Part.passTime_beforeExpiry (dt : Nat) : (p.passTime dt).beforeExpiry 0 ↔ p.beforeExpiry dt := by
  unfold Part.beforeExpiry Part.passTime Part.modSched
  cases h : p.sched.timer <;> simp [h]

theorem Part.passTime_parcelGiven (t : Part) (dt bt : Nat) (ex : Exchange) (bytes : List Byte) :
    (p.passTime dt).parcelGiven t 0 bt ex bytes ↔ p.parcelGiven t dt bt ex bytes := by
  unfold Part.parcelGiven; rw [Part.passTime_fitsIn]

theorem Part.passTime_parcelServed (t : Part) (dt : Nat) (e : Parcel) :
    (p.passTime dt).parcelServed t 0 e ↔ p.parcelServed t dt e := by
  unfold Part.parcelServed
  cases e.transfer
  case asking n => exact p.passTime_parcelGiven _ _ _ _ _
  case finishing => exact p.passTime_parcelGiven _ _ _ _ _
  all_goals rfl

theorem Part.passTime_parcelPhaseBegins (t : Part) (dt : Nat) :
    (p.passTime dt).parcelPhaseBegins t 0 ↔ p.parcelPhaseBegins t dt := by
  unfold Part.parcelPhaseBegins
  have h : (p.passTime dt).parcels.queue.find? (p.passTime dt).parcelEligible = p.parcels.queue.find? p.parcelEligible := rfl
  rw [h]
  split
  · exact p.passTime_parcelServed _ _ _
  · rfl

theorem Part.passTime_fetchAsked (t : Part) (dt : Nat) (eligible : NodeIx → Bool) :
    (p.passTime dt).fetchAsked t 0 eligible ↔ p.fetchAsked t dt eligible := by
  unfold Part.fetchAsked
  have h : (p.passTime dt).events.queue.find? eligible = p.events.queue.find? eligible := rfl
  rw [h]
  split
  · rw [Part.passTime_parcelPhaseBegins]; rfl
  · simp only [Part.passTime_fitsIn, Part.passTime_parcelPhaseBegins]; rfl

theorem Part.passTime_optionalPhasesBegin (t : Part) (dt : Nat) :
    (p.passTime dt).optionalPhasesBegin t 0 ↔ p.optionalPhasesBegin t dt := by
  unfold Part.optionalPhasesBegin Part.fetchPhaseBegins
  simp only [Part.passTime_fitsIn, Part.passTime_beforeExpiry, Part.passTime_fetchAsked]; rfl
end Sys2Proof.Machine
end

