-- ==== Sys2Proof/Laws/RestParcels.lean ====
section
/-! SUPPORT. The parcel unit at rest (R129): what its triggers and the ends of its accesses do there, said once each, and that what comes
about of itself outside RUN leaves the parcel unit as it is. -/

namespace Sys2Proof.Machine

variable (p : Part)

/-- At rest a scan trigger is kept, and nothing else of it happens. -/
theorem Part.scanTrigger_rests (h : p.ladder.state.pauses = true) :
    p.scanTrigger = { p with parcels := { p.parcels with keptTrigger := true } } := by
  simp [Part.scanTrigger, h]

/-- At rest the end of an access is kept, and nothing else of it happens. -/
theorem Part.takeParcelEnd_rests (h : p.ladder.state.pauses = true) (e : ParcelEnd) :
    p.takeParcelEnd e = { p with parcels := { p.parcels with keptEnd := some e } } := by
  simp [Part.takeParcelEnd, h]

/-- Elsewhere the parcel unit acts on the end at once. -/
theorem Part.takeParcelEnd_works (h : p.ladder.state.pauses = false) (e : ParcelEnd) : p.takeParcelEnd e = p.parcelEnd e := by
  simp [Part.takeParcelEnd, h]

/-- No access of the parcel unit is lost as RESTING is entered: it stays, or is parked. -/
theorem Part.parkParcels_mem (a : Access) : a ∈ p.parkParcels.requested ↔ a ∈ p.requested := by
  have h : a ∈ p.bus ↔ a ∈ p.bus.take 1 ∨ a ∈ p.bus.drop 1 := by rw [← List.mem_append, List.take_append_drop]
  simp only [Part.parkParcels, Part.requested, List.mem_append, List.mem_filter, h]
  cases a.source.isParcels <;> simp <;> grind

@[simp] theorem Part.issueStatus_parcels (i : NodeIx) (k : Fin 4) : (p.issueStatus i k).parcels = p.parcels := by
  simp [Part.issueStatus]
@[simp] theorem Part.startStatus_parcels : (p.startStatus).parcels = p.parcels := by
  unfold Part.startStatus; split <;> simp
@[simp] theorem Part.queueStatus_parcels (i : NodeIx) (cause : Bool) : (p.queueStatus i cause).parcels = p.parcels := by
  unfold Part.queueStatus; dsimp only; (repeat' split) <;> simp
@[simp] theorem Part.writeOwed_parcels : (p.writeOwed).parcels = p.parcels := by
  simp [Part.writeOwed, foldl_keeps (fun q : Part => q.parcels)]
@[simp] theorem Part.newRound_parcels : (p.newRound).parcels = p.parcels := rfl
@[simp] theorem Part.nameNode_parcels (i : NodeIx) : (p.nameNode i).parcels = p.parcels := by
  simp [Part.nameNode]
@[simp] theorem Part.startAppend_parcels : (p.startAppend).parcels = p.parcels := by
  unfold Part.startAppend; split <;> simp
@[simp] theorem Part.requestTaken_parcels (onFetch : Bool) : (p.requestTaken onFetch).parcels = p.parcels := by
  unfold Part.requestTaken; split <;> simp
@[simp] theorem Part.settleNodeOpen_parcels : (p.settleNodeOpen).parcels = p.parcels := by
  unfold Part.settleNodeOpen; dsimp only; (repeat' split) <;> simp
@[simp] theorem Part.checkAt_parcels (c : Check) : (p.checkAt c).parcels = p.parcels := by
  unfold Part.checkAt; split <;> simp
@[simp] theorem Part.beginCheck_parcels (origin : CheckFrom) : (p.beginCheck origin).parcels = p.parcels := by
  simp [Part.beginCheck]
@[simp] theorem Part.settleCheck_parcels : (p.settleCheck).parcels = p.parcels := by
  unfold Part.settleCheck; (repeat' split) <;> simp
@[simp] theorem Part.snapshotAt_parcels (s : Snapshot) : (p.snapshotAt s).parcels = p.parcels := by
  simp [Part.snapshotAt]
@[simp] theorem Part.beginSnapshot_parcels : (p.beginSnapshot).parcels = p.parcels := by
  simp [Part.beginSnapshot]
@[simp] theorem Part.triggerSnapshot_parcels : (p.triggerSnapshot).parcels = p.parcels := by
  unfold Part.triggerSnapshot; (repeat' split) <;> simp
@[simp] theorem Part.settleSnapshot_parcels : (p.settleSnapshot).parcels = p.parcels := by
  unfold Part.settleSnapshot; split <;> simp
@[simp] theorem Part.giveFetch_parcels (i : NodeIx) : (p.giveFetch i).parcels = p.parcels := by
  simp [Part.giveFetch]
@[simp] theorem Part.startupFail_parcels : (p.startupFail).parcels = p.parcels := by
  simp [Part.startupFail]
@[simp] theorem Part.startupRead_parcels (s : Startup) (pos : StartPos) (offset : Nat) :
    (p.startupRead s pos offset).parcels = p.parcels := by
  simp [Part.startupRead]
@[simp] theorem Part.settleStartup_parcels : (p.settleStartup).parcels = p.parcels := by
  unfold Part.settleStartup; (repeat' split) <;> simp
@[simp] theorem Part.endService_parcels : (p.endService).parcels = p.parcels := by
  unfold Part.endService; dsimp only; (repeat' split) <;> simp
@[simp] theorem Part.serveNode_parcels (i : NodeIx) : (p.serveNode i).parcels = p.parcels := by
  simp [Part.serveNode]
@[simp] theorem Part.serviceName_parcels (i : NodeIx) : (p.serviceName i).parcels = p.parcels := by
  unfold Part.serviceName; split <;> simp
@[simp] theorem Part.serviceNext_parcels : (p.serviceNext).parcels = p.parcels := by
  unfold Part.serviceNext; dsimp only; (repeat' split) <;> simp
@[simp] theorem Part.settleService_parcels : (p.settleService).parcels = p.parcels := by
  unfold Part.settleService; (repeat' split) <;> simp

/-- The end of start-up enters no RUN of itself. -/
theorem Part.settleStartup_notRun (h : p.ladder.state ≠ .run) : p.settleStartup.ladder.state ≠ .run := by
  unfold Part.settleStartup; (repeat' split) <;> simp [h, Part.startupFail, Part.startupRead]

/-- What comes about of itself outside RUN leaves the parcel unit as it is. -/
theorem Part.settle_parcels (h : p.ladder.state ≠ .run) : p.settle.parcels = p.parcels := by
  have k : p.settleNodeOpen.settleCheck.settleStartup.ladder.state ≠ .run := Part.settleStartup_notRun _ (by simp [h])
  simp [Part.settle, Part.settleParcelOpen, k]

end Sys2Proof.Machine
end

