-- ==== Sys2Proof/Tests/Slice0.lean ====
section
/-! SUPPORT. Tests: ill-formed terms refused, values of the spec's tables and examples, one step of each family, and for each statement
with hypotheses a state that meets them. -/

namespace Sys2Proof.Tests

open Sys2Proof.Machine

/-! ## Ill-formed operands are refused -/

theorem test_unaligned_wide_access_is_refused :
    (Instr.portMisuse { offset := 0x02, write := true, data := 0, narrow := false }).wellFormed = false := by decide

theorem test_reply_frame_without_carrier_is_refused : (Instr.replyFrameEnd []).wellFormed = false := by decide

theorem test_reply_frame_that_begins_with_a_gap_is_refused :
    (Instr.replyFrameEnd [.gap, .byte 0xD3]).wellFormed = false := by decide

theorem test_unsolicited_frame_that_begins_with_a_gap_is_refused :
    (Instr.unsolicitedFrame [.gap]).wellFormed = false := by decide

theorem test_carrier_on_the_line_already_stands_at_the_head_of_a_reply_only :
    (Instr.replyFrameEnd [.present, .byte 0xD3]).wellFormed = true ∧
    (Instr.replyFrameEnd [.byte 0xD3, .present]).wellFormed = false ∧
    (Instr.unsolicitedFrame [.present]).wellFormed = false ∧
    (Instr.slotEnd { items := [.present], overruns := false } 0).wellFormed = false := by decide

theorem test_slot_that_a_frame_runs_through_is_accepted :
    (Instr.slotEnd { items := [], overruns := true } 0).wellFormed = true := by decide

theorem test_slot_that_begins_with_a_gap_is_refused :
    (Instr.slotEnd { items := [.gap, .byte 0], overruns := false } 0).wellFormed = false := by decide

theorem test_byte_without_a_start_bit_is_refused :
    (Instr.replyFrameEnd [.serial 0x3FF]).wellFormed = false ∧ (Instr.unsolicitedFrame [.serial 0x3FF]).wellFormed = false ∧
    (Instr.slotEnd { items := [.serial 0x3FF], overruns := false } 0).wellFormed = false ∧
    (Instr.replyFrameEnd [.serial 0x1A6]).wellFormed = true := by decide

theorem test_well_formed_commands_are_accepted :
    (Instr.portMisuse { offset := 0x18, write := false, data := 0, narrow := false }).wellFormed = true ∧
    (Instr.replyFrameEnd [.byte 0xD3]).wellFormed = true ∧
    (Instr.slotEnd { items := [], overruns := false } 0).wellFormed = true ∧
    (Instr.slotEnd { items := [.violation], overruns := true } 0).wellFormed = true ∧ Instr.nudge.wellFormed = true := by
  decide

/-! ## Frames (Chapter 3, Section 11.3) -/

set_option maxRecDepth 8000 in
/-- R49: over the characters "123456789" the check is 0x29B1. -/
theorem test_crc_of_the_nine_digits :
    crc16 [0x31, 0x32, 0x33, 0x34, 0x35, 0x36, 0x37, 0x38, 0x39] = 0x29B1 := by decide

/-- Table 3-9: the POLL to 17 with ACKV, ack 41, TGL 0, LEN 9. -/
theorem test_poll_frame_of_the_example :
    (pollFrame 17 (some 41) false [1, 2, 3, 4, 5, 6, 7, 8]).take 13 =
      [0xD3, 0x09, 17, 9, 41, 1, 2, 3, 4, 5, 6, 7, 8] := by decide

/-- Section 11.3: HEAD of a HOLD frame. -/
theorem test_hold_frame_bytes : (encodeFrame .hold 0 0 []).take 4 = [0xD3, 0x40, 0, 0] := by decide

/-- R46: SYNC, 0xD3, on the line: a start bit, its bits 1 1 0 0 1 0 1 1 least significant first, a stop bit; without the stop bit it is
no byte. -/
theorem test_sync_in_its_ten_bit_times :
    (List.range 10).map (serialBits 0xD3).getLsbD = [false, true, true, false, false, true, false, true, true, true] ∧
    LineItem.byte? (.serial 0b1110100110) = some 0xD3 ∧ LineItem.byte? (.serial 0b0110100110) = none := by decide

/-- R46: a HOLD frame is sent in 60 bit times. -/
theorem test_bits_of_a_hold_frame :
    let f := { FrameEngine.reset with state := .sending, onLine := true, tx := encodeFrame .hold 0 0 [] }
    f.transmits.length = 60 ∧ f.transmits.take 10 = (List.range 10).map (serialBits 0xD3).getLsbD ∧
    { f with onLine := false }.transmits = [] := by decide

set_option maxRecDepth 8000 in
/-- R46, R54: an intact ALERT, and the same with the stop bit of its last byte missing. -/
theorem test_framing_error_damages_its_frame :
    let alert := alertItems 9
    (receiveFrame alert).isSome = true ∧
    receiveFrame (alert.take 5 ++ [.serial 0b0000000010]) = none ∧ framesHeard [.serial 0b0110100110] = [none] := by decide

/-- R54: LEN above 64, and a frame cut by a gap. -/
theorem test_damaged_frames :
    receiveFrame [.byte 0xD3, .byte 0x88, .byte 17, .byte 65] = none ∧
    receiveFrame ([.byte 0xD3, .byte 0xC0, .gap, .byte 9, .byte 0]) = none := by decide

set_option maxRecDepth 8000 in
/-- R61: an intact ALERT is received with its sender's address. -/
theorem test_alert_is_received : (receiveFrame (alertItems 9)).map (·.isGoodAlert) = some true := by decide

/-- R57: the tag of slot 9, ask number 0x1235. -/
theorem test_parcel_tag : parcelTag 9 0x1235 = 0x59 := by decide

/-- Section 7.5: 240 bytes take five segments, the last of index 4; none takes one. -/
theorem test_last_segment : lastSegment 240 = 4 ∧ lastSegment 48 = 0 ∧ lastSegment 49 = 1 ∧ lastSegment 0 = 0 := by decide

/-! ## Images (Chapter 4) -/

/-- Table 4-3, all its entries. -/
theorem test_fill_bank_table :
    [none, some 0, some 1, some 2].map (fun l => [none, some 0, some 1, some 2].map fun h => fillBank l h) =
      [[0, 1, 0, 0], [1, 1, 2, 1], [0, 2, 0, 0], [0, 1, 0, 0]] := by decide

/-- Table 12-1: output in-use word, input publish word and state word of the bring-up. -/
theorem test_words_of_the_bring_up :
    bankWord (some 0) 1 = 0x00000100 ∧ bankWord (some 1) 1 = 0x00000101 ∧ stateWord .run 1 = 0x00010002 ∧
    Verdict.word { code := .accepted, entry := 0, residue := 0, generation := 1 } = 0x01000001 := by decide

/-! ## Windows (Table 5-6) -/

theorem test_windows_of_the_example :
    adapt .w8 0 3 0 = (.w16, 0) ∧ adapt .w16 0 1 3 = (.w16, 0) ∧ adapt .w16 0 0 0 = (.w16, 1) ∧
    adapt .w16 1 0 1 = (.w16, 0) ∧ adapt .w16 0 6 0 = (.w32, 0) := by decide

/-- Table 5-4: a window of 2 is crowded by one clash, and one of 8 is not by two. R88: the fourth quiet window halves. -/
theorem test_crowding_threshold :
    adapt .w2 0 1 0 = (.w4, 0) ∧ adapt .w8 0 2 0 = (.w8, 0) ∧ adapt .w4 3 0 0 = (.w2, 0) ∧ adapt .w2 3 0 0 = (.w2, 0) ∧
    adapt .w32 0 9 0 = (.w32, 0) := by decide

/-- Table 3-8 and Table 5-4: the worst case of windows of 2, 4 and 8 slots. -/
theorem test_window_worst_case : windowWorst .w2 = 35 ∧ windowWorst .w4 = 59 ∧ windowWorst .w8 = 107 := by decide

/-! ## The poll budget (Tables 8-5 to 8-7) -/

/-- The line settings of the example of Chapter 8. -/
def settings8 : LineSettings :=
  { LineSettings.cleared with bitRate := 3, cyclePeriod := 120, defaultTimeout := 20 }

/-- An entry by class, phase, output and input length, retries and reply timeout. -/
def timed (cls phase out inp retries rt : Nat) : NodeEntry :=
  { NodeEntry.cleared with
    enabled := true, periodClass := cls, phase := phase, outLength := out, inLength := inp, retries := retries,
    replyTimeout := rt }

/-- Table 8-5, with entry 4 at a phase. -/
def entries8 (phase : Nat) : List NodeEntry :=
  [timed 1 0 8 8 1 20, timed 2 1 16 16 0 30, timed 4 0 4 32 2 20, timed 8 5 0 2 0 40, timed 2 phase 8 8 0 0]

theorem test_poll_budget_with_entry_4_at_phase_0 :
    pollTerm settings8 (entries8 0) 0 + probeTerm settings8 (entries8 0) = 514 ∧
    budgetTime 3 514 = 2 * 1325 ∧ residueFits settings8 (entries8 0) 0 = false := by decide

theorem test_poll_budget_with_entry_4_at_phase_1 :
    (List.range 8).map (fun r => pollTerm settings8 (entries8 1) r + probeTerm settings8 (entries8 1)) =
      [459, 370, 234, 370, 459, 431, 234, 370] ∧
    budgetTime 3 459 = 2375 ∧ (List.range 8).all (residueFits settings8 (entries8 1)) = true := by decide

/-! ## The directory of the bring-up (Section 12.1) -/

/-- The line settings of the bring-up. -/
def settings12 : LineSettings :=
  { bitRate := 2, initialWindow := 4, windowInterval := 0, cycleDivisor := 1, cyclePeriod := 100, statPeriod := 0,
    rouseTime := 20, outBytes := 8, inBytes := 8, patience := 100, defaultTimeout := 20 }

/-- An entry of the bring-up. -/
def entry12 (address : Byte) (offset : Nat) : NodeEntry :=
  { NodeEntry.cleared with
    enabled := true, address := address, outOffset := offset, outLength := 4, inOffset := offset, inLength := 4,
    missLimit := 3 }

/-- The directory of the bring-up, with the address of entry 1. -/
def directory12 (second : Byte) : Directory :=
  { settings := settings12,
    entries := tabMap (fun i _ =>
      if i = 0 then { entry := entry12 10 0, lossValid := true }
      else if i = 1 then { entry := entry12 second 4, lossValid := true }
      else { entry := NodeEntry.cleared, lossValid := true }) (tabFill 48 ()) }

/-- Section 12.1: accepted, and "2 × 47 + 2 × 42 = 178 bt" is 930 µs with the allowance. -/
theorem test_directory_of_the_bring_up_is_accepted :
    (judge (directory12 11) none).code = .accepted ∧
    pollTerm settings12 [entry12 10 0, entry12 11 4] 0 + probeTerm settings12 [entry12 10 0, entry12 11 4] = 178 ∧
    budgetTime 2 178 = 2 * 930 := by decide

theorem test_directory_with_a_second_address_alike_is_refused :
    judge (directory12 10) none = { code := .duplicateAddress, entry := 1, residue := 0 } := by decide

/-- R137, Table 8-4: a directory of the bring-up refused by each check, with its entry index and residue. -/
theorem test_directory_refused_by_each_check :
    let with1 := fun e : NodeEntry => { directory12 11 with
      entries := (directory12 11).entries.set 1 { entry := e, lossValid := true } }
    let e := entry12 11 4
    let short := { directory12 11 with settings := { settings12 with cyclePeriod := 92 } }
    judge { directory12 11 with settings := { settings12 with patience := 0 } } none =
      { code := .badLineSetting, entry := 255, residue := 0 } ∧
    judge (with1 { e with address := 251 }) none = { code := .badAddress, entry := 1, residue := 0 } ∧
    judge (with1 { e with missLimit := 0 }) none = { code := .badTiming, entry := 1, residue := 0 } ∧
    judge (with1 { e with inOffset := 5 }) none = { code := .sliceOutside, entry := 1, residue := 0 } ∧
    judge (with1 { e with outOffset := 3 }) none = { code := .sliceOverlap, entry := 1, residue := 0 } ∧
    judge short (some settings12) = { code := .lineChangeInRun, entry := 255, residue := 0 } ∧
    judge short none = { code := .pollBudget, entry := 255, residue := 0 } ∧
    judge (directory12 11) (some settings12) = { code := .accepted, entry := 0, residue := 0 } := by decide

/-- R136, Table 11-4: entry 1's second word stands at 0x164. -/
theorem test_directory_offsets :
    directoryOffset 3 = 0x10C ∧ directoryOffset 4 = 0x140 ∧ directoryOffset 10 = 0x164 ∧ directoryOffset 243 = 0x730 := by
  decide

/-! ## States the tests start from -/

/-- The state after reset with its part changed. -/
def on (f : Part → Part) : State := { State.reset with part := f Part.reset }

/-- The ladder in a state, its HOLD frame sent, and the frame engine in a state with no exchange. -/
def rung (l : LadderState) (f : FrameState) (p : Part) : Part :=
  { p with ladder := { p.ladder with state := l, holdSent := true }, frames := { p.frames with state := f } }

/-- A request in the slot. -/
def pend (r : Request) (p : Part) : Part := { p with ladder := { p.ladder with pending := some r } }

/-- The fault hold set. -/
def hold (p : Part) : Part := { p with ladder := { p.ladder with faultHold := true } }

/-- An exchange in progress, with its outcome and frame. -/
def exch (ex : Exchange) (o : Option Attempt) (f : Option Frame) (p : Part) : Part :=
  { p with frames := { p.frames with exchange := some ex, outcome := o, rx := f } }

/-- One access on the list. -/
def access (source : Source) (offset : Nat) (w : Option Word) (p : Part) : Part :=
  { p with bus := [{ offset := offset, write := w, source := source }] }

/-- Node 0 enabled at address 10 as in the bring-up, in a state. -/
def node0 (n : NodeState) (p : Part) : Part :=
  p.modNode 0 fun r => { r with applied := { entry12 10 0 with eventsEnabled := true }, state := n }

/-- The line settings of the bring-up applied. -/
def lined (p : Part) : Part := p.modLoader fun l => { l with settings := settings12 }

/-- The next state of an outcome. -/
def after (o : Host.Outcome State Fault Refusal) : State :=
  match o with
  | .next t => t
  | .fault _ => State.reset
  | .refused _ => State.reset

/-- RUN between cycles, on the line of the bring-up. -/
def running : State :=
  on fun p => { (lined (rung .run .listening p)) with sched := { p.sched with timer := some 2000 } }

/-- HELD with the line quiet. -/
def held : State := on fun p => lined (rung .held .listening p)

/-- A part whose CAUSE.FAULT is set by a report. -/
def faulted (p : Part) : Part := p.report .portMisuse 0x0104

/-! ## One step -/

theorem test_empty_queue_idles : step State.reset = .next State.reset := rfl

theorem test_area_write_in_idle : (after (exec (.areaWrite 0x12345000) State.reset)).port.area = 0x12345000 := by decide

theorem test_area_write_in_run_is_a_misuse :
    (after (exec (.areaWrite 1) running)).readRegister regFault = 0x88000104 ∧
    (after (exec (.areaWrite 1) running)).port.area = 0 := by decide

theorem test_run_request_with_a_bad_base :
    (after (exec (.requestRun false) State.reset)).readRegister regFault = 0x82000001 ∧
    (after (exec (.requestRun false) State.reset)).readRegister regControl = 0 := by decide

theorem test_run_request_starts_up :
    (after (exec (.requestRun false) { State.reset with port := { Port.reset with area := 0x1000 } })).readRegister
      regControl = 0x00000101 := by decide

/-- Table 11-12: kind 4 at an unused offset. -/
theorem test_unused_offset_is_a_misuse :
    (after (exec (.portMisuse { offset := 0x1C, write := false, data := 0, narrow := false }) State.reset)).readRegister
      regFault = 0x8800041C := by decide

theorem test_run_taken_in_held_starts_cycle_1 :
    (after (exec (.requestRun false) held)).part.sched.cycle = 1 ∧
    (after (exec (.requestRun false) held)).part.sched.timer = some 2000 ∧
    (after (exec (.requestRun false) held)).readRegister regControl = 0x00000200 := by decide

theorem test_second_expiry_of_a_cycle_is_skipped :
    let late := after (exec .cycleTimerExpiry (after (exec .cycleTimerExpiry (after (exec .cycleTimerExpiry running)))))
    late.part.counter .cyclesStarted = 1 ∧ late.part.counter .cycleOverruns = 1 ∧
    late.part.counter .expiriesSkipped = 1 := by decide

set_option maxRecDepth 8000 in
/-- R153, R90: an ALERT from no enabled record is a sighting. -/
theorem test_alert_of_a_stray : ((after (exec (.alert 77) held)).part.windows.strays.map (·.address)) = [77] := by decide

set_option maxRecDepth 8000 in
/-- Table 5-6, cycle m + 1: a BID from a LOST node's address sends it to PROBING. -/
theorem test_bid_of_a_lost_node :
    ((after (exec (.slotEnd
        { items := [.byte 0xD3, .byte 0xB8, .byte 10, .byte 2, .byte 2, .byte 0, .byte 0x5D, .byte 0xB6],
          overruns := false } 0)
      (on fun p => node0 .lost (lined (rung .run .slotting p))))).part.node 0).state = .probing := by decide

/-! ## Witnesses: states that meet the hypotheses of the statements -/

/-- A list of the kinds of state the statements start from: RESET_N high, no soft reset under way. -/
def free (s : State) : Bool := !s.port.resetLow && !s.part.ladder.resetUnderWay

theorem free_takesControl (s : State) (h : free s = true) : s.takesControl := by
  simpa [free, State.takesControl] using h

/-- A soft reset waits for a memory word in progress. -/
def softWaiting : State := on fun p =>
  let p := access .stateWord 0x40 (some 0x00010002) (rung .run .listening p)
  { p with ladder := { p.ladder with softPending := true } }

/-- SETTLING with a soft reset waiting for the timer. -/
def settlingReset : State := on fun p =>
  let p := rung .settling .off p
  { p with ladder := { p.ladder with settle := some 2, resetWaiting := true } }

theorem witness_RegistersAfterReset :
    softWaiting.port.resetLow = false ∧ softWaiting.part.ladder.resetUnderWay = true := by decide

theorem witness_SoftResetTakesEffect :
    softWaiting.part.ladder.resetUnderWay = true ∧ softWaiting.part.ladder.resetWaiting = false ∧
    softWaiting.part.ladder.softPending = true ∧
    softWaiting.current = some { offset := 0x40, write := some 0x00010002, source := .stateWord } ∧
    settlingReset.part.ladder.resetUnderWay = true ∧ settlingReset.part.ladder.resetWaiting = true := by decide

theorem witness_SoftResetWritten :
    (free (on (rung .still .off)) ∧ free (on (rung .settling .off)) ∧ free State.reset ∧
      (free (on (access .stateWord 0x40 none)) ∧ (on (access .stateWord 0x40 none)).part.bus ≠ [])) ∧
    ((0x80000010 : Word).extractLsb' 0 3).toNat ≤ 4 ∧ softWaiting.part.ladder.resetUnderWay = true ∧
    (State.reset.port.resetLow = false ∧ 5 ≤ ((0x80000007 : Word).extractLsb' 0 3).toNat) := by decide

/-- R173: SOFT_RESET with a REQUEST code of 5 resets nothing, and is a misuse of kind 3. -/
theorem test_soft_reset_with_an_undefined_request :
    let t := after (exec (.softReset 5) running)
    t.part.ladder = running.part.ladder ∧ t.part.faults.capture.code = 8 ∧ t.part.faults.capture.detail = 0x0308 := by decide

theorem witness_ResetNLow : ({ State.reset with port := { Port.reset with resetLow := true } }).port.resetLow = true := by decide

theorem witness_MemoryCanonicalKept : State.reset.memoryOk ∧ step State.reset = .next State.reset := ⟨rfl, rfl⟩

theorem witness_WordWrittenReadsBack : Memory.wf [(0x1000, 5), (0x1002, 7)] = true := by decide

/-- A write in progress at 0x40. -/
def writing : State := on fun p => access .stateWord 0x40 (some 0x00010002) (rung .run .listening p)

/-- A read in progress of the config generation word. -/
def reading : State := on fun p => access .loader 0x04 none (rung .run .listening p)

theorem witness_OnlyCurrentWordChanges :
    (∃ t, exec (.memoryAccessComplete none 0) writing = .next t) ∧
    ¬ inWord (busAddress writing.port.area 0x40) 0x44 ∧ (∃ t, exec .lineActivity settlingReset = .next t) ∧
    settlingReset.part.ladder.state = .settling ∧ (on (rung .still .off)).part.ladder.state = .still :=
  ⟨⟨_, rfl⟩, by unfold inWord; decide, ⟨_, rfl⟩, rfl, rfl⟩

theorem witness_AccessCompletes :
    writing.memoryOk ∧ writing.current = some { offset := 0x40, write := some 0x00010002, source := .stateWord } ∧
    reading.memoryOk ∧ reading.current = some { offset := 0x04, write := none, source := .loader } := by
  refine ⟨rfl, ?_, rfl, ?_⟩ <;> decide

theorem witness_ErrorResponseReported :
    writing.current = some { offset := 0x40, write := some 0x00010002, source := .stateWord } ∧
    writing.part.ladder.softPending = false ∧ writing.part.hasCause .fault = false ∧
    writing.part.ladder.state ≠ .starting := by decide

theorem witness_AreaWritten :
    State.reset.port.resetLow = false ∧ State.reset.part.ladder.state = .idle ∧ held.port.resetLow = false ∧
    held.part.ladder.state ≠ .idle := by decide

theorem witness_AreaFixedOutsideIdle :
    let s := { held with pending := [.areaWrite 0x2000] }
    s.pending = [.areaWrite 0x2000] ∧ s.part.ladder.state ≠ .idle ∧ ∃ t, step s = .next t :=
  ⟨rfl, by decide, _, rfl⟩

theorem witness_MaskAndInterruptOutput :
    State.reset.port.resetLow = false ∧ State.reset.part.faults.cause = 0 ∧
    (on faulted).part.hasCause .fault = true ∧ softWaiting.part.ladder.resetUnderWay = true ∧
    (∃ t, exec (.maskWrite 0xFF) held = .next t) :=
  ⟨rfl, rfl, by decide, by decide, _, rfl⟩

theorem witness_CauseWritten :
    let pending := on fun p => pend .run (faulted (rung .held .listening p))
    (running.port.resetLow = false ∧ running.endsHold 0xFF = false) ∧
    ((on fun p => faulted (rung .held .listening p)).endsHold 0x40 = false ∧
      (on fun p => faulted (rung .held .listening p)).part.hasCause .fault = true) ∧
    pending.port.resetLow = false ∧ pending.endsHold 0xBF = false ∧ pending.endsHold 0x40 = true ∧
    (on fun p => pend .run (rung .held .listening p)).endsHold 0xFF = false := by decide

theorem witness_FaultCaptured :
    Part.reset.hasCause .fault = false ∧ (faulted Part.reset).hasCause .fault = true ∧
    FaultCode.ladderSkip ≠ .memory := by decide

theorem witness_PortMisuseReported :
    held.port.resetLow = false ∧ held.part.ladder.state ≠ .idle ∧ State.reset.part.ladder.state = .idle ∧
    5 ≤ ((0x17 : Word).extractLsb' 0 3).toNat ∧ ((0x14 : Word).extractLsb' 0 3).toNat < 5 ∧
    0x04 ≤ (0x04 : BitVec 5).toNat ∧ (0x07 : BitVec 5).toNat < 0x08 ∧ 0x09 ≤ (0x09 : BitVec 5).toNat ∧
    0x09 ≤ (0x1F : BitVec 5).toNat ∧ (0x19 : BitVec 5) ≠ 0x18 ∧ (0x1F : BitVec 5) ≠ 0x1C := by decide

/-- R173: a narrow write of the byte at 0x09 writes no REQUEST, so its low bits 7 are no misuse of kind 3; a narrow read at 0x19 is not at
offset 0x18 or 0x1C, so no misuse of kind 4. -/
theorem test_narrow_access_between_named_offsets_is_kind_5 :
    (after (exec (.portMisuse { offset := 0x09, write := true, data := 7, narrow := true }) State.reset)).readRegister
      regFault = 0x88000508 ∧
    (after (exec (.portMisuse { offset := 0x19, write := false, data := 0, narrow := true }) State.reset)).readRegister
      regFault = 0x88000518 ∧
    (after (exec (.portMisuse { offset := 0x08, write := true, data := 7, narrow := false }) State.reset)).readRegister
      regFault = 0x88000308 := by decide

theorem witness_FaultViews :
    State.reset.port.resetLow = false ∧ State.reset.port.view = false ∧
    ({ State.reset with port := { Port.reset with view := true } }).port.view = true := by decide

theorem witness_ControlReadsBack : held.port.resetLow = false := by decide

/-- RESTING. -/
def resting : State := on fun p => lined (rung .resting .sensing p)

/-- SETTLING, the settle timer running. -/
def settling : State := on fun p =>
  let p := rung .settling .off p
  { p with ladder := { p.ladder with settle := some 2 } }

theorem witness_LadderTransitions :
    ((after (exec (.fullReset false) held)).part.ladder.state = .idle ∧ held.part.ladder.state = .held) ∧
    (after (exec (.requestHold false) resting)).part.ladder.state = .rousing ∧
    (after (exec .settleTimerExpiry (on fun _ => pend .hold settling.part))).part.ladder.state = .rousing := by
  decide

theorem witness_SchedulerStoppedOutsideRun :
    (State.reset.part.ladder.state ≠ .run → State.reset.part.sched.state = .stopped ∧
      State.reset.part.sched.timer = none ∧ State.reset.part.sched.overrun = false) ∧
    step State.reset = .next State.reset := ⟨fun _ => ⟨rfl, rfl, rfl⟩, rfl⟩

theorem witness_FirstFaultKept :
    (on faulted).part.hasCause .fault = true ∧ ∃ t, exec (.areaWrite 0) (on faulted) = .next t := ⟨by decide, _, rfl⟩

theorem witness_FaultHoldKept :
    (on hold).part.ladder.faultHold = true ∧ ∃ t, exec .nudge (on hold) = .next t := ⟨by decide, _, rfl⟩

/-- IDLE with AREA at the first base that start-up accepts, and at one that is no multiple of 4096. -/
def based (area : Word) : State := { State.reset with port := { Port.reset with area := area } }

/-- STARTING at a step of start-up. -/
def startingAt (u : Startup) (r : Request) : State := on fun p =>
  let p := pend r (access .startup 0x00 none (rung .starting .off p))
  { p with ladder := { p.ladder with startup := some u } }

/-- The same, with the start-up commit check in progress. -/
def checking (u : Startup) : State := on fun _ =>
  (startingAt u .run).part.modLoader fun l => { l with
    check := some { origin := .startup, pos := .readGeneration, generation := 0, words := [] } }

theorem witness_RequestLeavesLadder :
    (free State.reset ∧ State.reset.part.ladder.state = .idle) ∧
    (free (on (rung .still .off)) ∧ (on (rung .still .off)).part.ladder.state = .still) ∧
    (free resting ∧ resting.part.ladder.state = .resting) ∧
    (free held ∧ held.part.ladder.state = .held ∧ held.part.heldQuiet = true) := by decide

theorem witness_RequestKeptPending :
    let commit : Startup := { Startup.first with pos := .commit }
    free running ∧ running.part.ladder.state = .run ∧ free (on (rung .rousing .sending)) ∧ free settling ∧
    (free (startingAt Startup.first .run) ∧ (startingAt Startup.first .run).part.ladder.startup = some Startup.first ∧
      Startup.first.pos ≠ .commit) ∧
    (free (checking commit) ∧ (checking commit).part.ladder.startup = some commit ∧
      (checking commit).part.loader.check ≠ none) ∧
    (free (on (rung .heldService .sending)) ∧ (on (rung .heldService .sending)).part.ladder.serviceWait = false ∧
      (on (rung .heldService .sending)).part.ladder.serviceRead = false) ∧
    (free (on fun p => exch .hold none none (rung .held .sending p)) ∧
      (on fun p => exch .hold none none (rung .held .sending p)).part.heldQuiet = false) ∧
    (free held ∧ held.part.ladder.state = .held ∧ held.part.heldQuiet = true) := by decide

theorem witness_RunTakenInHeld :
    free held ∧ held.part.heldQuiet = true ∧ held.part.ladder.faultHold = false ∧
    free (on fun _ => hold held.part) ∧ (on fun _ => hold held.part).part.heldQuiet = true ∧
    (on fun _ => hold held.part).part.ladder.faultHold = true ∧
    free (on fun _ => pend .run held.part) ∧ (on fun _ => pend .run held.part).part.heldQuiet = true ∧
    (on fun _ => pend .run held.part).part.ladder.pending = some .run ∧
    (on fun _ => pend .run held.part).part.ladder.faultHold = false := by decide

/-- The fault hold in HELD with a request pending, the held line quiet or a frame being sent. -/
def heldFaulted (r : Request) (quiet : Bool) : State := on fun _ =>
  let p := pend r (hold (faulted held.part))
  if quiet then p else exch .hold none none (rung .held .sending p)

theorem witness_FaultHoldEnds :
    (0x40 : Word).getLsbD 6 = true ∧
    ([Request.run, .hold, .rest, .still].all fun r => [true, false].all fun quiet =>
      let s := heldFaulted r quiet
      !s.port.resetLow && s.part.ladder.state == .held && s.part.ladder.pending == some r &&
        s.part.heldQuiet == quiet && s.part.hasCause .fault && s.part.ladder.faultHold) = true := by decide

/-- The REST frame sent with the line work over, a snapshot's word waiting behind another access on the list. -/
def restSnapping : State := on fun _ =>
  let p := rung .held .guarding (exch .rest none none held.part)
  let p := { p with bus := [{ offset := 0x40, write := some 1, source := .stateWord },
                            { offset := 0xE00, write := some 1, source := .snapshot }] }
  p.modFaults fun f => { f with
    snapState := .writing, snapshot := some { pos := 0, counters := tabFill 24 0, cycle := 1, ask := 0, totals := tabFill 48 (0, 0) } }

/-- R168: RESTING makes no snapshot writes, and the word in progress of a snapshot is no one's. -/
theorem test_snapshot_is_cut_as_resting_is_entered :
    (after (exec .restFrameSent restSnapping)).part.bus.map (·.source) = [.stateWord, .stateWord] ∧
    (after (exec .restFrameSent restSnapping)).part.faults.snapState = .idle ∧
    (cutAccesses (restSnapping.part.bus.drop 1)).map (·.source) = [.cut] := by decide

/-- The REST frame's turnaround after a NUDGE: a commit check under way, its word in progress, and a walk's word waiting. -/
def restWorking : State := on fun _ =>
  let p := exch .rest none none (rung .held .guarding held.part)
  { p with
    bus := [{ offset := 0x04, write := none, source := .loader }, { offset := 0x2100, write := none, source := .walk }],
    loader := { p.loader with check := some { origin := .nudge, pos := .readGeneration, generation := 0, words := [] } },
    parcels := { p.parcels with walk := .visit 0 16 [] } }

/-- R155, R170, R129: RESTING is entered when the REST frame is reported sent; the word in progress ends before the state word, and the walk
makes no access. Log 37: the trigger of the check's end and the walk's word wait, and go on in HELD. -/
theorem test_work_waits_while_the_line_rests :
    let rests := after (exec .restFrameSent restWorking)
    let checked := after (exec (.memoryAccessComplete none 0) rests)
    rests.part.ladder.state = .resting ∧ rests.part.bus.map (·.source) = [.loader, .stateWord] ∧
    rests.part.parked.map (·.source) = [.walk] ∧
    checked.part.loader.check = none ∧ checked.part.bus.map (·.source) = [.stateWord] ∧
    checked.part.parcels.walk = .visit 0 16 [] ∧ checked.part.parcels.keptTrigger = true ∧
    checked.part.resumeWork.bus.map (·.source) = [.stateWord, .walk] := by decide

/-- The same on its way back to HELD, with the rouse timer running. -/
def roused (s : State) : State := on fun _ =>
  let p := rung .rousing .listening s.part
  { p with ladder := { p.ladder with rouse := some 20 } }

theorem witness_RestFromHeld :
    let sent := on fun _ => exch .rest none none (rung .held .guarding held.part)
    (free held ∧ held.part.ladder.state = .held ∧ held.part.heldQuiet = true) ∧
    (sent.part.ladder.state = .held ∧ sent.part.frames.state = .guarding ∧ sent.part.frames.exchange = some .rest ∧
      sent.part.ladder.pending = none) ∧
    ((cutAccesses (restSnapping.part.bus.drop 1)).map (·.source) = [.cut] ∧
      restSnapping.part.ladder.state = .held ∧ restSnapping.part.frames.state = .guarding ∧
      restSnapping.part.frames.exchange = some .rest ∧ restSnapping.part.ladder.pending = none) ∧
    (restWorking.part.ladder.state = .held ∧ restWorking.part.frames.state = .guarding ∧
      restWorking.part.frames.exchange = some .rest ∧ restWorking.part.ladder.pending = none ∧
      restWorking.part.workQuiet = false ∧ (restWorking.part.bus.tail.any fun x => x.source == .walk) = true ∧
      (restWorking.part.bus.any fun x => x.source == .loader) = true) ∧
    ([resting, settling, on (rung .still .off), roused held].all fun s =>
      ([.resting, .rousing, .still, .settling] : List LadderState).contains s.part.ladder.state &&
        s.part.sched.state == .stopped && after (exec .nudge s) == s) = true := by decide

theorem witness_HoldFromResting :
    (free resting ∧ resting.part.ladder.state = .resting ∧ resting.part.ladder.stilling = false) ∧
    (let s := on fun _ => exch .rouse none none (rung .rousing .guarding resting.part)
     s.part.ladder.state = .rousing ∧ s.part.frames.state = .guarding ∧ s.part.frames.exchange = some .rouse) ∧
    (let s := on fun p => { (rung .rousing .listening p) with ladder := { p.ladder with state := .rousing, rouse := some 20 } }
     s.part.ladder.state = .rousing ∧ s.part.ladder.rouse.isSome = true) ∧
    (let s := on fun _ => { (roused held).part with parcels := { held.part.parcels with keptTrigger := true } }
     s.part.ladder.state = .rousing ∧ s.part.ladder.rouse.isSome = true ∧ s.part.parcels.keptEnd = none ∧
       s.part.parcels.keptTrigger = true ∧ s.part.parcels.walk = .idle) ∧
    (let h : SlotHeader := { node := 0, ask := 1, target := 10, operation := .read, parameter := 0, length := 0 }
     let s := on fun _ => { (roused held).part with parcels :=
       { held.part.parcels with walk := .taking 2 5 h [], keptEnd := some (.walk (some 1)) } }
     s.part.ladder.state = .rousing ∧ s.part.parcels.keptEnd = some (.walk (some 1)) ∧
       s.part.parcels.walk = .taking 2 5 h []) := by decide

/-- RESTING with STILL's state word on its way. -/
def stilling : State := on fun _ =>
  let p := access .stateWord 0x40 (some 0x00010007) resting.part
  { p with ladder := { p.ladder with stilling := true } }

theorem witness_StillFromResting :
    (free resting ∧ resting.part.ladder.state = .resting) ∧
    (stilling.mem.wf = true ∧ stilling.part.ladder.state = .resting ∧ stilling.part.ladder.stilling = true ∧
      stilling.part.ladder.softPending = false ∧ stilling.part.ladder.pending = none ∧
      stilling.part.bus = [{ offset := 0x40, write := some 0x00010007, source := .stateWord }]) ∧
    (on fun _ => pend .hold stilling.part).part.ladder.pending = some .hold := by decide

theorem witness_RestFromStill :
    (free (on (rung .still .off)) ∧ (on (rung .still .off)).part.ladder.state = .still) ∧
    (settling.part.ladder.state = .settling ∧ settling.part.ladder.settle.isSome = true ∧
      settling.part.ladder.resetWaiting = false ∧ settling.part.ladder.pending = none) ∧
    (on fun _ => pend .hold settling.part).part.ladder.pending = some .hold ∧
    (settlingReset.part.ladder.settle.isSome = true ∧ settlingReset.part.ladder.resetWaiting = true) := by decide

theorem witness_HoldFrameSentInHeld :
    let s := on fun _ => exch .hold none none (rung .held .guarding held.part)
    let n := on fun _ => { s.part with ladder := { s.part.ladder with heldNamed := true } }
    s.part.ladder.state = .held ∧ s.part.frames.state = .guarding ∧ s.part.frames.exchange = some .hold ∧
    s.part.ladder.pending = none ∧ s.part.ladder.heldNamed = false ∧ n.part.ladder.heldNamed = true := by decide

theorem witness_PendingTakenWhenQuiet :
    held.part.ladder.state = .held ∧
    ([Request.run, .hold, .rest, .still].all fun r =>
      let s := on fun _ => pend r held.part
      s.part.heldQuiet && s.part.ladder.pending == some r && !s.part.ladder.faultHold) = true ∧
    (on fun _ => pend .run (hold held.part)).part.ladder.faultHold = true ∧
    (on fun _ => pend .still held.part).part.hasCause .fault = false := by decide

/-- HELD-SERVICE, its wait standing or not. -/
def inHeldService (wait read : Bool) : State := on fun _ =>
  let p := rung .heldService .listening held.part
  { p with ladder := { p.ladder with serviceWait := wait, serviceRead := read } }

/-- HELD at the generation read of a NUDGE's commit check, with node 2's status owed. -/
def nudged : State := on fun _ =>
  let p := access .loader 0x04 none held.part
  let p := p.modNode 2 fun r => { r with statusOwed := true }
  p.modLoader fun l => { l with check := some { origin := .nudge, pos := .readGeneration, generation := 0, words := [] } }

/-- HELD in a commit check at one of its generation reads, generation 5 read first and refused before. -/
def refusedRead (origin : CheckFrom) (pos : CheckPos) : State := on fun _ =>
  let p := access .loader 0x04 none held.part
  p.modLoader fun l => { l with
    refused := some 5, check := some { origin := origin, pos := pos, generation := 5, words := [1, 2] } }

theorem witness_NudgeByLadderState :
    (free running ∧ running.part.ladder.state = .run) ∧ (free held ∧ held.part.ladder.state = .held) ∧
    (free nudged ∧ nudged.part.loader.check.isSome = true) ∧
    ([true, false].all fun wait => [true, false].all fun read =>
      free (inHeldService wait read) && (inHeldService wait read).part.ladder.state == .heldService) = true ∧
    (after (exec .nudge (inHeldService false false))).part.ladder.state = .heldService ∧
    (free State.reset ∧ State.reset.part.ladder.state.worksMemory = false) ∧
    (nudged.current = some { offset := 0x04, write := none, source := .loader } ∧
      nudged.part.ladder.softPending = false ∧
      nudged.part.loader.check = some { origin := .nudge, pos := .readGeneration, generation := 0, words := [] } ∧
      nudged.mem.readWord (busAddress nudged.port.area 0x04) = nudged.part.loader.accepted ∧
      (nudged.part.node 2).statusOwed = true) ∧
    ((roused nudged).current = some { offset := 0x04, write := none, source := .loader } ∧
      (roused nudged).part.ladder.softPending = false ∧ (roused nudged).part.ladder.state = .rousing ∧
      (roused nudged).part.loader.check = some { origin := .nudge, pos := .readGeneration, generation := 0, words := [] } ∧
      (roused nudged).mem.readWord (busAddress (roused nudged).port.area 0x04) = (roused nudged).part.loader.accepted) ∧
    ((refusedRead .nudge .readGeneration).part.ladder.state = .held ∧
      (refusedRead .nudge .readGeneration).part.loader.refused = some 5) := by
  decide

/-- HELD with node 0 in service and its event waiting. -/
def eventWaits : State := on fun _ => (node0 .live held.part).indicate 0 .data

theorem witness_ServiceEntered : eventWaits.part.serviceAllowed = true := by decide

/-- The held line with node 0 in a state, its latch set or not. -/
def alerted (l : LadderState) (n : NodeState) (latch : Bool) : State := on fun _ =>
  let p := node0 n (rung l .listening held.part)
  if latch then p.indicate 0 .data else p

theorem witness_AlertInHeldLine :
    ([LadderState.held, .heldService].all fun l =>
      (alerted l .live false).part.ladder.state == l && (alerted l .live false).part.frames.unsolicited) = true ∧
    ((alerted .held .live false).part.enabledAt 10 = some 0 ∧
      ((alerted .held .live false).part.node 0).state.inService = true ∧
      ((alerted .held .live false).part.node 0).applied.eventsEnabled = true ∧
      ((alerted .held .live false).part.nodeEvents 0).latch = false) ∧
    ((alerted .held .suspect true).part.nodeEvents 0).latch = true ∧
    ((alerted .held .lost false).part.node 0).state = .lost ∧
    ((alerted .held .probing false).part.node 0).state.inService = false ∧
    ((alerted .held .misfit false).part.node 0).state.inService = false ∧
    (alerted .held .live false).part.enabledAt 250 = none ∧ (alerted .held .live false).part.enabledAt 1 = none ∧
    1 ≤ (1 : Byte).toNat ∧ (250 : Byte).toNat ≤ 250 := by decide

set_option maxRecDepth 8000 in
/-- R54, R61: a full-length frame whose check fails and an ALERT right behind it are a stray and an ALERT; cut short it takes the rest of
its stretch with it. -/
theorem test_alert_right_behind_a_failed_check :
    let bad : List LineItem := [.byte 0xD3, .byte 0x80, .byte 9, .byte 0, .byte 0, .byte 0]
    (framesHeard (bad ++ alertItems 9)).map (·.any Frame.isGoodAlert) = [false, true] ∧
    framesHeard (.violation :: alertItems 9) = [none] := by decide

/-- R58, R61, log 59: a stretch of carrier with clashes in it counts once, and what comes behind its quiet counts by itself. -/
theorem test_clash_counts_its_stretch_once :
    let clash := after (exec .lineClash running)
    let again := after (exec .lineClash clash)
    let strays := fun s : State => s.part.counter .strayFrames
    strays clash = 1 ∧ again = clash ∧
    strays (after (exec (.unsolicitedFrame [.violation, .gap]) again)) = 1 ∧
    strays (after (exec (.unsolicitedFrame [.violation, .gap, .violation, .gap]) again)) = 2 := by decide

/-- R61, log 49: a late reply that ended in the guard leaves nothing to count, and one that still arrives does. -/
theorem test_late_reply_that_ended_in_the_guard :
    (running.part.carrierInGuard [.violation, .gap]).frames.late = false ∧
    (running.part.carrierInGuard [.gap, .violation]).frames.late = true := by decide

set_option maxRecDepth 8000 in
theorem witness_StrayFrameCounted :
    running.part.frames.unsolicited = true ∧ held.part.frames.unsolicited = true ∧
    (framesHeard [.byte 0xD3, .gap, .violation] = [none, none]) ∧
    ((framesHeard (alertItems 9)).all fun f => f.any Frame.isGoodAlert) = true ∧
    (running.part.ladder.state ≠ .held ∧ running.part.ladder.state ≠ .heldService ∧
      running.part.ladder.state ≠ .starting) ∧ held.part.ladder.state = .held ∧
    (let s := on fun _ => exch (.probe 0) none none (rung .run .sending running.part)
     let n := on fun _ => { s.part with frames := { s.part.frames with late := true } }
     n.part.ladder.state = .run ∧ n.part.frames.state = .sending ∧ n.part.frames.onLine = false ∧
       n.part.frames.late = true) ∧
    (after (exec .lineClash running)).part.frames.unsolicited = true ∧
    (after (exec .lineClash running)).part.frames.counted = true := by decide

theorem witness_LineActivityInResting :
    resting.part.frames.state = .sensing ∧ resting.part.ladder.wakeSeen = false ∧
    ({ resting.part.ladder with wakeSeen := true }).wakeSeen = true := by decide

/-- What start-up stands at in the witness below: each position, at the first and the last of its range. -/
def startPositions : List StartPos :=
  [.version, .stateWord, .inUse, .inputPublish, .eventsWritten, .newest 0, .newest 7, .status 0 0, .status 46 5, .status 47 5,
   .commit, .sweepAsk 15, .sweepTaken 15 1, .sweepAnswer 14 1 1, .sweepAnswer 15 1 1, .sweepAnswer 15 1 2,
   .sweepOutcome 15 1, .sweepNumber 14 1, .sweepNumber 15 1, .finalWord]

/-- STARTING in its commit check at a position, the newest event record and status record 0 from address 10, the directory one of the
bring-up with entry 0 enabled. -/
def committing (pos : CheckPos) (code : VerdictCode) (startPos : StartPos) : State := on fun _ =>
  let u := { Startup.first with
    pos := startPos, newest := some 0x00070A01, kept := Startup.first.kept.set 0 { address := 10, accepted := 5, valid := true } }
  let p := access .loader 0x04 none (startingAt u .run).part
  p.modLoader fun l => { l with
    verdict := { code := code, entry := 0, residue := 0, generation := 0 },
    check := some { origin := .startup, pos := pos, generation := 0,
                    words := [0, 0x00030000, 0, 0x04040001, 0x000A0001, 0x00140064, 0x00080008, 0x14000064, 0x01000402] } }

set_option maxRecDepth 8000 in
/-- R110, step 4: the newest event record's number is last accepted, in place of the status record's. -/
theorem test_newest_record_comes_before_the_status_record :
    let t := after (exec (.startupStepComplete none) (committing .rereadGeneration .none .commit))
    (t.part.nodeEvents 0).accepted = 7 ∧ (t.part.nodeEvents 0).valid = true ∧ (t.part.nodeEvents 1).valid = false ∧
    (t.part.node 0).state = .probing ∧ t.part.table.writes.length = 48 := by decide

theorem witness_StartupCompletes :
    ([(0x1000 : Word), 0x1004, 0].all fun area => free (based area) && (based area).part.ladder.state == .idle &&
      (based area).part.sched.state == .stopped) = true ∧
    ((based 0x1000).port.area ≠ 0 ∧ (based 0x1000).port.area.toNat % 4096 = 0) ∧
    ¬ ((based 0x1004).port.area ≠ 0 ∧ (based 0x1004).port.area.toNat % 4096 = 0) ∧
    ¬ ((based 0).port.area ≠ 0 ∧ (based 0).port.area.toNat % 4096 = 0) ∧
    (startPositions.all fun pos => [Request.run, .hold, .rest, .still].all fun r =>
      let s := startingAt { Startup.first with pos := pos } r
      s.part.ladder.state == .starting && !s.part.ladder.softPending && s.part.ladder.pending == some r &&
        s.part.ladder.startup == some { Startup.first with pos := pos } &&
        s.part.bus.head? == some { offset := 0x00, write := none, source := .startup }) = true ∧
    Startup.first.version ≠ 1 ∧
    ([true, false].all fun some' => [VerdictCode.accepted, .badAddress].all fun code =>
      let s := committing .writeVerdict code .commit
      (if some' then s.part.loader.check.isSome else (startingAt { Startup.first with pos := .commit } .run).part.loader.check.isNone) &&
        s.part.loader.verdict.code == code) = true ∧
    ([CheckPos.rereadGeneration, .writeVerdict, .writeGeneration].all fun pos => [VerdictCode.accepted, .badAddress].all fun code =>
      let s := committing pos code .commit
      s.part.ladder.state == .starting && !s.part.ladder.softPending &&
        s.part.bus.head? == some { offset := 0x04, write := none, source := .loader } &&
        s.part.ladder.startup.any (fun u => u.pos == .commit) &&
        s.part.loader.check.any (fun c => c.origin == .startup && c.pos == pos &&
          s.mem.readWord (busAddress s.port.area 0x04) == c.generation &&
          (judge (directoryOf c.words.reverse) none).code == .accepted &&
          ((directoryOf c.words.reverse).entries.get 0).applied.enabled) &&
        !(s.part.node 0).applied.enabled) = true := by decide

/-- RUN with the scheduler in a state. -/
def inPhase (st : SchedState) (overrun : Bool) : State :=
  on fun _ => { running.part with sched := { running.part.sched with state := st, overrun := overrun } }

theorem witness_CycleTimerExpires :
    running.part.ladder.state = .run ∧ running.part.sched.timer.isSome = true ∧ running.part.sched.state = .stopped ∧
    (inPhase .polling false).part.sched.state ≠ .stopped ∧ (inPhase .polling false).part.sched.overrun = false ∧
    (inPhase .closing true).part.sched.overrun = true := by decide

/-- R32: a node of period class 8 and phase 3 is due in cycles 3, 11 and 19, and at the wrap. -/
theorem witness_DuePattern :
    let e := timed 8 3 0 0 0 0
    e.due 3 = true ∧ e.due 11 = true ∧ e.due 19 = true ∧ e.due 4 = false ∧ e.due 0xFFFFFFFB = true ∧
    PollEntry.poll 0 ∈ (node0 .live running.part).enterPolling.sched.pollList ∧
    PollEntry.probe 0 ∈ (node0 .probing running.part).enterPolling.sched.pollList := by decide

/-- A cycle open whose readiness is complete, with node 0 in a state. -/
def opened (n : NodeState) : State := on fun _ =>
  let p := node0 n running.part
  { p with sched := { p.sched with state := .opening, cycle := 1, loaderReady := true, imageReady := true,
                                   nodeOpen := .ready, parcelOpen := .done } }

theorem witness_PollListBuilt :
    (opened .live).part.ladder.state = .run ∧ (opened .live).part.openIsReady = true ∧
    (opened .live).part.enterPolling.sched.pollList = [.poll 0] ∧
    (opened .probing).part.openIsReady = true ∧ (opened .probing).part.enterPolling.sched.pollList = [.probe 0] := by
  decide

/-- RUN with the anchor's cycle-number write in progress. -/
def closing (f : Part → Part) : State := on fun _ => f (access .cycleWord 0x44 (some 1) (inPhase .closing false).part)

theorem witness_CloseCompletes :
    (closing id).current = some { offset := 0x44, write := some 1, source := .cycleWord } ∧
    (closing id).part.ladder.softPending = false ∧ (closing id).part.ladder.state = .run ∧
    (closing (pend .hold)).part.ladder.pending = some .hold ∧ (closing hold).part.ladder.faultHold = true ∧
    (closing (pend .rest)).part.ladder.pending = some .rest ∧ (closing (pend .rest)).part.hasCause .fault = false ∧
    (closing id).part.sched.overrun = false ∧
    (closing fun p => { p with sched := { p.sched with overrun := true } }).part.sched.overrun = true := by decide

/-- RUN with an exchange in a state of the frame engine. -/
def onLine (f : FrameState) (ex : Exchange) (o : Option Attempt) (fr : Option Frame) (n : NodeState) : State :=
  on fun _ => exch ex o fr (rung .run f (node0 n (inPhase .polling false).part))

/-- The same, the frame being on the line. -/
def sent (ex : Exchange) : State := on fun _ =>
  let p := (onLine .sending ex none none .live).part
  { p with frames := { p.frames with onLine := true } }

theorem witness_FrameSent :
    ((onLine .sending .window none none .live).part.frames.state = .sending ∧
      (onLine .sending .window none none .live).part.frames.onLine = false) ∧
    ([Exchange.poll 0 none, .probe 0, .fetch 0 none, .seg 0 1 2 3, .next 0 1 2 3, .window, .hold, .rest, .rouse,
        .abandon 0 1].all fun ex =>
      (sent ex).part.frames.onLine && (sent ex).part.frames.state == .sending &&
        (sent ex).part.frames.exchange == some ex) = true := by decide

/-- DATA of node 0 at address 10 with toggle echo 1, no flags, and four bytes (Table 11-10). -/
def data0 : List LineItem :=
  [.byte 0xD3, .byte 0x90, .byte 10, .byte 4, .byte 1, .byte 2, .byte 3, .byte 4, .byte 0x6F, .byte 0x4B]

set_option maxRecDepth 8000 in
/-- The toggles are 1 after reset, so echo 1 is GOOD (R56). -/
theorem witness_ReplyDecided :
    let s := onLine .awaiting (.poll 0 none) none none .live
    s.part.frames.state = .awaiting ∧ (Exchange.poll 0 none).awaits = some 0 ∧
    receiveFrame data0 = some { head := 0x90, address := 10, payload := [1, 2, 3, 4] } ∧
    carrierAfter data0 = false ∧
    carrierAfter (data0 ++ [.violation]) = true ∧
    (after (exec (.replyFrameEnd data0) s)).part.frames.outcome = some .good ∧
    receiveFrame [.violation] = none ∧ (onLine .guarding (.poll 0 none) (some .good) none .live).part.frames.state = .guarding ∧
    (onLine .guarding (.poll 0 none) (some .timeout) none .live).part.frames.outcome = some .timeout ∧
    (onLine .slotting .window none none .live).part.frames.state = .slotting ∧ running.part.frames.state = .listening ∧
    (onLine .guarding .hold none none .live).part.frames.outcome = none ∧ running.part.frames.counted = false ∧
    (after (exec .lineClash running)).part.frames.counted = true := by
  decide

set_option maxRecDepth 8000 in
/-- R53: a reply whose carrier was on the line as the reply timer started is DAMAGED, whatever follows. -/
theorem test_reply_with_carrier_on_the_line_already :
    let s := onLine .awaiting (.poll 0 none) none none .live
    (after (exec (.replyFrameEnd (.present :: data0)) s)).part.frames.outcome = some .damaged := by decide

/-- R62, log 44: a clash in the turnaround before slot 0 leaves slot 0 quiet where no carrier follows. -/
theorem test_clash_before_slot_0_spoils_no_slot :
    let s := onLine .slotting .window none none .live
    let t := after (exec .lineClash s)
    (after (exec (.slotEnd { items := [], overruns := false, clashBefore := true } 0) t)).part.windows.tallies.clash = 0 ∧
    (after (exec (.slotEnd { items := [.violation], overruns := false } 0) t)).part.windows.tallies.clash = 1 := by decide

theorem witness_FrameRoundTrip :
    ([] : List Byte).length ≤ 64 ∧ (List.replicate 64 (7 : Byte)).length ≤ 64 ∧
    5 < (encodeFrame .hold 0 0 []).length ∧ 64 < (65 : Byte).toNat := by decide

/-- RUN in the guard after a POLL attempt of node 0. -/
def polled (o : Attempt) (f : Option Frame) (attempts : Nat) (n : NodeState) : State := on fun _ =>
  let p := (onLine .guarding (.poll 0 none) (some o) f n).part
  { p with sched := { p.sched with attempts := attempts } }

/-- DATA without and with FRESH. -/
def dataFrame (fresh : Bool) : Frame := { head := if fresh then 0x94 else 0x90, address := 10, payload := [1, 2, 3, 4] }

/-- RUN in the guard after a PROBE of node 0, with its outcome and the kind of its IDENT. -/
def probed (o : Attempt) (kind : Byte) (list : List PollEntry) : State := on fun _ =>
  let f : Frame := { head := 0x98, address := 10, payload := [kind, 1, 4, 4] }
  let p := (onLine .guarding (.probe 0) (some o) (some f) .probing).part
  { p with sched := { p.sched with pollList := list } }

theorem witness_PollOutcomeTaken :
    let s := polled .good (some (dataFrame false)) 0 .live
    (s.part.ladder.state = .run ∧ s.part.frames.state = .guarding ∧ s.part.frames.exchange = some (.poll 0 none) ∧
      (s.part.node 0).state = .live ∧ s.part.frames.outcome = some .good ∧
      s.part.frames.rx = some (dataFrame false) ∧ (dataFrame false).flag 2 = false ∧ (dataFrame true).flag 2 = true) ∧
    ((polled .timeout none 0 .suspect).part.frames.outcome = some .timeout ∧
      (polled .timeout none 0 .suspect).part.sched.attempts = 0 ∧
      ((polled .timeout none 0 .suspect).part.node 0).state = .suspect) ∧
    0 < (polled .timeout none 1 .live).part.sched.attempts ∧
    ((polled .timeout none 0 .live).part.node 0).missCount + 1 <
      ((polled .timeout none 0 .live).part.node 0).applied.missLimit ∧
    (after (exec (.guardEnd 0) (polled .timeout none 0 .live))).part.counter .nodeMisses = 1 ∧
    ((probed .good 7 []).part.ladder.state = .run ∧ (probed .good 7 []).part.frames.state = .guarding ∧
      (probed .good 7 []).part.frames.exchange = some (.probe 0) ∧ ((probed .good 7 []).part.node 0).state = .probing ∧
      (probed .good 7 []).part.frames.outcome = some .good) ∧
    ((after (exec (.guardEnd 0) (probed .good 7 []))).part.node 0).state = .live ∧
    ((probed .damaged 7 []).part.frames.outcome = some .damaged ∧
      (probed .damaged 7 [.poll 0]).part.sched.pollList.head? = some (.poll 0)) := by decide

theorem witness_WindowAdapts :
    WindowSize.w8.slots < 4 * 3 ∧ 4 * 2 ≤ WindowSize.w8.slots ∧ (2 : Fin 4).val + 1 < 4 ∧ (3 : Fin 4).val + 1 = 4 := by decide

/-- RUN in a window's slot. -/
def slotAt (n : Nat) (st : NodeState) : State := on fun _ =>
  let p := (onLine .slotting .window none none st).part
  { p with frames := { p.frames with slot := n } }

set_option maxRecDepth 8000 in
/-- The slot's carrier of the lost node's bid above, with reason ATTEND, and the states of a node that bids. -/
theorem witness_SlotTaken :
    let bid : List LineItem := [.byte 0xD3, .byte 0xB8, .byte 10, .byte 2, .byte 2, .byte 0, .byte 0x5D, .byte 0xB6]
    ([NodeState.live, .suspect, .lost, .probing, .misfit].all fun n =>
      let s := slotAt 0 n
      s.part.ladder.state == .run && s.part.frames.state == .slotting && !s.part.frames.spill && !s.part.frames.clash &&
        s.part.enabledAt 10 == some 0 && (s.part.node 0).state == n && (s.part.node 0).applied.eventsEnabled &&
        !(s.part.nodeEvents 0).latch && s.part.enabledAt 77 == none) = true ∧
    (on fun _ => (slotAt 0 .live).part.indicate 0 .data).part.events.queue = [0] ∧
    framesHeard bid = [] ++ some { head := 0xB8, address := 10, payload := [2, 0] } :: [] ∧
    ((0xB8 : Byte).msb = true ∧ (0xB8 : Byte).extractLsb' 3 4 = 7 ∧ (0xB8 : Byte).extractLsb' 0 3 = 0) ∧
    slotReport { items := bid, overruns := false } false false = .goodBid 10 2 0 ∧
    slotReport { items := [], overruns := false } false false = .quiet ∧
    slotReport { items := [], overruns := true } false false = .quiet ∧
    slotReport { items := [], overruns := true } true false = .notGood ∧
    framesHeard [.violation] = [none] ∧ slotReport { items := [.violation], overruns := false } false false = .notGood ∧
    (slotAt 0 .lost).part.frames.slot + 1 < (slotAt 0 .lost).part.windows.size.slots ∧
    (slotAt 1 .lost).part.windows.size.slots ≤ (slotAt 1 .lost).part.frames.slot + 1 := by decide

set_option maxRecDepth 8000 in
/-- R62: a damaged stretch, 2 bt of quiet and then an intact bid in the same slot is a good bid; a bid that overruns is not. -/
theorem test_slot_of_two_stretches :
    let bid : List LineItem := [.byte 0xD3, .byte 0xB8, .byte 10, .byte 2, .byte 2, .byte 0, .byte 0x5D, .byte 0xB6]
    slotReport { items := .violation :: .gap :: bid, overruns := false } false false = .goodBid 10 2 0 ∧
    slotReport { items := .violation :: .gap :: bid, overruns := true } false false = .notGood := by decide

/-- A close at a position, with its fill bank or none. -/
def closeAt (fill : Option Bank) (pos : Nat) : State := on fun _ =>
  let p := access .close 0x0C none (inPhase .closing false).part
  { p with images := { p.images with close := some { fill := fill, pos := pos, live := 0, fresh := 0 } } }

/-- A take or a slice in progress in RUN: its access, whether a take is owed, and the words of the slice left. -/
def imaging (source : Source) (owed : Bool) (left : Nat) : State := on fun _ =>
  let p := access source 0x08 none (node0 .live (inPhase .polling false).part)
  { p with images := { p.images with
      takeOwed := owed, inUse := some 2, slice := some { node := 0, ack := none, got := [], left := left } } }

theorem witness_CloseSteps :
    ([Source.outTake, .outInUse, .slice].all fun source => [true, false].all fun owed => [1, 2].all fun left =>
      (imaging source owed left).current == some { offset := 0x08, write := none, source := source } &&
        !(imaging source owed left).part.ladder.softPending && (imaging source owed left).part.ladder.state == .run &&
        (imaging source owed left).part.sched.state == .polling) = true ∧
    ((0x00000002 : Word).extractLsb' 8 24 = (imaging .outTake false 1).part.images.countTaken ∧
      (0x00000102 : Word).extractLsb' 8 24 ≠ (imaging .outTake false 1).part.images.countTaken ∧
      ((0x00000102 : Word).extractLsb' 0 8).toNat = (2 : Bank).val ∧ 3 ≤ ((0x00000103 : Word).extractLsb' 0 8).toNat) ∧
    ((imaging .slice false 1).part.images.slice = some { node := 0, ack := none, got := [], left := 1 } ∧
      (imaging .slice false 2).part.images.slice = some { node := 0, ack := none, got := [], left := 2 } ∧
      (imaging .slice false 1).part.images.inUse = some 2) ∧
    ((closeAt none 0).current = some { offset := 0x0C, write := none, source := .close } ∧
      (closeAt none 0).part.ladder.softPending = false ∧
      (closeAt none 0).part.images.close = some { fill := none, pos := 0, live := 0, fresh := 0 } ∧
      3 ≤ ((3 : Word).extractLsb' 0 8).toNat ∧ ((3 : Word).extractLsb' 0 8).toNat ≠ 255 ∧
      ((2 : Word).extractLsb' 0 8).toNat < 3 ∧ ((255 : Word).extractLsb' 0 8).toNat = 255) ∧
    ((closeAt (some 1) 18).part.images.close = some { fill := some 1, pos := 18, live := 0, fresh := 0 } ∧
      18 + 1 = 16 + ((closeAt (some 1) 18).part.loader.settings.inBytes + 3) / 4 + 1) ∧
    ([0, 1, 2, 3, 4, 5, 14, 15, 16, 17].all fun pos =>
      let s := closeAt (some 1) pos
      s.current == some { offset := 0x0C, write := none, source := .close } && !s.part.ladder.softPending &&
        s.part.ladder.state == .run && s.part.images.close == some { fill := some 1, pos := pos, live := 0, fresh := 0 } &&
        decide (pos + 1 < 16 + (s.part.loader.settings.inBytes + 3) / 4 + 1)) = true ∧
    ({ Part.reset.faults with divisorDue := true }).divisorDue = true := by decide

/-- An append of node 0 at its publish word, with MORE or not. -/
def appendAt (more : Bool) : State := on fun _ =>
  let p := access .append 0x50 (some 1) (node0 .live running.part)
  { p with events := { p.events with
      appending := some 8, queue := [0], claimed := 1,
      appends := [{ what := .event 0 18 more, record := [], detached := false, void := false }] } }

/-- A read of the events-taken word in progress. -/
def takenReading (invalid : Bool) : State := on fun _ =>
  let p := access .eventsTaken 0x14 none running.part
  { p with events := { p.events with takenRead := some { onFetch := false }, written := 5, taken := 3, takenInvalid := invalid } }

/-- RUN or HELD-SERVICE in the guard after a FETCH attempt of node 0, its last accepted number 5. -/
def fetchEnds (l : LadderState) (o : Attempt) (f : Frame) (attempts : Nat) : State := on fun _ =>
  let p := exch (.fetch 0 none) (some o) (some f) (rung l .guarding (node0 .live running.part))
  let p := p.indicate 0 .data
  { p with
    sched := { p.sched with state := if l = .run then .fetching else .stopped, attempts := attempts },
    events := { p.events with claimed := 1, nodes := p.events.nodes.set 0 { p.events.nodes.get 0 with accepted := 5, valid := true } } }

/-- EVENT with the flag NONE, and with a sequence number. -/
def eventFrame (none : Bool) (seq : Byte) : Frame :=
  { head := if none then 0xA1 else 0xA0, address := 10, payload := if none then [] else [seq, 1, 2] }

/-- An append of a stray note from address 77 with count 2, at a position, its entry sighted 4 times by now or 3 times. -/
def noteAt (pos count : Nat) : State := on fun _ =>
  let p := access .append 0x50 (some 1) held.part
  let p := p.modWindows fun w => { w with
    strays := [{ address := 77, origin := .alert, kind := 0, count := count, lastNote := 1, pendingNote := true }] }
  { p with events := { p.events with
      appending := some pos, claimed := 1, noteUnderWay := true,
      appends := [{ what := .note 77 2, record := [], detached := false, void := false }] } }

/-- R91: the entry is NOTED with the count of its note, or is offered again where its count has doubled. -/
theorem test_note_appended :
    ((after (exec .appendComplete (noteAt 8 3))).part.windows.strays.map fun e => (e.lastNote, e.pendingNote)) = [(2, false)] ∧
    (after (exec .appendComplete (noteAt 8 3))).part.events.noteUnderWay = false ∧
    ((after (exec .appendComplete (noteAt 8 4))).part.windows.strays.map fun e => (e.lastNote, e.pendingNote)) = [(2, true)] ∧
    (after (exec .appendComplete (noteAt 8 4))).part.events.appends.map (·.what) = [.note 77 4] := by decide

theorem witness_EventListKept :
    ([0, 8].all fun pos =>
      let s := noteAt pos 4
      s.current == some { offset := 0x50, write := some 1, source := .append } && !s.part.ladder.softPending &&
        s.part.ladder.state == .held && s.part.events.appending == some pos &&
        s.part.events.appends.map (·.what) == [.note 77 2] && s.part.ladder.state.worksMemory &&
        !s.part.events.takenInvalid && !s.part.events.appendStopped &&
        decide ((s.part.events.written + 1 - s.part.events.taken).toNat + (s.part.events.claimed - 1) < 64)) = true ∧
    ((appendAt false).current = some { offset := 0x50, write := some 1, source := .append } ∧
      (appendAt false).part.events.appending = some 8 ∧ (appendAt true).part.events.appending = some 8 ∧
      (appendAt false).part.ladder.softPending = false) ∧
    ((takenReading false).current = some { offset := 0x14, write := none, source := .eventsTaken } ∧
      (takenReading false).part.events.takenRead = some { onFetch := false } ∧
      ((5 : Word) - 5).toNat ≤ ((5 : Word) - 3).toNat ∧ ((5 : Word) - 3).toNat < ((5 : Word) - 2).toNat ∧
      (takenReading false).part.events.takenInvalid = false ∧ (takenReading true).part.events.takenInvalid = true) ∧
    ([LadderState.run, .heldService].all fun l => [Attempt.good, .timeout].all fun o => [0, 1].all fun attempts =>
      let s := fetchEnds l o (eventFrame false 6) attempts
      s.part.ladder.state == l && !s.part.ladder.serviceWait && !s.part.ladder.serviceRead &&
        s.part.frames.state == .guarding && s.part.frames.exchange == some (.fetch 0 none) &&
        s.part.frames.outcome == some o && s.part.frames.rx == some (eventFrame false 6) &&
        (s.part.node 0).state == .live && s.part.sched.attempts == attempts && (s.part.nodeEvents 0).latch &&
        (s.part.nodeEvents 0).valid) = true ∧
    ((eventFrame true 0).flag 0 = true ∧ (eventFrame false 5).flag 0 = false ∧
      payloadByte (eventFrame false 5).payload 0 = ((fetchEnds .run .good (eventFrame false 5) 0).part.nodeEvents 0).accepted ∧
      payloadByte (eventFrame false 6).payload 0 ≠ 5) := by decide

/-- A visit of slot 2 before its last read, with the target word and the parcel queue. -/
def visiting (withdraw target : Word) (queue : List Parcel) : State := on fun _ =>
  let p := access .walk 0x240C none (node0 .live running.part)
  { p with parcels := { p.parcels with walk := .visit 2 5 [1, 0, 0, withdraw, target], queue := queue } }

/-- An entry of slot `k` for node 0. -/
def parcel (k : SlotIx) : Parcel :=
  takenParcel k { node := 0, ask := 1, target := 10, operation := .read, parameter := 0, length := 0 } [] 100 0

/-- A visit of slot 2 before its third read, with its ask and taken words and what is deferred. -/
def visitStarts (ask taken : Word) (deferred : Option Deferred) : State := on fun _ =>
  let p := access .walk 0x2504 none (node0 .live running.part)
  { p with parcels := { p.parcels with walk := .visit 2 1 [ask, taken], deferred := deferred } }

theorem witness_SlotVisited :
    ((visiting 0 0x0000010A []).part.ladder.state.pauses = false ∧ (visitStarts 2 1 none).part.ladder.state.pauses = false) ∧
    ((roused (visiting 0 0x0000010A [])).current = some { offset := 0x240C, write := none, source := .walk } ∧
      (roused (visiting 0 0x0000010A [])).part.ladder.softPending = false ∧
      (roused (visiting 0 0x0000010A [])).part.ladder.state = .rousing ∧
      (roused (visiting 0 0x0000010A [])).part.parcels.walk = .visit 2 5 [1, 0, 0, 0, 0x0000010A]) ∧
    let s := visiting 0 0x0000010A []
    let first := visitStarts 2 1 none
    (first.current = some { offset := 0x2504, write := none, source := .walk } ∧ first.part.ladder.softPending = false ∧
      first.part.parcels.walk = .visit 2 1 [2, 1] ∧ (2 : Word).extractLsb' 0 16 ≠ (1 : Word).extractLsb' 0 16 ∧
      (visitStarts 1 1 none).part.parcels.walk = .visit 2 1 [1, 1]) ∧
    (visitStarts 2 1 (some { slot := 2, taken := 1, outcome := .done })).part.parcels.deferred =
      some { slot := 2, taken := 1, outcome := .done } ∧
    (s.current = some { offset := 0x240C, write := none, source := .walk } ∧ s.part.ladder.softPending = false ∧
      s.part.parcels.walk = .visit 2 5 [1, 0, 0, 0, 0x0000010A]) ∧
    (s.part.enabledAt 10 = some 0 ∧ (s.part.node 0).state ≠ .lost ∧ (s.part.node 0).state ≠ .misfit ∧
      s.part.parcels.queue.length < 6 ∧ s.part.enabledAt 77 = none) ∧
    ((0 : Word).extractLsb' 0 16 ≠ (1 : Word).extractLsb' 0 16 ∧ ¬ 240 < ((240 : Word).extractLsb' 0 16).toNat ∧
      240 < ((241 : Word).extractLsb' 0 16).toNat ∧
      ¬ (1 ≤ ((0x0000040A : Word).extractLsb' 8 8).toNat ∧ ((0x0000040A : Word).extractLsb' 8 8).toNat ≤ 3) ∧
      ¬ (1 ≤ ((0x000001FB : Word).extractLsb' 0 8).toNat ∧ ((0x000001FB : Word).extractLsb' 0 8).toNat ≤ 250)) ∧
    6 ≤ (visiting 0 0x0000010A [parcel 3, parcel 4, parcel 5, parcel 6, parcel 7, parcel 8]).part.parcels.queue.length := by
  decide

/-- RUN with the withdraw number of slot 2's entry being read. -/
def withdrawing : State := on fun _ =>
  let p := access .withdraw 0x2404 none (node0 .live (inPhase .parcelling false).part)
  { p with parcels := { p.parcels with queue := [parcel 2] }, sched := { p.sched with withdrawRead := some 2 } }

/-- The same, the entry failed meanwhile with its ABANDON owed. -/
def withdrawingFailed : State := on fun _ =>
  { withdrawing.part with parcels := { withdrawing.part.parcels with
      queue := [{ parcel 2 with transfer := .finishing, outcome := .transferFailed, abandonOwed := true, segSent := true }] } }

/-- HELD with node 0 in service. -/
def inService : State := on fun _ => node0 .live held.part

theorem inService_node (i : NodeIx) :
    inService.part.node i = NodeRecord.reset ∨
    i = 0 ∧ inService.part.node i =
      { NodeRecord.reset with applied := { entry12 10 0 with eventsEnabled := true }, state := .live } := by
  revert i; decide

theorem inService_recordsOk : inService.part.recordsOk := by
  refine ⟨fun i => ?_, fun i j hi hj _ => ?_⟩
  · rcases inService_node i with h | ⟨_, h⟩ <;> rw [h] <;> refine ⟨?_, ⟨rfl, rfl⟩, ?_, ?_⟩ <;>
      simp [NodeEntry.inRange, NodeRecord.reset, NodeEntry.cleared, entry12, NodeState.inService]
  · rcases inService_node i with h | ⟨h, _⟩ <;> rcases inService_node j with k | ⟨k, _⟩
    · rw [h] at hi; cases hi
    · rw [h] at hi; cases hi
    · rw [k] at hj; cases hj
    · rw [h, k]

theorem witness_NodeTableLawKept :
    let s := { inService with pending := [.lineActivity] }
    s.part.recordsOk ∧ (s.part.node 0).state = .live ∧ ∃ t, step s = .next t :=
  ⟨inService_recordsOk, by decide, _, rfl⟩

theorem witness_QueueLawsKept :
    (eventWaits.part.queueOk ∧ eventWaits.part.events.queue = [0]) ∧
    ((appendAt false).part.placesOk ∧ (appendAt false).part.placesNeeded = 1 ∧ (appendAt false).part.sched.state = .stopped) ∧
    (withdrawing.part.parcelsOk ∧ (withdrawing.part.parcels.queue.map Parcel.slot) = [2]) ∧
    ∃ t, step { eventWaits with pending := [.nudge] } = .next t := by
  refine ⟨⟨?_, by decide⟩, ⟨?_, by decide⟩, ⟨?_, by decide⟩, _, rfl⟩
  · unfold Part.queueOk; decide
  · unfold Part.placesOk; decide
  · unfold Part.parcelsOk; decide

/-- The patience of slot 2's entry has run out at an open. -/
def expiring : State := on fun _ =>
  let p := (inPhase .opening false).part
  { p with parcels := { p.parcels with queue := [{ parcel 2 with patience := 0 }] }, sched := { p.sched with parcelOpen := .expiring } }

/-- The ABANDON of slot 2's entry has been sent. -/
def abandoning : State := on fun _ =>
  let p := (onLine .guarding (.abandon 0 2) none none .live).part
  { p with parcels := { p.parcels with queue := [{ parcel 2 with transfer := .finishing, abandonOwed := true }] } }

/-- The answer number of slot 2's entry is being written. -/
def answering : State := on fun _ =>
  let p := access .answer 0x2504 (some 1) running.part
  { p with parcels := { p.parcels with
      queue := [{ parcel 2 with transfer := .finishing }], answers := [.entry 2], answering := some (.writing [(0x2504, 1)]) } }

/-- RUN in the guard after a SEG or a NEXT of slot 2's entry, in its transfer state and with attempts failed before. -/
def parcelEnds (ex : Exchange) (o : Attempt) (payload : List Byte) (tr : Transfer) (attempts : Nat) : State := on fun _ =>
  let p := (onLine .guarding ex (some o) (some { head := 0xB0, address := 10, payload := payload }) .live).part
  { p with
    sched := { p.sched with state := .parcelling },
    parcels := { p.parcels with queue := [{ parcel 2 with transfer := tr, segSent := true, attempts := attempts }] } }

/-- An answer of each kind at its withdraw check or at its last write. -/
def answers (a : AnswerFor) (at' : AnswerPos) : State := on fun _ =>
  let p := access .answer 0x2504 none running.part
  { p with parcels := { p.parcels with
      queue := [{ parcel 2 with transfer := .finishing }], answers := [a], answering := some at',
      deferred := some { slot := 2, taken := 1, outcome := .done }, walk := .answering 2 2 } }

/-- R129, log 37: an answer number written at rest leaves the entry in the queue; it leaves it, counted, as HELD is entered. -/
theorem test_answer_written_at_rest_ends_in_held :
    let t := after (exec .answerWriteComplete (roused answering))
    let held := after (exec .rouseTimerExpiry t)
    (t.part.parcelOf 2).isSome = true ∧ t.part.hasCause .parcel = false ∧ t.part.parcels.keptEnd = some (.answer (some 1)) ∧
    held.part.parcelOf 2 = none ∧ held.part.hasCause .parcel = true ∧ held.part.parcels.keptEnd = none := by decide

theorem witness_ParcelsEnd :
    ([(Transfer.sending 0, Exchange.seg 0 2 1 0x80), (.asking 0, .next 0 2 1 0)].all fun (tr, ex) =>
      [Attempt.good, .timeout].all fun o => [0, 2].all fun attempts =>
        let s := parcelEnds ex o [1, 0x80, 0, 1, 7] tr attempts
        s.part.ladder.state == .run && s.part.frames.state == .guarding && s.part.frames.exchange == some ex &&
          s.part.frames.outcome == some o && s.part.frames.rx.isSome && (s.part.parcelOf 2).isSome &&
          (s.part.parcelOf 2).all fun e => e.transfer == tr && e.attempts == attempts) = true ∧
    ([Exchange.seg 0 2 1 0x80, .next 0 2 1 0].all fun ex => [Attempt.good, .timeout].all fun o =>
        let s := parcelEnds ex o [1, 0x80, 0, 1, 7] .finishing 0
        s.part.ladder.state == .run && s.part.frames.state == .guarding && s.part.frames.exchange == some ex &&
          s.part.frames.outcome == some o && s.part.frames.rx.isSome &&
          (s.part.parcelOf 2).any (·.transfer == .finishing)) = true ∧
    lastSegment (parcel 2).request.length = 0 ∧
    (Part.reset.parcels.passPos = none ∧ ({ Part.reset.parcels with passPos := some 0 }).passPos = some 0 ∧
      (withdrawing.part.parcels.queue.drop 0).find? (fun o => withdrawing.part.parcelEligible o && !o.given && !o.passed) =
        some (parcel 2)) ∧
    (withdrawing.current = some { offset := 0x2404, write := none, source := .withdraw } ∧
      withdrawing.part.ladder.softPending = false ∧ withdrawing.part.ladder.state = .run ∧
      withdrawing.part.sched.withdrawRead = some 2 ∧ withdrawing.part.parcelOf 2 = some (parcel 2) ∧
      withdrawing.part.parcelEligible (parcel 2) = true ∧ (parcel 2).sendsNext = true) ∧
    (withdrawingFailed.current = some { offset := 0x2404, write := none, source := .withdraw } ∧
      withdrawingFailed.part.ladder.softPending = false ∧ withdrawingFailed.part.ladder.state = .run ∧
      withdrawingFailed.part.sched.withdrawRead = some 2 ∧
      (withdrawingFailed.part.parcelOf 2).any (fun e => withdrawingFailed.part.parcelEligible e && !e.sendsNext) = true) ∧
    (expiring.part.ladder.state = .run ∧ held.part.ladder.state ≠ .run ∧ expiring.part.sched.parcelOpen = .expiring ∧
      expiring.part.parcelOf 2 = some { parcel 2 with patience := 0 } ∧
      (parcel 2).transfer ≠ .finishing) ∧
    (abandoning.part.ladder.state = .run ∧ abandoning.part.frames.state = .guarding ∧
      abandoning.part.frames.exchange = some (.abandon 0 2) ∧ (abandoning.part.parcelOf 2).isSome = true) ∧
    (answering.current = some { offset := 0x2504, write := some 1, source := .answer } ∧
      answering.part.parcels.answering = some (.writing [(0x2504, 1)]) ∧
      answering.part.parcels.answers = [.entry 2] ∧ (answering.part.parcelOf 2).isSome = true) ∧
    ([(AnswerFor.entry 2, AnswerPos.checking), (.immediate 2 1 .withdrawn, .writing [(0x2504, 1)]),
        (.deferred, .writing [(0x2504, 1)])].all fun (a, pos) =>
      (answers a pos).current == some { offset := 0x2504, write := none, source := .answer } &&
        !(answers a pos).part.ladder.softPending && (answers a pos).part.parcels.answers == [a] &&
        (answers a pos).part.parcels.answering == some pos && ((answers a pos).part.parcelOf 2).isSome &&
        !(answers a pos).part.ladder.state.pauses && (answers a pos).part.parcels.walk == .answering 2 2 &&
        (roused (answers a pos)).current == some { offset := 0x2504, write := none, source := .answer } &&
        !(roused (answers a pos)).part.ladder.softPending && (roused (answers a pos)).part.ladder.state == .rousing &&
        (roused (answers a pos)).part.parcels.answering == some pos) = true := by decide

/-- R119, log 56: the SEGACK of LAST takes an entry that has timed out meanwhile past its cut-off; an earlier segment's does not. -/
theorem test_segack_of_last_after_the_time_out :
    let acked := fun segment => after (exec (.guardEnd 0) (parcelEnds (.seg 0 2 1 segment) .good [1, segment] .finishing 0))
    let past := fun segment => ((acked segment).part.parcelOf 2).map fun e => (e.transfer, e.pastCutoff)
    past 0x80 = some (.finishing, true) ∧ past 0 = some (.finishing, false) := by decide

/-! ## The optional phases -/

/-- An open whose poll list is empty, node 0 LIVE and not due, with a window interval, the time left to the expiry in half microseconds and
a change made. -/
def idleOpen (interval left : Nat) (f : Part → Part) : State := on fun _ =>
  let p := (opened .live).part.modNode 0 fun r => { r with applied := { r.applied with periodClass := 2 } }
  f { p with sched := { p.sched with interval := interval, timer := some left },
             windows := { p.windows with size := .w4, streak := 2, lastClash := true } }

/-- Slot 2's entry queued in a transfer state. -/
def queued (tr : Transfer) (p : Part) : Part :=
  { p with parcels := { p.parcels with queue := [{ parcel 2 with transfer := tr, segSent := tr != .waiting, abandonOwed := tr == .finishing }] } }

/-- The event list without a free place. -/
def full (p : Part) : Part := { p with events := { p.events with written := 64 } }

/-- A window of 4 slots at 5 µs a byte lasts 295 µs, a FETCH 290, a SEG 470, a NEXT 460 and an ABANDON 50, each with 40 µs more (R36). -/
theorem witness_optionalPhases :
    ((idleOpen 1 670 id).part.openIsReady = true ∧ (idleOpen 1 670 id).part.ladder.state = .run ∧
      (idleOpen 1 670 id).part.enterPolling.sched.pollList = []) ∧
    ((inPhase .polling false).part.fits 96 = true ∧ (idleOpen 1 670 id).part.fits 59 = true ∧ (idleOpen 1 669 id).part.fits 59 = false) ∧
    (polled .good (some (dataFrame false)) 0 .live).part.sched.pollList = [] ∧
    (polled .timeout none 0 .live).part.sched.pollList = [] ∧ (probed .good 7 []).part.sched.pollList = [] := by decide

set_option maxRecDepth 8000 in
/-- R37, R82, R89: a due window that fits is opened, one that does not halves the size; past the expiry nothing changes. -/
theorem test_window_by_its_fit :
    let run := fun interval left => (after (exec (.openReady 70) (idleOpen interval left id))).part
    ((run 1 740).sched.state = .windowing ∧ (run 1 740).frames.exchange = some .window ∧
      (run 1 740).frames.tx = encodeFrame .window 0 0 [4, 1] ∧ (run 1 740).windows.isOpen = true) ∧
    ((run 1 739).sched.state = .closing ∧ (run 1 739).windows.size = .w2 ∧ (run 1 739).windows.streak = 0 ∧
      (run 1 739).windows.lastClash = true) ∧
    ((run 1 70).sched.state = .closing ∧ (run 1 70).windows.size = .w4 ∧ (run 1 70).windows.streak = 2) ∧
    ((run 2 740).sched.state = .closing ∧ (run 2 740).windows.size = .w4) := by decide

set_option maxRecDepth 8000 in
/-- R38, R96: a queued node's FETCH by its fit and by the place; with a full list the events-taken word is read. -/
theorem test_fetch_by_its_fit :
    let run := fun left f => (after (exec (.openReady 0) (idleOpen 0 left fun p => f (p.indicate 0 .data)))).part
    ((run 660 id).sched.state = .fetching ∧ (run 660 id).frames.exchange = some (.fetch 0 none) ∧ (run 660 id).events.claimed = 1) ∧
    ((run 659 id).sched.state = .closing ∧ (run 659 id).events.claimed = 0) ∧
    ((run 660 full).sched.fetchRead = true ∧ (run 660 full).events.takenRead = some { onFetch := true }) := by decide

set_option maxRecDepth 8000 in
/-- R39, R118 to R123: the first eligible entry's exchange by its fit, a SEG behind the read of its withdraw number. -/
theorem test_parcel_by_its_fit :
    let run := fun left tr => (after (exec (.openReady 0) (idleOpen 0 left (queued tr)))).part
    ((run 0 .waiting).sched.withdrawRead = some 2 ∧
      (run 0 .waiting).bus = [{ offset := 0x2404, write := none, source := .withdraw }]) ∧
    ((run 1000 (.asking 1)).sched.state = .parcelling ∧ (run 1000 (.asking 1)).frames.exchange = some (.next 0 2 0x12 1) ∧
      (run 999 (.asking 1)).sched.state = .closing) ∧
    ((run 180 .finishing).sched.state = .parcelling ∧ (run 180 .finishing).frames.exchange = some (.abandon 0 2) ∧
      (run 179 .finishing).sched.state = .closing) := by decide

set_option maxRecDepth 8000 in
/-- R119, R120: with the withdraw number read the SEG is given where it fits; else the entry stays in WAITING (log 53). -/
theorem test_seg_by_its_fit :
    let run := fun left => (after (exec (.withdrawCheck (some 0) 0)
      { withdrawing with part := { withdrawing.part with sched := { withdrawing.part.sched with timer := some left } } })).part
    ((run 1020).sched.state = .parcelling ∧ (run 1020).frames.exchange = some (.seg 0 2 0x12 0x80) ∧
      ((run 1020).parcelOf 2).map (·.transfer) = some (.sending 0)) ∧
    ((run 1019).sched.state = .closing ∧ ((run 1019).parcelOf 2).map (·.transfer) = some .waiting) := by decide

set_option maxRecDepth 8000 in
/-- R119: a parcel withdrawn with a segment sent has its ABANDON named in place of the SEG, where it fits. -/
theorem test_abandon_in_place_of_the_seg :
    let s := fun left => { withdrawing with part := queued (.sending 0) { withdrawing.part with
      sched := { withdrawing.part.sched with timer := some left } } }
    let run := fun left => (after (exec (.withdrawCheck (some 1) 0) (s left))).part
    ((s 180).part.parcelOf 2).map (fun e => (e.segSent, e.sendsNext, (s 180).part.parcelEligible e)) = some (true, true, true) ∧
    (run 180).frames.exchange = some (.abandon 0 2) ∧ (run 179).sched.state = .closing ∧
    ((run 179).parcelOf 2).map (fun e => (e.outcome, e.abandonOwed)) = some (.withdrawn, true) := by decide

set_option maxRecDepth 8000 in
/-- R38: a further attempt of a FETCH is given where it fits; else the place is released and the phase ends. In held-line service there is
no such check. -/
theorem test_fetch_attempt_by_its_fit :
    let s := fun l left =>
      let s := fetchEnds l .timeout (eventFrame false 6) 1
      { s with part := { s.part with sched := { s.part.sched with timer := left } } }
    let run := fun l left => (after (exec (.guardEnd 0) (s l left))).part
    ((run .run (some 660)).frames.exchange = some (.fetch 0 none) ∧ (run .run (some 660)).events.claimed = 1) ∧
    ((run .run (some 659)).sched.state = .closing ∧ (run .run (some 659)).events.claimed = 0) ∧
    ((run .heldService none).frames.exchange = some (.fetch 0 none) ∧ (run .heldService none).events.claimed = 1) := by decide

/-- R118: behind the last entry of a pass in which an exchange was named a new pass begins at the head. -/
theorem test_new_pass_at_the_head :
    let p := { withdrawing.part with parcels := { withdrawing.part.parcels with
      passPos := some 1, passNamed := true, queue := [{ parcel 2 with given := true, transfer := .asking 1 }] } }
    (p.parcels.queue.drop 1).find? (fun o => p.parcelEligible o && !o.given && !o.passed) = none ∧
    (p.parcels.queue.find? fun o => p.parcelEligible o && !o.passed).map (·.slot) = some 2 ∧
    p.parcelNext.frames.exchange = some (.next 0 2 0x12 1) ∧ p.parcelNext.parcels.passPos = some 1 := by decide

set_option maxRecDepth 8000 in
/-- R127: the reply of a parcel that ends DONE past its cut-off is written first, the answer number last. -/
theorem test_answer_of_a_reply :
    let s := parcelEnds (.next 0 2 0x12 0) .good [0x12, 0x80, 0, 1, 7] (.asking 0) 0
    let s := { s with part := s.part.modParcel 2 fun e => { e with pastCutoff := true } }
    s.part.parcels.answering = none ∧ s.part.parcels.answers = [] ∧
    (after (exec (.guardEnd 0) s)).part.parcels.answering =
      some (.writing [(0x2510, 7), (0x2508, 0x00010001), (0x2504, 1)]) := by decide

/-- A snapshot's last word is being written. -/
def snapping (st : SnapState) : State := on fun _ =>
  let p := access .snapshot 0xE00 (some 2) running.part
  p.modFaults fun f => { f with
    snapState := st,
    snapshot := some { pos := 171, counters := tabFill 24 0, cycle := 1, ask := 0, totals := tabFill 48 (0, 0) } }

/-- An open at which node 0's countdown is at 0 and the statistics period is over. -/
def counting : State := on fun _ =>
  let p := (node0 .lost (inPhase .opening false).part).modNode 0 fun r => { r with countdown := some 0 }
  { p with sched := { p.sched with nodeOpen := .expiring }, faults := { p.faults with periodDue := true } }

/-- A status record of node 0 being written at a word. -/
def statusAt (word : Fin 4) (cause : Bool) : State := on fun _ =>
  let p := access (.status word) 0x80C (some 0) (node0 .live running.part)
  { p with table := { p.table with writes := [{ node := 0, cause := cause }] } }

/-- STARTING with a status record of start-up being written. -/
def startingStatus (word : Fin 4) : State := on fun _ =>
  let p := (statusAt word false).part
  { p with ladder := { p.ladder with state := .starting, startup := some { Startup.first with pos := .status 0 0 } } }

/-- An open writes the failed answer of slot 2's entry again, at its last word, with that of slot 3's still to come or not. -/
def rewriting (more : Bool) : State := on fun _ =>
  let p := access .answer 0x2504 (some 1) (node0 .live (inPhase .opening false).part)
  let failed := { parcel 2 with transfer := .finishing, answerFailed := true }
  { p with
    sched := { p.sched with parcelOpen := .rewriting, cycle := 1 },
    parcels := { p.parcels with
      queue := [failed, { parcel 3 with transfer := .finishing, answerFailed := true }, parcel 4, { parcel 5 with takenIn := 1 }],
      answers := if more then [.entry 2, .entry 3] else [.entry 2], answering := some (.writing [(0x2504, 1)]) } }

/-- R128: patience is lowered once the last answer written again has ended, and not before. R124: a parcel taken in the cycle that the
open started keeps its patience. -/
theorem test_patience_waits_for_the_answers_written_again :
    ((after (exec .answerWriteComplete (rewriting true))).part.parcelOf 4).map (·.patience) = some 100 ∧
    ((after (exec .answerWriteComplete (rewriting false))).part.parcelOf 4).map (·.patience) = some 99 ∧
    ((after (exec .answerWriteComplete (rewriting false))).part.parcelOf 5).map (·.patience) = some 100 := by decide

/-- R129: while the line is held no patience is lowered and no entry times out. -/
theorem test_patience_stands_still_in_held :
    let heldOf := fun s : State => on fun _ => { s.part with ladder := { s.part.ladder with state := .held } }
    ((after (exec .answerWriteComplete (heldOf (rewriting false)))).part.parcelOf 4).map (·.patience) = some 100 ∧
    exec (.patienceExpiry 2) (heldOf expiring) = .next (heldOf expiring) := ⟨by decide, rfl⟩

/-- R21: a status write that fails in STARTING leaves its record owed. -/
theorem test_status_write_that_fails_in_starting_is_owed :
    ((after (exec (.memoryErrorResponse 0) (startingStatus 3))).part.node 0).statusOwed = true := by decide

theorem witness_CountsExpire :
    (counting.part.sched.nodeOpen = .expiring ∧ counting.part.ladder.state = .run ∧
      (counting.part.node 0).state = .lost ∧ (counting.part.node 0).countdown = some 0) ∧
    ([(0 : Fin 4), 3].all fun word => [true, false].all fun cause =>
      (statusAt word cause).current == some { offset := 0x80C, write := some 0, source := .status word } &&
        !(statusAt word cause).part.ladder.softPending && (statusAt word cause).part.ladder.state == .run &&
        (statusAt word cause).part.table.writes == [{ node := 0, cause := cause }]) = true ∧
    ([(0 : Fin 4), 3].all fun word =>
      (startingStatus word).current == some { offset := 0x80C, write := some 0, source := .status word } &&
        !(startingStatus word).part.ladder.softPending && (startingStatus word).part.ladder.state == .starting &&
        (startingStatus word).part.table.writes == [{ node := 0, cause := false }]) = true ∧
    ([true, false].all fun more =>
      (rewriting more).current == some { offset := 0x2504, write := some 1, source := .answer } &&
        !(rewriting more).part.ladder.softPending && (rewriting more).part.ladder.state == .run &&
        (rewriting more).part.sched.parcelOpen == .rewriting &&
        (rewriting more).part.parcels.answering == some (.writing [(0x2504, 1)]) &&
        (rewriting more).part.parcels.answers == .entry 2 :: (if more then [.entry 3] else []) &&
        ((rewriting more).part.parcelOf 2).isSome && ((rewriting more).part.parcelOf 3).any (·.answerFailed)) = true ∧
    (counting.part.faults.periodDue = true ∧ counting.part.faults.askReading = false ∧
      counting.part.faults.snapState = .idle ∧ counting.part.faults.snapshot = none) ∧
    ((snapping .writing).current = some { offset := 0xE00, write := some 2, source := .snapshot } ∧
      (snapping .writing).part.faults.triggered = false ∧ (snapping .writing).part.faults.snapState = .writing ∧
      (snapping .owed).part.faults.snapState = .owed ∧ (snapping .owed).part.faults.snapshot.map (·.pos) = some 171) := by
  decide

/-- A commit check at its second read of the generation, in a directory of zeros but for the words given. -/
def judging (words : List Word) : State := on fun _ =>
  let p := access .loader 0x04 none running.part
  p.modLoader fun l => { l with
    check := some { origin := .opening, pos := .rereadGeneration, generation := 0, words := words } }

/-- The same check at rest, or with its reads over on the way back to HELD. -/
def judgingAtRest (pos : CheckPos) (words : List Word) : State := on fun _ =>
  let p := access .loader 0x04 none (rung .rousing .listening resting.part)
  let p := p.modLoader fun l => { l with check := some { origin := .nudge, pos := pos, generation := 0, words := words } }
  { p with ladder := { p.ladder with rouse := some 20 } }

/-- R142, R156, log 37: a directory found whole at rest is judged as HELD is next entered. -/
theorem test_directory_read_at_rest_is_judged_in_held :
    let t := after (exec (.memoryAccessComplete none 0) (judgingAtRest .rereadGeneration []))
    let held := after (exec .rouseTimerExpiry t)
    t.part.loader.check.map (·.pos) = some .awaitHeld ∧ t.part.loader.verdict.code = .none ∧
    held.part.loader.verdict.code = .badLineSetting ∧ held.part.loader.check.map (·.pos) = some .writeVerdict := by decide

/-- The line settings of the bring-up as words, newest first. -/
def settingsWords12 : List Word := [0x00140064, 0x00080008, 0x14000064, 0x01000402]

/-- A commit check at a position with one access in progress, its last verdict of a code, and one status record left. -/
def publishing (pos : CheckPos) (source : Source) (code : VerdictCode) (owed : Bool) : State := on fun _ =>
  let p := access source 0x58 (some 0) held.part
  let p := { p with table := { p.table with writes := [{ node := 0, cause := true }] } }
  p.modLoader fun l => { l with
    verdict := { code := code, entry := 255, residue := 0, generation := 1 }, generationOwed := owed,
    check := some { origin := .nudge, pos := pos, generation := 1, words := [] } }

/-- R135, R136, R144: the refused generation read again attempts no commit, a new one has the directory read; a second read that differs drops
the copy, in start-up to begin again. -/
theorem test_generation_reads :
    let read := fun s g => (after (exec (.memoryAccessComplete (some g) 0) s)).part.loader
    let first := fun o g => read (refusedRead o .readGeneration) g
    let second := fun o g => read (refusedRead o .rereadGeneration) g
    ((first .nudge 5).check = none ∧ (first .nudge 5).refused = some 5 ∧ (first .nudge 0).check = none ∧
      (first .nudge 0).refused = none) ∧
    ((first .nudge 6).check.map (fun c => (c.pos, c.generation)) = some (.readDirectory, 6) ∧
      (first .startup 5).check.map (fun c => (c.pos, c.generation)) = some (.readDirectory, 5)) ∧
    ((second .nudge 6).check = none ∧ (second .nudge 6).refused = some 5 ∧ (second .nudge 6).verdict.code = .none ∧
      (second .startup 6).check.map (fun c => (c.pos, c.words)) = some (.readGeneration, [])) := by decide

theorem witness_CommitJudged :
    ([CheckFrom.opening, .nudge, .owed, .startup].all fun o => [CheckPos.readGeneration, .rereadGeneration].all fun pos =>
      let s := refusedRead o pos
      s.current == some { offset := 0x04, write := none, source := .loader } && !s.part.ladder.softPending &&
        s.part.ladder.state == .held && s.part.loader.check.any (fun c => c.pos == pos && c.origin == o) &&
        !s.part.loader.checkOwed && s.part.loader.accepted == 0) = true ∧
    (judging []).current = some { offset := 0x04, write := none, source := .loader } ∧
    (judging []).part.ladder.softPending = false ∧
    (judging []).mem.readWord (busAddress (judging []).port.area 0x04) = 0 ∧
    (judging []).part.ladder.state.pauses = false ∧
    ([CheckPos.rereadGeneration, .awaitHeld].all fun pos => [[], settingsWords12].all fun words =>
      let s := judgingAtRest pos words
      s.current == some { offset := 0x04, write := none, source := .loader } && !s.part.ladder.softPending &&
        s.part.loader.check == some { origin := .nudge, pos := pos, generation := 0, words := words } &&
        s.mem.readWord (busAddress s.port.area 0x04) == 0 && s.part.ladder.state.pauses &&
        s.part.ladder.state == .rousing && s.part.ladder.rouse.isSome) = true ∧
    (judge (directoryOf settingsWords12.reverse) none).code = .accepted ∧
    (judge (directoryOf []) none).code = .badLineSetting ∧ settingsOf settingsWords12.reverse = settings12 ∧
    (judging settingsWords12).part.loader.settings = settings12 ∧
    (judge (directoryOf settingsWords12.reverse) (some settings12)).code = .accepted ∧
    ([CheckPos.writeVerdict, .writeGeneration, .rewriteVerdict, .rewriteGeneration].all fun pos =>
      [VerdictCode.accepted, .badAddress].all fun code => [true, false].all fun owed =>
        let s := publishing pos .loader code owed
        s.current == some { offset := 0x58, write := some 0, source := .loader } && !s.part.ladder.softPending &&
          s.part.loader.check == some { origin := .nudge, pos := pos, generation := 1, words := [] } &&
          s.part.loader.verdict.code == code && s.part.loader.generationOwed == owed) = true ∧
    (let s := publishing .awaitStatus (.status 3) .accepted false
     s.current = some { offset := 0x58, write := some 0, source := .status 3 } ∧ s.part.ladder.state ≠ .heldService ∧
       s.part.table.writes = [{ node := 0, cause := true }] ∧ s.part.sched.state ≠ .opening) := by decide

end Sys2Proof.Tests
end

section
/-!
SUPPORT. The due rule (R32): when a node is due, why the pattern has no break where the cycle number wraps, and which records the poll
list holds.
-/
namespace Sys2Proof.Machine

/-! ## The due rule and the wrap -/

theorem NodeEntry.due_iff (e : NodeEntry) (cycle : Word) :
    e.due cycle = true ↔ cycle.toNat % e.periodClass = e.phase := by
  simp [NodeEntry.due]

/-- A divisor of `2^w` sees no wrap: the residue of a word's sum is that of the unbounded sum. -/
theorem toNat_add_mod_of_dvd {w c : Nat} (x y : BitVec w) (hc : c ∣ 2 ^ w) :
    (x + y).toNat % c = (x.toNat + y.toNat) % c := by
  rw [BitVec.toNat_add, Nat.mod_mod_of_dvd _ hc]

theorem toNat_add_ofNat_self_mod_of_dvd {w c : Nat} (x : BitVec w) (hc : c ∣ 2 ^ w) :
    (x + BitVec.ofNat w c).toNat % c = x.toNat % c := by
  rw [toNat_add_mod_of_dvd x _ hc, BitVec.toNat_ofNat, Nat.add_mod, Nat.mod_mod_of_dvd _ hc, Nat.mod_self, Nat.add_zero,
    Nat.mod_mod]

theorem NodeEntry.due_add_periodClass (e : NodeEntry) (cycle : Word) (hc : e.periodClass ∣ 2 ^ 32) :
    e.due (cycle + BitVec.ofNat 32 e.periodClass) = e.due cycle := by
  rw [NodeEntry.due, NodeEntry.due, toNat_add_ofNat_self_mod_of_dvd cycle hc]

/-- Every period class divides the number of cycle numbers (R32). -/
theorem periodClass_dvd {c : Nat} (hc : c = 1 ∨ c = 2 ∨ c = 4 ∨ c = 8) : c ∣ 2 ^ 32 := by
  rcases hc with rfl | rfl | rfl | rfl <;> decide

/-! ## The records of the poll list (R33) -/

theorem NodeState.inService_iff (n : NodeState) : n.inService = true ↔ n = .live ∨ n = .suspect := by
  cases n <;> simp [NodeState.inService]

theorem Part.candidate_iff (p : Part) (i : NodeIx) :
    p.candidate i = true ↔ (p.node i).state = .probing ∧ (p.node i).applied.due p.sched.cycle = true := by
  simp [Part.candidate]

theorem mem_cyclicFrom (start i : NodeIx) : i ∈ cyclicFrom start := by
  have hi : i ∈ allNodes.take start.val ++ allNodes.drop start.val := by
    rw [List.take_append_drop]
    exact List.mem_finRange i
  rwa [cyclicFrom, List.mem_append, or_comm, ← List.mem_append]

/-- The passed-over marks order the candidates; they leave none out. -/
theorem Part.mem_probeRanking_iff (p : Part) (i : NodeIx) : i ∈ p.probeRanking ↔ p.candidate i = true := by
  cases h : p.sched.passedOver.get i <;> simp [Part.probeRanking, mem_cyclicFrom, h]

theorem Part.poll_mem_pollListOf_iff (p : Part) (chosen : List NodeIx) (i : NodeIx) :
    .poll i ∈ p.pollListOf chosen ↔
      (p.node i).state.inService = true ∧ (p.node i).applied.due p.sched.cycle = true := by
  rw [Part.pollListOf, List.mem_filterMap]
  constructor
  · rintro ⟨j, _, hj⟩
    split at hj
    next h =>
      cases hj
      exact Bool.and_eq_true_iff.mp h
    next => split at hj <;> cases hj
  · intro h
    exact ⟨i, List.mem_finRange i, if_pos (Bool.and_eq_true_iff.mpr h)⟩

theorem Part.mem_chosen_of_probe_mem_pollListOf {p : Part} {chosen : List NodeIx} {i : NodeIx}
    (hi : .probe i ∈ p.pollListOf chosen) : i ∈ chosen := by
  obtain ⟨j, _, hj⟩ := List.mem_filterMap.mp hi
  split at hj
  next => cases hj
  next =>
    split at hj
    next h =>
      cases hj
      exact List.contains_iff_mem.mp h
    next => cases hj

@[simp] theorem Part.enterPolling_pollList (p : Part) :
    p.enterPolling.sched.pollList = p.pollListOf (p.probeRanking.take 2) := rfl

theorem Part.poll_mem_enterPolling_iff (p : Part) (i : NodeIx) :
    .poll i ∈ p.enterPolling.sched.pollList ↔
      ((p.node i).state = .live ∨ (p.node i).state = .suspect) ∧ (p.node i).applied.due p.sched.cycle = true := by
  rw [Part.enterPolling_pollList, Part.poll_mem_pollListOf_iff, NodeState.inService_iff]

theorem Part.candidate_of_probe_mem_enterPolling {p : Part} {i : NodeIx}
    (hi : .probe i ∈ p.enterPolling.sched.pollList) : p.candidate i = true :=
  have hr : i ∈ p.probeRanking := List.mem_of_mem_take (Part.mem_chosen_of_probe_mem_pollListOf hi)
  (p.mem_probeRanking_iff i).mp hr

/-- Settles O45: the due rule is the model's own, every period class divides `2^32`, and the poll list names a record only by the rule. -/
theorem duePattern : Obligations.DuePattern := by
  refine ⟨NodeEntry.due_iff, fun e cycle hc => ?_, fun p i => ⟨?_, ?_⟩⟩
  · exact e.due_add_periodClass cycle (periodClass_dvd hc)
  · exact (p.poll_mem_enterPolling_iff i).mp
  · exact fun hi => (p.candidate_iff i).mp (Part.candidate_of_probe_mem_enterPolling hi)

end Sys2Proof.Machine
end

section
/-!
SUPPORT. The end of a window (R88): the size and the quiet streak, one equation per case of the rule.
-/
namespace Sys2Proof.Machine

/-! ## The sizes of a window -/

theorem WindowSize.double_slots (w : WindowSize) : w.double.slots = min 32 (2 * w.slots) := by cases w <;> rfl

/-! ## The cases of R88 -/

theorem adapt_crowded {size : WindowSize} {c : Nat} (streak : Fin 4) (b : Nat) (hc : size.slots < 4 * c) :
    adapt size streak c b = (size.double, 0) := if_pos hc

/-- A window without a CLASH slot is crowded at no size, so only the streak decides. -/
theorem adapt_quiet (size : WindowSize) (streak : Fin 4) :
    adapt size streak 0 0 = if streak = 3 then (size.halve, 0) else (size, streak + 1) := by
  have hnot : ¬ size.slots < 4 * 0 := Nat.not_lt_zero _
  rw [adapt, if_neg hnot, if_pos ⟨rfl, rfl⟩]

theorem adapt_otherwise {size : WindowSize} {c b : Nat} (streak : Fin 4) (hc : 4 * c ≤ size.slots)
    (hcb : ¬ (c = 0 ∧ b = 0)) : adapt size streak c b = (size, 0) := by
  rw [adapt, if_neg (Nat.not_lt.mpr hc), if_neg hcb]

theorem adapt_quiet_of_streak_lt {streak : Fin 4} (size : WindowSize) (hs : streak.val + 1 < 4) :
    adapt size streak 0 0 = (size, streak + 1) := by
  have hne : streak ≠ 3 := by
    rintro rfl
    exact absurd hs (by decide)
  rw [adapt_quiet, if_neg hne]

theorem adapt_quiet_of_streak_full {streak : Fin 4} (size : WindowSize) (hs : streak.val + 1 = 4) :
    adapt size streak 0 0 = (size.halve, 0) := by
  have h3 : streak = 3 := Fin.ext (Nat.succ.inj hs)
  rw [adapt_quiet, if_pos h3]

/-- Settles O52: R88 case by case, the crowded window, the quiet one below and at the fourth of a streak, and every other. -/
theorem windowAdapts : Obligations.WindowAdapts := by
  intro size streak c b
  refine ⟨fun hc => ?crowded, ?rises, ?halves, fun hc hcb => ?otherwise⟩
  case crowded =>
    rw [adapt_crowded streak b hc]
    exact ⟨size.double_slots, rfl⟩
  case rises =>
    rintro - rfl rfl hs
    rw [adapt_quiet_of_streak_lt size hs]
    exact ⟨rfl, Fin.val_add_one_of_lt' hs⟩
  case halves =>
    rintro - rfl rfl hs
    rw [adapt_quiet_of_streak_full size hs]
    exact ⟨size.halve_slots, rfl⟩
  case otherwise =>
    rw [adapt_otherwise streak hc hcb]
    exact ⟨rfl, rfl⟩

end Sys2Proof.Machine
end

section
/-!
SUPPORT. A request as it is written, and what a RUN request taken in HELD leads to: the entry into RUN with its first cycle (R151, R44,
R29), or the request kept under the fault hold (R158).
-/
namespace Sys2Proof.Machine

/-! ## The start of a cycle (R29) -/

section
variable (p : Part)

@[simp] theorem Part.startCycle_frames : p.startCycle.frames = p.frames := by
  simp [Part.startCycle]

@[simp] theorem Part.startCycle_cause : p.startCycle.faults.cause = p.faults.cause := by
  simp [Part.startCycle]

@[simp] theorem Part.startCycle_counters :
    p.startCycle.faults.counters = (p.count .cyclesStarted).faults.counters := by
  simp [Part.startCycle]

@[simp] theorem Part.startCycle_schedState : p.startCycle.sched.state = .opening := by
  simp [Part.startCycle]

@[simp] theorem Part.startCycle_cycle : p.startCycle.sched.cycle = p.sched.cycle + 1 := by
  simp [Part.startCycle]

@[simp] theorem Part.startCycle_timer : p.startCycle.sched.timer = p.sched.timer := by
  simp [Part.startCycle]

/-- The accesses of an open come behind those on the request list. -/
theorem Part.startCycle_extends : p.startCycle.Extends p := by
  unfold Part.startCycle
  refine .trans ?_ (Part.requestTaken_extends _ false)
  rw [Part.issueRead_bus]
  refine .trans ?_ (List.prefix_append _ _)
  exact Part.Extends.of_bus (Part.beginCheck_extends _ .opening) rfl

/-! ## The entry into RUN (R44, R151) -/

@[simp] theorem Part.enterRun_ladder : p.enterRun.ladder = { p.ladder with state := .run, pending := none } := by
  simp [Part.enterRun]

@[simp] theorem Part.enterRun_frames : p.enterRun.frames = p.frames.settleAt .listening := by
  simp [Part.enterRun]

@[simp] theorem Part.enterRun_hasCause (c : CauseBit) :
    p.enterRun.hasCause c = (p.hasCause c || decide (.ladder = c)) := by
  have hset := Part.setCause_hasCause p .ladder c
  simpa [Part.enterRun, Part.hasCause] using hset

@[simp] theorem Part.enterRun_counter (c : Counter) :
    p.enterRun.counter c = if .cyclesStarted = c then p.counter c + 1 else p.counter c := by
  have hcount := Part.count_counter p .cyclesStarted c
  simpa [Part.enterRun, Part.counter] using hcount

@[simp] theorem Part.enterRun_schedState : p.enterRun.sched.state = .opening := by
  simp [Part.enterRun]

@[simp] theorem Part.enterRun_cycle : p.enterRun.sched.cycle = p.sched.cycle + 1 := by
  simp [Part.enterRun]

@[simp] theorem Part.enterRun_timer :
    p.enterRun.sched.timer = some (p.loader.settings.cyclePeriod * Config.periodUnit) := by
  simp [Part.enterRun]

theorem Part.enterRun_extends : p.enterRun.Extends p := (Part.startCycle_extends _).of_bus rfl

end

/-! ## Requests as they are written (R147, R175) -/

theorem exec_requestCommand (s : State) (r : Request) (nudge : Bool) :
    exec (requestCommand r nudge) s = .next (s.writeControl (controlBits r.code nudge)) := by
  cases r <;> rfl

theorem controlBits_request (r : Request) (nudge : Bool) :
    ((controlBits r.code nudge).extractLsb' 0 3).toNat = r.code := by
  cases r <;> cases nudge <;> rfl

theorem controlBits_softReset (r : Request) (nudge : Bool) : (controlBits r.code nudge).getLsbD 31 = false := by
  cases r <;> cases nudge <;> rfl

theorem controlBits_nudge (r : Request) (nudge : Bool) : (controlBits r.code nudge).getLsbD 4 = nudge := by
  cases r <;> cases nudge <;> rfl

theorem requestOf_code (r : Request) : requestOf r.code = some r := by
  cases r <;> rfl

theorem Request.code_lt_five (r : Request) : r.code < 5 := by
  cases r <;> decide

/-- A request's write of CONTROL goes to the blocks, a NUDGE set in it first (R175). -/
theorem State.writeControl_request {s : State} (hc : s.takesControl) (r : Request) (nudge : Bool) :
    s.writeControl (controlBits r.code nudge) =
      s.act fun p => (if nudge then p.nudge else p).requestWritten s.port.area r := by
  obtain ⟨hpin, hreset⟩ := hc
  simp only [State.writeControl, hpin, hreset, controlBits_request, controlBits_softReset, controlBits_nudge, requestOf_code,
    Nat.not_le.mpr r.code_lt_five, Bool.false_eq_true, if_false]

theorem exec_requestCommand_of_takesControl {s : State} (hc : s.takesControl) (r : Request) (nudge : Bool) :
    exec (requestCommand r nudge) s =
      .next (s.act fun p => (if nudge then p.nudge else p).requestWritten s.port.area r) := by
  rw [exec_requestCommand, State.writeControl_request hc]

theorem exec_heldLineQuiet_of_quietDue {s : State} (h : s.part.ladder.state = .held) (hdue : s.part.quietDue = true) :
    exec .heldLineQuiet s = .next (s.act fun p => p.takePending s.port.area) := by
  have hcan : (s.part.ladder.state == .held && s.part.quietDue) = true := by rw [h, hdue]; rfl
  have harm : exec .heldLineQuiet s = execHeldLineQuiet s := rfl
  rw [harm, execHeldLineQuiet, State.actIf, if_pos hcan]

/-! ## Requests as they are taken in HELD (R147, R151, R158) -/

theorem Part.takesAtOnce_of_held {p : Part} (h : p.ladder.state = .held) : p.takesAtOnce = p.heldQuiet := by
  simp [Part.takesAtOnce, h]

theorem Part.quietDue_of_pending {p : Part} {r : Request} (hq : p.heldQuiet = true) (hr : p.ladder.pending = some r) :
    p.quietDue = true := by
  simp [Part.quietDue, hq, hr]

theorem Part.requestWritten_of_heldQuiet {p : Part} (h : p.ladder.state = .held) (hq : p.heldQuiet = true) (area : Word)
    (r : Request) : p.requestWritten area r = p.takeRequest area r :=
  if_pos ((Part.takesAtOnce_of_held h).trans hq)

theorem Part.takePending_of_heldQuiet {p : Part} {r : Request} (h : p.ladder.state = .held) (hq : p.heldQuiet = true)
    (hr : p.ladder.pending = some r) (area : Word) : p.takePending area = p.takeRequest area r := by
  simp [Part.takePending, hr, Part.takesAtOnce_of_held h, hq]

theorem Part.takeRequest_run_of_held {p : Part} (h : p.ladder.state = .held) (hf : p.ladder.faultHold = false) (area : Word) :
    p.takeRequest area .run = (p.writeState .run).enterRun := by
  simp only [Part.takeRequest, Part.emptySlot, Part.modLadder_ladder, h, hf]
  rfl

theorem Part.takeRequest_run_of_faultHold {p : Part} (h : p.ladder.state = .held) (hf : p.ladder.faultHold = true)
    (area : Word) : p.takeRequest area .run = p.keepPending .run := by
  simp only [Part.takeRequest, Part.emptySlot, Part.modLadder_ladder, h, hf]
  rfl

/-! ## After an event that enters RUN, and one that keeps a request in HELD -/

section
variable {s : State} {f : Part → Part} {q : Part}

theorem State.act_ladder_of_enterRun (hf : f s.part = q.enterRun) :
    (s.act f).part.ladder = { q.ladder with state := .run, pending := none } := by
  obtain ⟨hladder, -⟩ := s.act_keepsLine f (by simp [hf]) (by simp [hf])
  rw [hladder, hf, Part.enterRun_ladder]

/-- No frame is given (R44). -/
theorem State.act_frames_of_enterRun (hf : f s.part = q.enterRun) :
    (s.act f).part.frames = q.frames.settleAt .listening := by
  obtain ⟨-, hframes, -⟩ := s.act_keepsLine f (by simp [hf]) (by simp [hf])
  rw [hframes, hf, Part.enterRun_frames]

theorem State.act_hasCause_of_enterRun (hf : f s.part = q.enterRun) : (s.act f).part.hasCause .ladder = true := by
  rw [State.act_hasCause _ _ _ (by decide), hf, Part.enterRun_hasCause, decide_eq_true rfl, Bool.or_true]

/-- What was asked for as RUN is entered is on the request list. -/
theorem State.mem_act_bus_of_enterRun (hf : f s.part = q.enterRun) {a : Access} (ha : a ∈ q.bus) :
    a ∈ (s.act f).part.bus := by
  obtain ⟨-, hbus⟩ := s.act_asks f (hf ▸ q.enterRun_extends.subset ha)
  exact hbus (by rw [State.act_ladder_of_enterRun hf]; rfl)

/-- The first cycle starts, with the cycle timer at one period (R44, R28, R29). -/
theorem State.act_sched_of_enterRun (hf : f s.part = q.enterRun) :
    (s.act f).part.sched.state = .opening ∧ (s.act f).part.sched.cycle = q.sched.cycle + 1 ∧
      (s.act f).part.sched.timer = some (q.loader.settings.cyclePeriod * Config.periodUnit) := by
  obtain ⟨-, -, -, hstate, hcycle, htimer, -⟩ := s.act_keeps f
  rw [hstate, hcycle, htimer, hf]
  exact ⟨q.enterRun_schedState, q.enterRun_cycle, q.enterRun_timer⟩

theorem State.act_counter_of_enterRun (hf : f s.part = q.enterRun) :
    (s.act f).part.counter .cyclesStarted = q.counter .cyclesStarted + 1 := by
  obtain ⟨-, -, -, -, -, -, -, -, -, hcounters, -⟩ := s.act_keeps f
  rw [Part.counter, hcounters, hf]
  exact q.enterRun_counter .cyclesStarted

/-- A request kept in HELD changes the pending slot alone of what the ladder controller and the frame engine hold, and starts no cycle
(R147, R158). -/
theorem State.act_of_keepPending {r : Request} (h : q.ladder.state = .held) (hf : f s.part = q.keepPending r) :
    (s.act f).part.ladder = { q.ladder with pending := some r } ∧ (s.act f).part.frames = q.frames ∧
      (s.act f).part.sched.cycle = q.sched.cycle := by
  have hstate : (f s.part).ladder.state = .held := by rw [hf]; exact h
  obtain ⟨hladder, hframes, -⟩ := s.act_keepsLine f (by simp [hstate]) (by simp [hstate])
  obtain ⟨-, -, -, -, hcycle, -⟩ := s.act_keeps f
  rw [hladder, hframes, hcycle, hf]
  exact ⟨rfl, rfl, rfl⟩

end

/-- Settles O30: written or out of the pending slot, the request is taken alike, and the fault hold decides between the entry into RUN and
its keeping. -/
theorem runTakenInHeld : Obligations.RunTakenInHeld := by
  intro s c hc hheld hquiet hcommand
  obtain ⟨f, hexec, htaken⟩ :
      ∃ f, exec c s = .next (s.act f) ∧ f s.part = s.part.takeRequest s.port.area .run := by
    rcases hcommand with rfl | ⟨rfl, hpending⟩
    · exact ⟨_, exec_requestCommand_of_takesControl hc .run false, Part.requestWritten_of_heldQuiet hheld hquiet _ _⟩
    · exact ⟨_, exec_heldLineQuiet_of_quietDue hheld (Part.quietDue_of_pending hquiet hpending),
        Part.takePending_of_heldQuiet hheld hquiet hpending _⟩
  refine ⟨_, hexec, fun hclear => ?entered, fun hhold => ?kept⟩
  case entered =>
    have henter := htaken.trans (Part.takeRequest_run_of_held hheld hclear _)
    obtain ⟨hopening, hcycle, htimer⟩ := State.act_sched_of_enterRun henter
    have hcount := State.act_counter_of_enterRun henter
    have hword := State.mem_act_bus_of_enterRun henter (List.mem_append_right _ (List.mem_singleton_self _))
    rw [State.act_ladder_of_enterRun henter, State.act_frames_of_enterRun henter]
    exact ⟨rfl, rfl, State.act_hasCause_of_enterRun henter, ⟨_, hword, rfl, rfl, rfl⟩, rfl, rfl, hopening, hcycle, htimer,
      hcount⟩
  case kept =>
    have hkeep := htaken.trans (Part.takeRequest_run_of_faultHold hheld hhold _)
    obtain ⟨hladder, hframes, hcycle⟩ := State.act_of_keepPending hheld hkeep
    rw [hladder]
    exact ⟨hheld, rfl, hcycle, hframes⟩

end Sys2Proof.Machine
end

section
/-!
SUPPORT. What a fault report does to the fault unit (R160, R161): the capture's two cases, and what MEMORY does besides.
-/
namespace Sys2Proof.Machine

/-! ## The capture (R161) -/

section
variable (c : Capture) (code : FaultCode) (detail : Half) (cycle : Word)

theorem Capture.take_of_clear :
    c.take false code detail cycle = { valid := true, code := code.code, detail := detail, cycle := cycle, further := 0 } := rfl

theorem Capture.take_of_set :
    c.take true code detail cycle = { c with further := if c.further = 255 then 255 else c.further + 1 } := rfl

theorem Capture.take_further_of_set :
    (c.take true code detail cycle).further.toNat = min 255 (c.further.toNat + 1) := by
  rw [Capture.take_of_set]
  dsimp only
  split
  next hfull => simp [hfull]
  next hbelow => bv_omega

end

/-! ## The report (R160) -/

section
variable (p : Part) (code : FaultCode) (detail : Half)

theorem Part.report_capture :
    (p.report code detail).faults.capture = p.faults.capture.take (p.hasCause .fault) code detail p.sched.cycle := by
  unfold Part.report
  split <;> rfl

theorem Part.report_counters_of_ne_memory (hcode : code ≠ .memory) :
    (p.report code detail).faults.counters = p.faults.counters := by
  rw [Part.report, if_neg hcode]

theorem Part.report_memory_counters :
    (p.report .memory detail).faults.counters = (p.count .memoryErrors).faults.counters := rfl

theorem Part.report_memory_memoryErrors :
    (p.report .memory detail).counter .memoryErrors = p.counter .memoryErrors + 1 := by
  rw [Part.counter, Part.report_memory_counters]
  exact (p.count_counter .memoryErrors .memoryErrors).trans (if_pos rfl)

theorem Part.report_memory_ladder :
    (p.report .memory detail).ladder =
      { p.ladder with faultHold := p.ladder.faultHold || p.ladder.state != .starting } := rfl

end

/-- Settles O17: the capture by CAUSE.FAULT before the report, the bit after it, and what MEMORY alone does to the counters and the fault
hold. -/
theorem faultCaptured : Obligations.FaultCaptured := by
  intro p code detail
  have hcapture := p.report_capture code detail
  refine ⟨fun hclear => ?captured, fun hset => ?counted, by simp, p.report_memory_memoryErrors detail, ?hold, fun hcode => ?others⟩
  case captured => rw [hcapture, hclear, Capture.take_of_clear]
  case counted =>
    rw [hcapture, hset]
    exact ⟨rfl, rfl, rfl, rfl, p.faults.capture.take_further_of_set code detail p.sched.cycle⟩
  case hold => rw [Part.report_memory_ladder]
  case others => exact ⟨p.report_counters_of_ne_memory code detail hcode, p.report_ladder code detail hcode⟩

end Sys2Proof.Machine
end

section
/-!
SUPPORT. MASK and the interrupt output (R164): who changes MASK, and IRQ_N as a statement about CAUSE bits, with the two resets.
-/
namespace Sys2Proof.Machine

/-! ## IRQ_N and the CAUSE bits -/

/-- Every bit of CAUSE and MASK is a cause's (Table 11-11). -/
theorem CauseBit.exists_position (i : Fin 8) : ∃ b : CauseBit, b.position = i.val :=
  match i with
  | 0 => ⟨.cycle, rfl⟩
  | 1 => ⟨.event, rfl⟩
  | 2 => ⟨.parcel, rfl⟩
  | 3 => ⟨.node, rfl⟩
  | 4 => ⟨.ladder, rfl⟩
  | 5 => ⟨.wake, rfl⟩
  | 6 => ⟨.fault, rfl⟩
  | 7 => ⟨.commit, rfl⟩

theorem irqN_eq_true_iff (cause mask : Byte) : irqN cause mask = true ↔ cause &&& mask = 0#8 := by
  simp [irqN]

/-- IRQ_N is high while no cause has its bit set in CAUSE and in MASK. -/
theorem irqN_eq_true_iff_forall (cause mask : Byte) :
    irqN cause mask = true ↔ ∀ b : CauseBit, ¬ (cause.getLsbD b.position = true ∧ mask.getLsbD b.position = true) := by
  rw [irqN_eq_true_iff]
  constructor
  · rintro hzero b ⟨hcause, hmask⟩
    have hbit : (cause &&& mask).getLsbD b.position = false := by rw [hzero, BitVec.getLsbD_zero]
    rw [BitVec.getLsbD_and, hcause, hmask] at hbit
    cases hbit
  · intro hnone
    refine BitVec.eq_of_getLsbD_eq fun i hi => ?_
    obtain ⟨b, hb⟩ := CauseBit.exists_position ⟨i, hi⟩
    have hbit := hnone b
    rw [hb, ← Bool.and_eq_true_iff, ← BitVec.getLsbD_and, Bool.not_eq_true] at hbit
    rw [hbit, BitVec.getLsbD_zero]

theorem State.irqN_eq_false_iff (s : State) :
    s.irqN = false ↔ ∃ b : CauseBit, s.part.hasCause b = true ∧ s.port.mask.getLsbD b.position = true := by
  rw [← Bool.not_eq_true, State.irqN, irqN_eq_true_iff_forall, not_forall_not]
  rfl

theorem State.irqN_of_cause_zero {s : State} (h : s.part.faults.cause = 0) : s.irqN = true := by
  have hcause : s.part.faults.cause = 0#8 := h
  rw [State.irqN, irqN_eq_true_iff, hcause, BitVec.zero_and]

/-! ## The host's write of MASK -/

theorem exec_maskWrite {s : State} (hpin : s.port.resetLow = false) (v : Word) :
    exec (.maskWrite v) s = .next { s with port := { s.port with mask := v.extractLsb' 0 8 } } := by
  have harm : exec (.maskWrite v) s = .next (s.writeMask v) := rfl
  rw [harm, State.writeMask, hpin]
  rfl

theorem State.readRegister_mask {s : State} (hpin : s.port.resetLow = false) :
    s.readRegister regMask = 0#24 ++ s.port.mask := by
  rw [State.readRegister, hpin]
  rfl

/-- A byte of a word, read back in a word of its own. -/
theorem lowByte_eq_and (v : Word) : 0#24 ++ v.extractLsb' 0 8 = v &&& 0xFF := by
  apply BitVec.eq_of_toNat_eq
  rw [BitVec.toNat_append, BitVec.extractLsb'_toNat, BitVec.toNat_and]
  simpa using (Nat.and_two_pow_sub_one_eq_mod v.toNat 8).symm

/-- No command but a full reset and the host's write changes MASK. -/
theorem exec_mask {c : Instr} {s t : State} (h : exec c s = .next t) :
    t.port.mask = s.port.mask ∨ (t.port.mask = 0 ∧ ∃ low, c = .fullReset low) ∨ ∃ v, c = .maskWrite v := by
  cases exec_effect h with
  | blocks port => exact .inl (by rw [port])
  | full low command result => exact .inr (.inl ⟨by rw [result]; rfl, low, command⟩)
  | soft result => exact .inl (by rw [result]; rfl)
  | word x host current mem pending port => rcases port with port | ⟨port, -⟩ <;> exact .inl (by rw [port])
  | area value command idle result => exact .inl (by rw [result])
  | mask value command => exact .inr (.inr ⟨value, command⟩)
  | view value command result => exact .inl (by rw [result])
  | release command result => exact .inl (by rw [result])

/-! ## A soft reset that has been written takes effect -/

theorem State.complete_of_softPending {s : State} {x : Access} (hx : s.current = some x)
    (hp : s.part.ladder.softPending = true) (host : Option Word) (dt : Nat) :
    s.complete host dt = { s with mem := x.memAfter s.port.area host s.mem }.softReset := by
  simp only [State.complete, hx, hp, if_true]

/-- The reset leaves the port and the blocks at once; memory may first take the word in progress (R170). -/
theorem exec_softResetTakesEffect {s : State} (h : s.part.ladder.resetUnderWay = true) :
    ∃ mem, exec .softResetTakesEffect s = .next { s with mem := mem }.softReset := by
  have harm : exec .softResetTakesEffect s = execSoftResetTakesEffect s := rfl
  rw [harm, execSoftResetTakesEffect]
  by_cases hwaiting : s.part.ladder.resetWaiting = true
  · exact ⟨s.mem, by rw [if_pos hwaiting]⟩
  · have hpending : s.part.ladder.softPending = true := by simpa [Ladder.resetUnderWay, hwaiting] using h
    rw [if_neg hwaiting, if_pos hpending]
    cases hcurrent : s.current with
    | none => exact ⟨s.mem, rfl⟩
    | some x => exact ⟨_, congrArg _ (State.complete_of_softPending hcurrent hpending none 0)⟩

/-- Settles O15: MASK by what each command can do to the port, IRQ_N bit by bit, and both resets by the CAUSE they leave. -/
theorem maskAndInterruptOutput : Obligations.MaskAndInterruptOutput := by
  refine ⟨fun s v hpin => ?written, fun _ _ _ => exec_mask, State.irqN_eq_false_iff, fun low s => ?full, fun s hreset => ?soft,
    fun _ => State.irqN_of_cause_zero⟩
  case written =>
    refine ⟨_, exec_maskWrite hpin v, rfl, rfl, rfl, ?_⟩
    exact Eq.trans (State.readRegister_mask hpin) (lowByte_eq_and v)
  case full => exact ⟨s.fullReset low, rfl, rfl, rfl, State.irqN_of_cause_zero rfl⟩
  case soft =>
    obtain ⟨mem, hexec⟩ := exec_softResetTakesEffect hreset
    exact ⟨_, hexec, rfl, rfl, State.irqN_of_cause_zero rfl⟩

end Sys2Proof.Machine
end

section
/-!
SUPPORT. What the host reads at each register while RESET_N is high (R173 to R176), and what it reads after a reset (Table 11-13).
-/
namespace Sys2Proof.Machine

/-! ## The registers, one read each -/

section
variable {s : State} (hpin : s.port.resetLow = false)
include hpin

theorem State.readRegister_ident : s.readRegister regIdent = Config.identValue := by
  rw [State.readRegister, hpin]
  rfl

theorem State.readRegister_area : s.readRegister regArea = s.port.area := by
  rw [State.readRegister, hpin]
  rfl

theorem State.readRegister_control : s.readRegister regControl = s.part.ladder.controlWord := by
  rw [State.readRegister, hpin]
  rfl

theorem State.readRegister_cause : s.readRegister regCause = 0#24 ++ s.part.faults.cause := by
  rw [State.readRegister, hpin]
  rfl

theorem State.readRegister_fault : s.readRegister regFault = s.part.faults.capture.read s.port.view := by
  rw [State.readRegister, hpin]
  rfl

end

/-! ## Reads of a part at its reset values (Table 11-13) -/

/-- The four registers that both resets leave alike: IDENT, CONTROL, CAUSE, and FAULT in both views. -/
def State.readsAsReset (t : State) : Prop :=
  t.readRegister regIdent = 0x4C642001 ∧ t.readRegister regControl = 0 ∧ t.readRegister regCause = 0 ∧
    ∀ view, { t with port := { t.port with view := view } }.readRegister regFault = 0

theorem Ladder.controlWord_reset : Part.reset.ladder.controlWord = 0 := by decide

theorem Capture.read_reset (view : Bool) : Part.reset.faults.capture.read view = 0 := by
  cases view <;> rfl

/-- CONTROL, CAUSE and FAULT show nothing of the part but its ladder and its faults. -/
theorem State.readsAsReset_of_part {t : State} (hpin : t.port.resetLow = false)
    (hladder : t.part.ladder = Part.reset.ladder) (hfaults : t.part.faults = Part.reset.faults) : t.readsAsReset := by
  refine ⟨State.readRegister_ident hpin, ?control, ?cause, fun view => ?fault⟩
  case control => rw [State.readRegister_control hpin, hladder, Ladder.controlWord_reset]
  case cause =>
    rw [State.readRegister_cause hpin, hfaults]
    rfl
  case fault =>
    have hread := State.readRegister_fault (s := { t with port := { t.port with view := view } }) hpin
    rw [hread, hfaults, Capture.read_reset]

theorem State.fullReset_readsAsReset (s : State) : (s.fullReset false).readsAsReset :=
  State.readsAsReset_of_part rfl rfl rfl

theorem State.softReset_readsAsReset {s : State} (hpin : s.port.resetLow = false) : s.softReset.readsAsReset :=
  State.readsAsReset_of_part hpin rfl rfl

/-! ## AREA and MASK, which a full reset clears and a soft reset keeps -/

theorem State.fullReset_readRegister_area (s : State) : (s.fullReset false).readRegister regArea = 0 :=
  State.readRegister_area rfl

theorem State.fullReset_readRegister_mask (s : State) : (s.fullReset false).readRegister regMask = 0 := by
  rw [State.readRegister_mask rfl, State.fullReset_port]
  rfl

theorem State.softReset_readRegister_area {s : State} (hpin : s.port.resetLow = false) :
    s.softReset.readRegister regArea = s.readRegister regArea :=
  (State.readRegister_area (s := s.softReset) hpin).trans (State.readRegister_area hpin).symm

theorem State.softReset_readRegister_mask {s : State} (hpin : s.port.resetLow = false) :
    s.softReset.readRegister regMask = s.readRegister regMask :=
  (State.readRegister_mask (s := s.softReset) hpin).trans (State.readRegister_mask hpin).symm

/-- Settles O3: the registers both resets clear by the part they leave, AREA and MASK by the port, which the full reset clears and the
soft reset keeps. -/
theorem registersAfterReset : Obligations.RegistersAfterReset := by
  refine ⟨fun s => ?full, fun s hpin hreset => ?soft⟩
  case full =>
    obtain ⟨hident, hcontrol, hcause, hfault⟩ := s.fullReset_readsAsReset
    exact ⟨s.fullReset false, rfl, hident, s.fullReset_readRegister_area, hcontrol, hcause, s.fullReset_readRegister_mask, rfl, hfault⟩
  case soft =>
    obtain ⟨mem, hexec⟩ := exec_softResetTakesEffect hreset
    have hpin' : ({ s with mem := mem } : State).port.resetLow = false := hpin
    obtain ⟨hident, hcontrol, hcause, hfault⟩ := State.softReset_readsAsReset hpin'
    exact ⟨_, hexec, hident, State.softReset_readRegister_area hpin', hcontrol, hcause, State.softReset_readRegister_mask hpin', rfl,
      hfault⟩

end Sys2Proof.Machine
end

section
/-!
SUPPORT. What a command can do to the blocks, said once: `exec_reaction` names, for each command, the operation of the blocks that it
comes to, with the condition under which it does. Every invariant of the blocks is derived from it.
-/
namespace Sys2Proof.Machine

/-! ## Steps -/

/-- A step runs a command on the rest of the queue, or the part idles. -/
theorem step_cases {s t : State} (h : step s = .next t) :
    t = s ∨ ∃ c rest, s.pending = c :: rest ∧ exec c { s with pending := rest } = .next t := by
  unfold step at h
  split at h
  · cases h
    exact .inl rfl
  next c rest hpending => exact .inr ⟨c, rest, hpending, h⟩

/-- What every command keeps of the blocks, every step keeps. -/
theorem step_keeps {I : Part → Prop} (hexec : ∀ {c s t}, exec c s = .next t → I s.part → I t.part) {s t : State}
    (hs : I s.part) (h : step s = .next t) : I t.part := by
  rcases step_cases h with rfl | ⟨c, rest, -, h⟩
  · exact hs
  · exact hexec h hs

/-! ## The operations a command comes to -/

/-- An event from which nothing else follows, and the operation of the blocks on it. -/
inductive Plain (c : Instr) (s : State) : (Part → Part) → Prop where
  | misuse (detail : Half) : Plain c s fun p => p.report .portMisuse detail
  | resetInStill (still : s.part.ladder.state = .still) :
      Plain c s fun p => p.modLadder fun l => { l with resetWaiting := true, lineClock := true, settle := some Config.settleMs }
  | resetInSettling (settling : s.part.ladder.state = .settling) :
      Plain c s fun p => p.modLadder fun l => { l with resetWaiting := true }
  | resetWaitsForWord : Plain c s fun p => p.modLadder fun l => { l with softPending := true }
  | cause (v : Word) (command : c = .causeWrite v) (kept : s.endsHold (v.extractLsb' 0 8) = false) :
      Plain c s fun p => p.writeCause s.port.area (v.extractLsb' 0 8)
  | divisor : Plain c s Part.divisorReached
  | frameStart : Plain c s Part.frameStart
  | requestSent : Plain c s Part.requestSent
  | replyTimerLimit : Plain c s Part.replyTimerLimit
  | replyFrameEnd (items : List LineItem) : Plain c s fun p => p.replyFrameEnd items
  | lineClash : Plain c s Part.lineClash
  | rouseSent (rousing : s.part.ladder.state = .rousing) : Plain c s Part.rouseFrameSent
  | activity (sensing : s.part.frames.state = .sensing) : Plain c s Part.lineActivity

/-- An event that `settle` follows, and the operation of the blocks on it. -/
inductive Acts (c : Instr) (s : State) : (Part → Part) → Prop where
  | request (r : Request) (nudge : Bool) :
      Acts c s fun p => (if nudge then p.nudge else p).requestWritten s.port.area r
  | nudge : Acts c s Part.nudge
  | cause (v : Word) (command : c = .causeWrite v) (ends : s.endsHold (v.extractLsb' 0 8) = true) :
      Acts c s fun p => p.writeCause s.port.area (v.extractLsb' 0 8)
  | cycleExpiry (run : s.part.ladder.state = .run) (running : s.part.sched.timer.isSome = true) : Acts c s Part.cycleExpiry
  | reprobe (i : NodeIx) (run : s.part.ladder.state = .run) (due : (s.part.node i).reprobeDue = true) :
      Acts c s fun p => p.reprobe i
  | patience (slot : SlotIx) (run : s.part.ladder.state = .run) : Acts c s fun p => p.patienceExpired slot
  | period : Acts c s Part.periodExpired
  | openReady (dt : Nat) (ready : s.part.openIsReady = true) : Acts c s fun p => (p.passTime dt).enterPolling.pollNext
  | guardEnd (dt : Nat) (guarding : s.part.frames.state = .guarding) (decided : s.part.frames.outcome.isSome = true) :
      Acts c s fun p => (p.passTime dt).returnOutcome
  | slotEnd (heard : SlotHeard) (dt : Nat) (run : s.part.ladder.state = .run) (slotting : s.part.frames.state = .slotting) :
      Acts c s fun p => (p.passTime dt).slotEnd heard
  | abandonSent (dt : Nat) (slot : SlotIx) (run : s.part.ladder.state = .run) (sent : s.part.frames.abandoned = some slot) :
      Acts c s fun p => (p.passTime dt).abandonSent slot
  | holdSent (held : s.part.ladder.state = .held) (sent : s.part.frames.hasSent .hold = true) :
      Acts c s fun p => p.holdFrameSent s.port.area
  | restSent (held : s.part.ladder.state = .held) (sent : s.part.frames.hasSent .rest = true) :
      Acts c s fun p => p.restFrameSent s.port.area
  | heldQuiet (held : s.part.ladder.state = .held) (due : s.part.quietDue = true) : Acts c s fun p => p.takePending s.port.area
  | service (allowed : s.part.serviceAllowed = true) : Acts c s Part.enterService
  | rouse (rousing : s.part.ladder.state = .rousing) (running : s.part.ladder.rouse.isSome = true) : Acts c s Part.rouseExpired
  | settle (settling : s.part.ladder.state = .settling) (running : s.part.ladder.settle.isSome = true) :
      Acts c s fun p => p.settleExpired s.port.area
  | alert (address : Byte) (hears : s.part.frames.hears = true) :
      Acts c s fun p => p.quietPassed.carrier (alertItems address ++ [.gap])
  | unsolicited (items : List LineItem) (hears : (s.part.frames.hears || s.part.frames.hearsOn) = true) :
      Acts c s fun p => p.carrier items

/-- The end of the access in progress `x`, and the operation of its block on it. -/
inductive Ends (x : Access) : (Part → Part) → Prop where
  | done (dt : Nat) (w : Word) : Ends x fun p => (p.passTime dt).accessDone x.source w
  | failed (dt : Nat) : Ends x fun p => (p.passTime dt).accessFailed x

/-- The access in progress taken off the request list, with memory as the access leaves it. -/
def State.offList (s : State) (mem : Memory) : State :=
  { s with mem := mem, part := { s.part with bus := s.part.bus.tail } }

/-- What a command makes of the blocks. -/
inductive Reaction (c : Instr) (s : State) : Part → Prop where
  | same : Reaction c s s.part
  | reset : Reaction c s { Part.reset with arb := s.part.arb }
  | plain {f : Part → Part} (event : Plain c s f) : Reaction c s (f s.part)
  | acts {f : Part → Part} (event : Acts c s f) : Reaction c s (s.act f).part
  | word {f : Part → Part} (x : Access) (mem : Memory) (current : s.current = some x) (ends : Ends x f) :
      Reaction c s ((s.offList mem).act f).part

/-! ## Every command comes to one of them -/

section
variable {c : Instr} {s t : State}

theorem Reaction.misuse (kind offset : Nat) : Reaction c s (s.misuse kind offset).part := .plain (.misuse _)

theorem Reaction.complete (host : Option Word) (dt : Nat) : Reaction c s (s.complete host dt).part := by
  unfold State.complete
  split
  · exact .same
  next x hx =>
    dsimp only
    split
    · exact .reset
    · exact .word x _ hx (.done dt _)

theorem Reaction.fail (dt : Nat) : Reaction c s (s.fail dt).part := by
  unfold State.fail
  split
  · exact .same
  next x hx =>
    split
    · exact .reset
    · exact .word x s.mem hx (.failed dt)

theorem Reaction.completeIf (mine : Access → Bool) (host : Option Word) (dt : Nat) :
    Reaction c s (s.completeIf mine host dt).part := by
  unfold State.completeIf
  split
  · split
    · exact .complete host dt
    · exact .same
  · exact .same

theorem Reaction.startSoftReset : Reaction c s s.startSoftReset.part := by
  unfold State.startSoftReset
  split
  next h => exact .plain (.resetInStill h)
  next h => exact .plain (.resetInSettling h)
  all_goals
    split
    · exact .reset
    · exact .plain .resetWaitsForWord

theorem Reaction.writeControl (v : Word) : Reaction c s (s.writeControl v).part := by
  unfold State.writeControl
  split
  · exact .same
  split
  · exact .misuse _ _
  split
  · exact .same
  split
  · exact .startSoftReset
  split
  next r _ => exact .acts (.request r _)
  split
  · exact .acts .nudge
  · exact .same

theorem Reaction.writeCause {v : Word} (h : c = .causeWrite v) : Reaction c s (s.writeCause v).part := by
  unfold State.writeCause
  split
  · exact .same
  split
  next ends => exact .acts (.cause v h ends)
  next kept => exact .plain (.cause v h (by simpa using kept))

theorem Reaction.writeArea (v : Word) : Reaction c s (s.writeArea v).part := by
  unfold State.writeArea
  split
  · exact .same
  split
  · exact .same
  · exact .misuse _ _

theorem Reaction.actIf {can : Bool} {f : Part → Part} (event : can = true → Acts c s f) (h : s.actIf can f = .next t) :
    Reaction c s t.part := by
  unfold State.actIf at h
  cases h
  split
  next hcan => exact .acts (event hcan)
  next => exact .same

theorem Reaction.plainIf {can : Bool} {f : Part → Part} (event : can = true → Plain c s f) (h : s.plainIf can f = .next t) :
    Reaction c s t.part := by
  unfold State.plainIf at h
  cases h
  split
  next hcan => exact .plain (event hcan)
  next => exact .same

theorem Reaction.softResetTakesEffect (h : execSoftResetTakesEffect s = .next t) : Reaction c s t.part := by
  unfold execSoftResetTakesEffect at h
  split at h
  · cases h
    exact .reset
  split at h
  · cases h
    split
    · exact .complete none 0
    · exact .reset
  · cases h
    exact .same

theorem Reaction.portMisuse {a : PortAccess} (h : execPortMisuse a s = .next t) : Reaction c s t.part := by
  unfold execPortMisuse at h
  split at h
  · cases h
    exact .same
  split at h
  · cases h
    exact .misuse _ _
  · cases h
    exact .same

theorem Reaction.abandonSent {dt : Nat} (h : execAbandonSent dt s = .next t) : Reaction c s t.part := by
  unfold execAbandonSent at h
  split at h
  next hrun hsent =>
    cases h
    exact .acts (.abandonSent dt _ hrun hsent)
  next =>
    cases h
    exact .same

theorem Reaction.settleTimerExpiry (h : execSettleTimerExpiry s = .next t) : Reaction c s t.part := by
  unfold execSettleTimerExpiry at h
  split at h
  · cases h
    exact .reset
  · refine .actIf (fun hcan => ?_) h
    obtain ⟨hrunning, hsettling⟩ := Bool.and_eq_true_iff.mp hcan
    exact .settle (by simpa using hsettling) hrunning

/-- Every command comes to one of the operations above. -/
theorem exec_reaction (h : exec c s = .next t) : Reaction c s t.part := by
  cases c with
  | fullReset low => cases h; exact .reset
  | softReset v => cases h; exact .writeControl _
  | softResetTakesEffect => exact .softResetTakesEffect h
  | requestRun n => cases h; exact .writeControl _
  | requestHold n => cases h; exact .writeControl _
  | requestRest n => cases h; exact .writeControl _
  | requestStill n => cases h; exact .writeControl _
  | nudge => cases h; exact .writeControl _
  | areaWrite v => cases h; exact .writeArea v
  | causeWrite v => cases h; exact .writeCause rfl
  | maskWrite v =>
    cases h
    unfold State.writeMask
    split <;> exact .same
  | faultViewWrite v =>
    cases h
    unfold State.writeView
    split <;> exact .same
  | portMisuse a => exact .portMisuse h
  | startupStepComplete host => cases h; exact .completeIf _ _ _
  | cycleTimerExpiry =>
    refine .actIf (fun hcan => ?_) h
    obtain ⟨hrun, htimer⟩ := Bool.and_eq_true_iff.mp hcan
    exact .cycleExpiry (by simpa using hrun) htimer
  | reprobeCountdownExpiry i =>
    refine .actIf (fun hcan => ?_) h
    obtain ⟨hopen, hdue⟩ := Bool.and_eq_true_iff.mp hcan
    exact .reprobe i (by simpa using (Bool.and_eq_true_iff.mp hopen).1) hdue
  | patienceExpiry slot =>
    refine .actIf (fun hcan => ?_) h
    obtain ⟨hopen, -⟩ := Bool.and_eq_true_iff.mp hcan
    exact .patience slot (by simpa using (Bool.and_eq_true_iff.mp hopen).1)
  | statPeriodExpiry => exact .actIf (fun _ => .period) h
  | openReady dt => exact .actIf (fun hready => .openReady dt hready) h
  | frameStart => exact .plainIf (fun _ => .frameStart) h
  | requestSent => exact .plainIf (fun _ => .requestSent) h
  | replyTimerLimit => exact .plainIf (fun _ => .replyTimerLimit) h
  | replyFrameEnd items => exact .plainIf (fun _ => .replyFrameEnd items) h
  | lineClash => exact .plainIf (fun _ => .lineClash) h
  | guardEnd dt =>
    refine .actIf (fun hcan => ?_) h
    obtain ⟨hguard, hdecided⟩ := Bool.and_eq_true_iff.mp hcan
    exact .guardEnd dt (by simpa using hguard) hdecided
  | slotEnd heard dt =>
    refine .actIf (fun hcan => ?_) h
    obtain ⟨hrun, hslot⟩ := Bool.and_eq_true_iff.mp hcan
    exact .slotEnd heard dt (by simpa using hrun) (by simpa using hslot)
  | appendComplete => cases h; exact .completeIf _ _ _
  | eventsTakenRead host dt => cases h; exact .completeIf _ _ _
  | withdrawCheck host dt => cases h; exact .completeIf _ _ _
  | abandonSent dt => exact .abandonSent h
  | slotVisit host => cases h; exact .completeIf _ _ _
  | answerWriteComplete => cases h; exact .completeIf _ _ _
  | holdWordRead host => cases h; exact .completeIf _ _ _
  | inputPublish => cases h; exact .completeIf _ _ _
  | cycleDivisorReached => exact .plainIf (fun _ => .divisor) h
  | closeComplete => cases h; exact .completeIf _ _ _
  | holdFrameSent =>
    refine .actIf (fun hcan => ?_) h
    obtain ⟨hheld, hsent⟩ := Bool.and_eq_true_iff.mp hcan
    exact .holdSent (by simpa using hheld) hsent
  | heldLineQuiet =>
    refine .actIf (fun hcan => ?_) h
    obtain ⟨hheld, hdue⟩ := Bool.and_eq_true_iff.mp hcan
    exact .heldQuiet (by simpa using hheld) hdue
  | heldServiceEntry => exact .actIf (fun hallowed => .service hallowed) h
  | alert address => exact .actIf (fun hhears => .alert address hhears) h
  | unsolicitedFrame items => exact .actIf (fun hhears => .unsolicited items hhears) h
  | restFrameSent =>
    refine .actIf (fun hcan => ?_) h
    obtain ⟨hheld, hsent⟩ := Bool.and_eq_true_iff.mp hcan
    exact .restSent (by simpa using hheld) hsent
  | lineActivity => exact .plainIf (fun hsensing => .activity (by simpa using hsensing)) h
  | rouseFrameSent =>
    refine .plainIf (fun hcan => ?_) h
    obtain ⟨hrousing, -⟩ := Bool.and_eq_true_iff.mp hcan
    exact .rouseSent (by simpa using hrousing)
  | rouseTimerExpiry =>
    refine .actIf (fun hcan => ?_) h
    obtain ⟨hrousing, hrunning⟩ := Bool.and_eq_true_iff.mp hcan
    exact .rouse (by simpa using hrousing) hrunning
  | settleTimerExpiry => exact .settleTimerExpiry h
  | memoryAccessComplete host dt => cases h; exact .complete host dt
  | memoryErrorResponse dt => cases h; exact .fail dt
  | snapshotEnd => cases h; exact .completeIf _ _ _
  | resetNRelease => cases h; exact .same

end

end Sys2Proof.Machine
end

section
/-!
SUPPORT. What every step keeps: host memory's canonical form, AREA outside IDLE, the node table's law, the first fault captured and the
fault hold.
-/
namespace Sys2Proof.Machine

section
variable {c : Instr} {s t : State}

/-! ## Memory and AREA, by what a command can do outside the blocks -/

theorem exec_memoryOk (h : exec c s = .next t) (hs : s.memoryOk) : t.memoryOk := by
  unfold State.memoryOk at *
  cases exec_effect h with
  | blocks port mem => rwa [mem]
  | full low command result => rwa [result]
  | soft result => rwa [result]
  | word x host current mem => rw [mem]; exact x.memAfter_wf hs _ _
  | area value command idle result => rwa [result]
  | mask value command result => rwa [result]
  | view value command result => rwa [result]
  | release command result => rwa [result]

/-- Settles O8: a command leaves memory as it is, or as the access in progress leaves it. -/
theorem memoryCanonicalKept : Obligations.MemoryCanonicalKept := by
  intro s t hs h
  rcases step_cases h with rfl | ⟨c, rest, -, h⟩
  · exact hs
  · exact exec_memoryOk h hs

theorem exec_area (h : exec c s = .next t) (hs : s.part.ladder.state ≠ .idle) :
    t.port.area = s.port.area ∨ (t.port.area = 0 ∧ ∃ low, c = .fullReset low) := by
  cases exec_effect h with
  | blocks port => exact .inl (by rw [port])
  | full low command result => exact .inr ⟨by rw [result]; rfl, low, command⟩
  | soft result => exact .inl (by rw [result]; rfl)
  | word x host current mem pending port => rcases port with port | ⟨port, -⟩ <;> exact .inl (by rw [port])
  | area value command idle => exact absurd idle hs
  | mask value command result => exact .inl (by rw [result])
  | view value command result => exact .inl (by rw [result])
  | release command result => exact .inl (by rw [result])

/-- Settles O14: the one command that writes AREA does so in IDLE. -/
theorem areaFixedOutsideIdle : Obligations.AreaFixedOutsideIdle := by
  intro s t c rest hpending hs h
  rcases step_cases h with rfl | ⟨c', rest', hpending', h⟩
  · exact .inl rfl
  · obtain ⟨rfl, rfl⟩ : c' = c ∧ rest' = rest := by simpa [hpending'] using hpending
    exact exec_area (s := { s with pending := rest' }) h hs

/-! ## The node table's law -/

theorem Plain.law {f : Part → Part} (h : Plain c s f) (hs : RecordsLaw s.part.table.records) :
    RecordsLaw (f s.part).table.records := by
  cases h <;> simp [hs]

theorem Part.rouseExpired_law (p : Part) (h : RecordsLaw p.table.records) : RecordsLaw p.rouseExpired.table.records := by
  unfold Part.rouseExpired
  exact Part.judgeKept_law _ (by simpa using h)

theorem Acts.law {f : Part → Part} (h : Acts c s f) (hs : RecordsLaw s.part.table.records) :
    RecordsLaw (f s.part).table.records := by
  cases h with
  | request r nudge => cases nudge <;> simp [hs]
  | reprobe i run due =>
    refine s.part.reprobe_law hs i fun h => ?_
    simp [NodeRecord.reprobeDue, h] at due
  | openReady dt ready => exact Part.pollNext_law (s.part.passTime dt).enterPolling (by simpa using hs)
  | guardEnd dt => exact (s.part.passTime dt).returnOutcome_law hs
  | slotEnd heard dt => exact (s.part.passTime dt).slotEnd_law hs heard
  | abandonSent dt slot => simpa using hs
  | rouse => exact s.part.rouseExpired_law hs
  | alert address => exact s.part.quietPassed.carrier_law hs _
  | _ => simp [hs]

theorem Ends.law {x : Access} {f : Part → Part} (h : Ends x f) {p : Part} (hp : RecordsLaw p.table.records) :
    RecordsLaw (f p).table.records := by
  cases h with
  | done dt w => exact (p.passTime dt).accessDone_law hp _ _
  | failed dt => exact (p.passTime dt).accessFailed_law hp _

theorem Reaction.recordsOk {q : Part} (h : Reaction c s q) (hs : s.part.recordsOk) : q.recordsOk := by
  change RecordsLaw q.table.records
  cases h with
  | same => exact hs
  | reset => exact RecordsLaw.reset
  | plain event => exact event.law hs
  | acts event =>
    rw [State.act_table, Part.settle_records]
    exact event.law hs
  | word x mem current ends =>
    rw [State.act_table, Part.settle_records]
    exact ends.law (p := (s.offList mem).part) hs

/-- Settles O24: each operation of the blocks keeps the law of the records, and every command comes to one of them. -/
theorem nodeTableLawKept : Obligations.NodeTableLawKept :=
  fun _ _ => step_keeps fun h => (exec_reaction h).recordsOk

/-! ## The first fault captured, and the fault hold -/

theorem Part.hasCause_fault (p : Part) : p.hasCause .fault = p.faults.cause[6] := rfl

/-- The part as a write of CAUSE leaves it before a pending request is taken: the bits written with 1 clear, with CAUSE.WAKE wake-seen, and
with CAUSE.FAULT the capture and the fault hold (R155, R158, R162, R163). -/
def Part.causeCleared (p : Part) (v : Byte) : Part :=
  { p with
    faults := { p.faults with
      cause := p.faults.cause &&& ~~~ v,
      capture := if v.getLsbD 6 && p.hasCause .fault then Capture.empty else p.faults.capture },
    ladder := { p.ladder with
      wakeSeen := p.ladder.wakeSeen && !(v.getLsbD 5 && p.hasCause .wake),
      faultHold := p.ladder.faultHold && !(v.getLsbD 6 && p.hasCause .fault) } }

theorem clear_fault_mask (cause v : Byte) (hv : v.getLsbD 6 = true) :
    cause &&& ~~~ v &&& ~~~ CauseBit.fault.mask = cause &&& ~~~ v := by
  refine BitVec.eq_of_getLsbD_eq fun i hi => ?_
  have hmask : CauseBit.fault.mask = BitVec.twoPow 8 6 := rfl
  rw [hmask]
  by_cases h6 : i = 6
  · subst h6
    simp [hv]
  · have hne : ¬ 6 = i := fun h => h6 h.symm
    simp [hi]
    exact fun _ _ => h6

theorem Part.causeCleared_eq (p : Part) (v : Byte) (wake fault : Bool) (hw : (v.getLsbD 5 && p.hasCause .wake) = wake)
    (hf : (v.getLsbD 6 && p.hasCause .fault) = fault) :
    p.causeCleared v =
      { p with
        faults := { p.faults with
          cause := p.faults.cause &&& ~~~ v, capture := if fault then Capture.empty else p.faults.capture },
        ladder := { p.ladder with
          wakeSeen := p.ladder.wakeSeen && !wake, faultHold := p.ladder.faultHold && !fault } } := by
  subst hw hf
  rfl

theorem Part.writeCause_eq (p : Part) (area : Word) (v : Byte) :
    p.writeCause area v =
      if v.getLsbD 6 && p.hasCause .fault && p.ladder.state == .held then (p.causeCleared v).takePending area
      else p.causeCleared v := by
  unfold Part.writeCause
  dsimp only [CauseBit.position]
  split
  next hfault =>
    have hv : v.getLsbD 6 = true := (Bool.and_eq_true_iff.mp hfault).1
    rw [hfault]
    have hmask := clear_fault_mask p.faults.cause v hv
    have cleared (wake : Bool) (h : (v.getLsbD 5 && p.hasCause .wake) = wake) := p.causeCleared_eq v wake true h hfault
    by_cases hheld : p.ladder.state = .held <;> split <;> rename_i hwake
    · simp [hheld, cleared _ hwake, Part.modLadder, Part.clearFault, hmask]
    · simp [hheld, cleared _ (Bool.eq_false_iff.mpr hwake), Part.modLadder, Part.clearFault, hmask]
    · simp [hheld, cleared _ hwake, Part.modLadder, Part.clearFault, hmask]
    · simp [hheld, cleared _ (Bool.eq_false_iff.mpr hwake), Part.modLadder, Part.clearFault, hmask]
  next hfault =>
    rw [Bool.eq_false_iff.mpr hfault]
    split
    next hwake => simp [p.causeCleared_eq v _ _ hwake (Bool.eq_false_iff.mpr hfault), Part.modLadder]
    next hwake => simp [p.causeCleared_eq v _ _ (Bool.eq_false_iff.mpr hwake) (Bool.eq_false_iff.mpr hfault)]
/-- A write of CAUSE whose bit 6 is 0 leaves CAUSE.FAULT, the capture and the fault hold as they are. -/
theorem Part.writeCause_other (p : Part) (area : Word) (v : Byte) (hv : v.getLsbD 6 = false) :
    (p.writeCause area v).faults.capture = p.faults.capture ∧ (p.writeCause area v).faults.cause = p.faults.cause &&& ~~~ v ∧
      (p.writeCause area v).ladder.faultHold = p.ladder.faultHold := by
  have hbit : v[6] = false := hv
  simp [Part.writeCause_eq, Part.causeCleared, hbit]

theorem Part.writeCause_captured (p : Part) (h : p.faults.cause[6] = true) (area : Word) (v : Byte)
    (hv : v.getLsbD 6 = false) : (p.writeCause area v).Captured p := by
  obtain ⟨hcapture, hcause, -⟩ := p.writeCause_other area v hv
  have hbit : v[6] = false := hv
  simp [Part.Captured, hcapture, hcause, h, hbit]

theorem Plain.captured {f : Part → Part} (h : Plain c s f) (hs : s.part.faults.cause[6] = true) :
    (f s.part).Captured s.part ∨ ∃ v : Word, c = .causeWrite v ∧ v.getLsbD 6 = true := by
  cases h with
  | cause v command =>
    cases hv : v.getLsbD 6 with
    | true => exact .inr ⟨v, command, hv⟩
    | false => exact .inl (s.part.writeCause_captured hs _ _ (by simpa using hv))
  | _ => exact .inl (by simp [Part.Captured, hs])

/-- Only a write of CAUSE that clears CAUSE.FAULT ends the hold with a request pending. -/
theorem State.endsHold_bit {v : Byte} (h : s.endsHold v = true) : v.getLsbD 6 = true := by
  simp only [State.endsHold, Bool.and_eq_true] at h
  obtain ⟨⟨-, hbit⟩, -⟩ := h
  exact hbit

theorem causeWrite_of_endsHold {v : Word} (command : c = .causeWrite v) (h : s.endsHold (v.extractLsb' 0 8) = true) :
    ∃ v : Word, c = .causeWrite v ∧ v.getLsbD 6 = true :=
  ⟨v, command, by simpa using State.endsHold_bit h⟩

theorem Acts.captured {f : Part → Part} (h : Acts c s f) (hs : s.part.faults.cause[6] = true) :
    (f s.part).Captured s.part ∨ ∃ v : Word, c = .causeWrite v ∧ v.getLsbD 6 = true := by
  cases h with
  | cause v command ends => exact .inr (causeWrite_of_endsHold command ends)
  | request r nudge => 
    cases nudge with
    | false => exact .inl (s.part.requestWritten_captured hs _ _)
    | true =>
      have hn := s.part.nudge_captured hs
      exact .inl ((s.part.nudge.requestWritten_captured hn.1 _ _).trans hn)
  | openReady dt => 
    exact .inl (Part.pollNext_captured (s.part.passTime dt).enterPolling hs)
  | guardEnd dt => exact .inl ((s.part.passTime dt).returnOutcome_captured hs)
  | slotEnd heard dt => exact .inl ((s.part.passTime dt).slotEnd_captured hs heard)
  | abandonSent dt slot => exact .inl ((s.part.passTime dt).abandonSent_captured hs slot)
  | alert address => exact .inl (s.part.quietPassed.carrier_captured hs _)
  | _ => exact .inl (by simp [Part.Captured, hs])

theorem Ends.captured {x : Access} {f : Part → Part} (h : Ends x f) {p : Part} (hp : p.faults.cause[6] = true) :
    (f p).Captured p := by
  cases h with
  | done dt w => exact (p.passTime dt).accessDone_captured hp _ _
  | failed dt => exact (p.passTime dt).accessFailed_captured hp _

theorem State.act_captured (s : State) (f : Part → Part) (h : (f s.part).faults.cause[6] = true) :
    (s.act f).part.Captured (f s.part) := by
  have hsettle := (f s.part).settle_captured h
  simpa only [Part.Captured, State.act_faults] using hsettle

theorem Reaction.captured {q : Part} (h : Reaction c s q) (hs : s.part.faults.cause[6] = true) :
    q.Captured s.part ∨ q = { Part.reset with arb := s.part.arb } ∨ ∃ v : Word, c = .causeWrite v ∧ v.getLsbD 6 = true := by
  cases h with
  | same => exact .inl (.rfl hs)
  | reset => exact .inr (.inl rfl)
  | plain event => exact (event.captured hs).imp_right .inr
  | acts event =>
    refine (event.captured hs).imp (fun hf => ?_) .inr
    exact (s.act_captured _ hf.1).trans hf
  | word x mem current ends =>
    have hf := ends.captured (p := (s.offList mem).part) hs
    exact .inl (((s.offList mem).act_captured _ hf.1).trans hf)

/-- Settles O26: every operation of the blocks but the clearing of CAUSE.FAULT leaves the first fault captured. -/
theorem firstFaultKept : Obligations.FirstFaultKept :=
  fun _ _ _ h hs => (exec_reaction h).captured hs

theorem Plain.holds {f : Part → Part} (h : Plain c s f) (hs : s.part.ladder.faultHold = true) :
    (f s.part).ladder.faultHold = true ∨ ∃ v : Word, c = .causeWrite v ∧ v.getLsbD 6 = true := by
  cases h with
  | cause v command =>
    cases hv : v.getLsbD 6 with
    | true => exact .inr ⟨v, command, hv⟩
    | false =>
      obtain ⟨-, -, hhold⟩ := s.part.writeCause_other s.port.area (v.extractLsb' 0 8) (by simpa using hv)
      exact .inl (hhold.trans hs)
  | _ => exact .inl (by simp [hs])

theorem Acts.holds {f : Part → Part} (h : Acts c s f) (hs : s.part.ladder.faultHold = true) :
    (f s.part).ladder.faultHold = true ∨ ∃ v : Word, c = .causeWrite v ∧ v.getLsbD 6 = true := by
  cases h with
  | cause v command ends => exact .inr (causeWrite_of_endsHold command ends)
  | request r nudge => exact .inl (by cases nudge <;> simp [hs])
  | guardEnd dt => exact .inl ((s.part.passTime dt).returnOutcome_holds hs)
  | alert address => exact .inl (s.part.quietPassed.carrier_holds hs _)
  | _ => exact .inl (by simp [hs])

theorem Ends.holds {x : Access} {f : Part → Part} (h : Ends x f) {p : Part} (hp : p.ladder.faultHold = true) :
    (f p).ladder.faultHold = true := by
  cases h with
  | done dt w => exact (p.passTime dt).accessDone_holds hp _ _
  | failed dt => exact (p.passTime dt).accessFailed_holds hp _

theorem Reaction.holds {q : Part} (h : Reaction c s q) (hs : s.part.ladder.faultHold = true) :
    q.ladder.faultHold = true ∨ q = { Part.reset with arb := s.part.arb } ∨ ∃ v : Word, c = .causeWrite v ∧ v.getLsbD 6 = true := by
  cases h with
  | same => exact .inl hs
  | reset => exact .inr (.inl rfl)
  | plain event => exact (event.holds hs).imp_right .inr
  | acts event =>
    refine (event.holds hs).imp (fun hf => ?_) .inr
    rw [State.act_ladder]
    exact Part.settle_holds _ hf
  | word x mem current ends =>
    left
    rw [State.act_ladder]
    exact Part.settle_holds _ (ends.holds (p := (s.offList mem).part) hs)

/-- Settles O27: every operation of the blocks but the clearing of CAUSE.FAULT keeps the fault hold. -/
theorem faultHoldKept : Obligations.FaultHoldKept :=
  fun _ _ _ h hs => (exec_reaction h).holds hs

end
end Sys2Proof.Machine
end

section
/-!
SUPPORT. What the operations of each block leave alone of the other blocks: one lemma per operation.
-/
namespace Sys2Proof.Machine

variable (p : Part)

/-- What the frame engine does on the line changes the frame engine and counters only. -/
abbrev Part.KeepsOffLine (q p : Part) : Prop :=
  q.ladder = p.ladder ∧ q.sched = p.sched ∧ q.table = p.table ∧ q.images = p.images ∧ q.windows = p.windows ∧
    q.events = p.events ∧ q.parcels = p.parcels ∧ q.loader = p.loader ∧ q.bus = p.bus ∧ q.parked = p.parked

theorem Part.KeepsOffLine.rfl {p : Part} : p.KeepsOffLine p := by simp [Part.KeepsOffLine]

theorem Part.KeepsOffLine.trans {p q r : Part} (h : r.KeepsOffLine q) (k : q.KeepsOffLine p) : r.KeepsOffLine p := by
  simp_all [Part.KeepsOffLine]

@[simp] theorem Part.frameStart_keepsOffLine : (p.frameStart).KeepsOffLine p := by
  unfold Part.frameStart; dsimp only; (repeat' split) <;> simp [Part.KeepsOffLine]
@[simp] theorem Part.requestSent_keepsOffLine : (p.requestSent).KeepsOffLine p := by
  unfold Part.requestSent; (repeat' split) <;> simp [Part.KeepsOffLine]
@[simp] theorem Part.decideAttempt_keepsOffLine (a : Attempt) (rx : Option Frame) : (p.decideAttempt a rx).KeepsOffLine p := by
  unfold Part.decideAttempt; (repeat' split) <;> simp [Part.KeepsOffLine]
@[simp] theorem Part.replyTimerLimit_keepsOffLine : (p.replyTimerLimit).KeepsOffLine p := by
  unfold Part.replyTimerLimit; (repeat' split) <;> simp [Part.KeepsOffLine]
@[simp] theorem Part.guardCarrier_keepsOffLine : (p.guardCarrier).KeepsOffLine p := by
  unfold Part.guardCarrier; (repeat' split) <;> simp [Part.KeepsOffLine]
@[simp] theorem Part.carrierInGuard_keepsOffLine (items : List LineItem) : (p.carrierInGuard items).KeepsOffLine p := by
  unfold Part.carrierInGuard; (repeat' split) <;> simp [Part.KeepsOffLine]
@[simp] theorem Part.judgeReply_keepsOffLine (ex : Exchange) (items : List LineItem) : (p.judgeReply ex items).KeepsOffLine p := by
  unfold Part.judgeReply; (repeat' split) <;> simp [Part.KeepsOffLine]
@[simp] theorem Part.replyFrameEnd_keepsOffLine (items : List LineItem) : (p.replyFrameEnd items).KeepsOffLine p := by
  unfold Part.replyFrameEnd; (repeat' split) <;> simp [Part.KeepsOffLine]
@[simp] theorem Part.strayFrame_keepsOffLine : (p.strayFrame).KeepsOffLine p := by
  unfold Part.strayFrame; (repeat' split) <;> simp [Part.KeepsOffLine]
@[simp] theorem Part.strayClash_keepsOffLine : (p.strayClash).KeepsOffLine p := by
  unfold Part.strayClash; (repeat' split) <;> simp [Part.KeepsOffLine]
@[simp] theorem Part.quietPassed_keepsOffLine : (p.quietPassed).KeepsOffLine p := by
  simp [Part.quietPassed, Part.KeepsOffLine]
@[simp] theorem Part.lineClash_keepsOffLine : (p.lineClash).KeepsOffLine p := by
  unfold Part.lineClash; (repeat' split) <;> simp [Part.KeepsOffLine]
@[simp] theorem Part.giveBroadcast_keepsOffLine (ex : Exchange) (kind : PartKind) : (p.giveBroadcast ex kind).KeepsOffLine p := by
  simp [Part.giveBroadcast, Part.KeepsOffLine]
@[simp] theorem Part.givePoll_keepsOffLine (i : NodeIx) (ack : Option Byte) (slice : List Byte) :
    (p.givePoll i ack slice).KeepsOffLine p := by
  simp [Part.givePoll, Part.KeepsOffLine]

/-- What the image unit does changes the image unit, the fault unit and the request list only. -/
abbrev Part.KeepsOffImages (q p : Part) : Prop :=
  q.ladder = p.ladder ∧ q.sched = p.sched ∧ q.frames = p.frames ∧ q.table = p.table ∧ q.windows = p.windows ∧
    q.events = p.events ∧ q.parcels = p.parcels ∧ q.loader = p.loader ∧ q.parked = p.parked

theorem Part.KeepsOffImages.rfl {p : Part} : p.KeepsOffImages p := by simp [Part.KeepsOffImages]

theorem Part.KeepsOffImages.trans {p q r : Part} (h : r.KeepsOffImages q) (k : q.KeepsOffImages p) : r.KeepsOffImages p := by
  simp_all [Part.KeepsOffImages]

@[simp] theorem Part.writeShadow_keepsOffImages (offset : Nat) (bytes : List Byte) :
    (p.writeShadow offset bytes).KeepsOffImages p := by
  simp [Part.writeShadow, Part.KeepsOffImages]
@[simp] theorem Part.clearShadow_keepsOffImages (lo hi : Nat) : (p.clearShadow lo hi).KeepsOffImages p := by
  simp [Part.clearShadow, Part.KeepsOffImages]
@[simp] theorem Part.clearSlice_keepsOffImages (e : NodeEntry) (size : Nat) : (p.clearSlice e size).KeepsOffImages p := by
  simp [Part.clearSlice, Part.KeepsOffImages]
@[simp] theorem Part.applyLoss_keepsOffImages (e : NodeEntry) (size : Nat) : (p.applyLoss e size).KeepsOffImages p := by
  unfold Part.applyLoss; (repeat' split) <;> simp [Part.KeepsOffImages]
@[simp] theorem Part.issueSlice_keepsOffImages (bank : Bank) (e : NodeEntry) (done : Nat) :
    (p.issueSlice bank e done).KeepsOffImages p := by
  simp [Part.issueSlice, Part.KeepsOffImages]
@[simp] theorem Part.beginClose_keepsOffImages : (p.beginClose).KeepsOffImages p := by
  simp [Part.beginClose, Part.KeepsOffImages]
@[simp] theorem Part.issueClose_keepsOffImages (fill : Bank) (job : CloseJob) : (p.issueClose fill job).KeepsOffImages p := by
  simp [Part.issueClose, Part.KeepsOffImages]
@[simp] theorem Part.holdWordTaken_keepsOffImages (w : Word) (job : CloseJob) : (p.holdWordTaken w job).KeepsOffImages p := by
  unfold Part.holdWordTaken; dsimp only; (repeat' split) <;> simp [Part.KeepsOffImages]
@[simp] theorem Part.writeCycleWord_keepsOffImages : (p.writeCycleWord).KeepsOffImages p := by
  simp [Part.writeCycleWord, Part.KeepsOffImages]
@[simp] theorem Part.endClose_keepsOffImages : (p.endClose).KeepsOffImages p := by
  simp [Part.endClose, Part.KeepsOffImages]
@[simp] theorem Part.published_keepsOffImages (fill : Bank) : (p.published fill).KeepsOffImages p := by
  unfold Part.published; dsimp only; (repeat' split) <;> simp [Part.KeepsOffImages]
@[simp] theorem Part.continueClose_keepsOffImages (w : Word) : (p.continueClose w).KeepsOffImages p := by
  unfold Part.continueClose; (repeat' split) <;> simp [Part.KeepsOffImages]
@[simp] theorem Part.divisorReached_keepsOffImages : (p.divisorReached).KeepsOffImages p := by
  unfold Part.divisorReached; (repeat' split) <;> simp [Part.KeepsOffImages]

/-- What the parcel unit does by itself changes the parcel unit, counters, CAUSE and the request list only. -/
abbrev Part.KeepsOffParcels (q p : Part) : Prop :=
  q.ladder = p.ladder ∧ q.sched = p.sched ∧ q.frames = p.frames ∧ q.table = p.table ∧ q.images = p.images ∧
    q.windows = p.windows ∧ q.events = p.events ∧ q.loader = p.loader ∧ q.parked = p.parked

theorem Part.KeepsOffParcels.rfl {p : Part} : p.KeepsOffParcels p := by simp [Part.KeepsOffParcels]

theorem Part.KeepsOffParcels.trans {p q r : Part} (h : r.KeepsOffParcels q) (k : q.KeepsOffParcels p) : r.KeepsOffParcels p := by
  simp_all [Part.KeepsOffParcels]

@[simp] theorem Part.writeAnswer_keepsOffParcels (writes : List (Nat × Word)) : (p.writeAnswer writes).KeepsOffParcels p := by
  unfold Part.writeAnswer; (repeat' split) <;> simp [Part.KeepsOffParcels]
@[simp] theorem Part.readWithdraw_keepsOffParcels (source : Source) (slot : SlotIx) :
    (p.readWithdraw source slot).KeepsOffParcels p := by
  simp [Part.readWithdraw, Part.KeepsOffParcels]
@[simp] theorem Part.startAnswer_keepsOffParcels : (p.startAnswer).KeepsOffParcels p := by
  unfold Part.startAnswer; (repeat' split) <;> simp [Part.KeepsOffParcels]
@[simp] theorem Part.readyAnswer_keepsOffParcels (a : AnswerFor) : (p.readyAnswer a).KeepsOffParcels p := by
  simp [Part.readyAnswer, Part.KeepsOffParcels]
@[simp] theorem Part.nextAnswer_keepsOffParcels : (p.nextAnswer).KeepsOffParcels p := by
  simp [Part.nextAnswer, Part.KeepsOffParcels]
@[simp] theorem Part.countAnswer_keepsOffParcels (outcome : ParcelOutcome) : (p.countAnswer outcome).KeepsOffParcels p := by
  simp [Part.countAnswer, Part.KeepsOffParcels]
@[simp] theorem Part.freeParcel_keepsOffParcels (slot : SlotIx) : (p.freeParcel slot).KeepsOffParcels p := by
  simp [Part.freeParcel, Part.KeepsOffParcels]
@[simp] theorem Part.finishParcel_keepsOffParcels (slot : SlotIx) (outcome : ParcelOutcome) (status : Byte) :
    (p.finishParcel slot outcome status).KeepsOffParcels p := by
  simp [Part.finishParcel, Part.KeepsOffParcels]
@[simp] theorem Part.abandonParcel_keepsOffParcels (slot : SlotIx) (outcome : ParcelOutcome) :
    (p.abandonParcel slot outcome).KeepsOffParcels p := by
  simp [Part.abandonParcel, Part.KeepsOffParcels]
@[simp] theorem Part.abandonDone_keepsOffParcels (slot : SlotIx) : (p.abandonDone slot).KeepsOffParcels p := by
  simp [Part.abandonDone, Part.KeepsOffParcels]
@[simp] theorem Part.parcelAtChange_keepsOffParcels (new : NodeState) (e : Parcel) :
    (p.parcelAtChange new e).KeepsOffParcels p := by
  unfold Part.parcelAtChange; (repeat' split) <;> simp [Part.KeepsOffParcels]
@[simp] theorem Part.parcelNodeChange_keepsOffParcels (i : NodeIx) (new : NodeState) :
    (p.parcelNodeChange i new).KeepsOffParcels p := by
  unfold Part.parcelNodeChange
  exact foldl_relates Part.KeepsOffParcels .rfl (fun h k => h.trans k) _ (fun _ _ => by simp [Part.KeepsOffParcels]) _ _
@[simp] theorem Part.parcelCommit_keepsOffParcels (new : Vector NodeEntry 48) : (p.parcelCommit new).KeepsOffParcels p := by
  unfold Part.parcelCommit; dsimp only
  exact foldl_relates Part.KeepsOffParcels .rfl (fun h k => h.trans k) _ (fun _ _ => by split <;> (repeat' split) <;> simp [Part.KeepsOffParcels]) _ _
@[simp] theorem Part.readTotal_keepsOffParcels : (p.readTotal).KeepsOffParcels p := by
  simp [Part.readTotal, Part.KeepsOffParcels]
@[simp] theorem Part.scanTrigger_keepsOffParcels : (p.scanTrigger).KeepsOffParcels p := by
  unfold Part.scanTrigger; (repeat' split) <;> simp [Part.KeepsOffParcels]
@[simp] theorem Part.visitSlot_keepsOffParcels (slot : SlotIx) (left : Nat) : (p.visitSlot slot left).KeepsOffParcels p := by
  simp [Part.visitSlot, Part.KeepsOffParcels]
@[simp] theorem Part.answerDeferred_keepsOffParcels (slot : SlotIx) (left : Nat) :
    (p.answerDeferred slot left).KeepsOffParcels p := by
  simp [Part.answerDeferred, Part.KeepsOffParcels]
@[simp] theorem Part.walkStop_keepsOffParcels (slot : SlotIx) : (p.walkStop slot).KeepsOffParcels p := by
  simp [Part.walkStop, Part.KeepsOffParcels]
@[simp] theorem Part.walkEnd_keepsOffParcels : (p.walkEnd).KeepsOffParcels p := by
  unfold Part.walkEnd; dsimp only; (repeat' split) <;> simp [Part.KeepsOffParcels]
@[simp] theorem Part.walkOn_keepsOffParcels (slot : SlotIx) (left : Nat) : (p.walkOn slot left).KeepsOffParcels p := by
  unfold Part.walkOn; (repeat' split) <;> simp [Part.KeepsOffParcels]
@[simp] theorem Part.totalRead_keepsOffParcels (total : Word) : (p.totalRead total).KeepsOffParcels p := by
  unfold Part.totalRead; dsimp only; (repeat' split) <;> simp [Part.KeepsOffParcels]
@[simp] theorem Part.answerAtOnce_keepsOffParcels (slot : SlotIx) (left : Nat) (ask : Half) (outcome : ParcelOutcome) :
    (p.answerAtOnce slot left ask outcome).KeepsOffParcels p := by
  simp [Part.answerAtOnce, Part.KeepsOffParcels]
@[simp] theorem Part.writeTaken_keepsOffParcels (slot : SlotIx) (left : Nat) (h : SlotHeader) (words : List Word) :
    (p.writeTaken slot left h words).KeepsOffParcels p := by
  simp [Part.writeTaken, Part.KeepsOffParcels]
@[simp] theorem Part.beginTake_keepsOffParcels (slot : SlotIx) (left : Nat) (h : SlotHeader) :
    (p.beginTake slot left h).KeepsOffParcels p := by
  unfold Part.beginTake; (repeat' split) <;> simp [Part.KeepsOffParcels]
@[simp] theorem Part.judgeSlot_keepsOffParcels (slot : SlotIx) (left : Nat) (ask withdraw : Half) (target length : Word) :
    (p.judgeSlot slot left ask withdraw target length).KeepsOffParcels p := by
  unfold Part.judgeSlot; dsimp only; (repeat' split) <;> simp [Part.KeepsOffParcels]
@[simp] theorem Part.visitRead_keepsOffParcels (slot : SlotIx) (left : Nat) (got : List Word) :
    (p.visitRead slot left got).KeepsOffParcels p := by
  unfold Part.visitRead; (repeat' split) <;> simp [Part.KeepsOffParcels]
@[simp] theorem Part.parcelTaken_keepsOffParcels (slot : SlotIx) (left : Nat) (h : SlotHeader) (request : List Byte) :
    (p.parcelTaken slot left h request).KeepsOffParcels p := by
  unfold Part.parcelTaken; dsimp only; (repeat' split) <;> simp [Part.KeepsOffParcels]
@[simp] theorem Part.continueWalk_keepsOffParcels (w : Word) : (p.continueWalk w).KeepsOffParcels p := by
  unfold Part.continueWalk; dsimp only; (repeat' split) <;> simp [Part.KeepsOffParcels]
@[simp] theorem Part.walkFailed_keepsOffParcels : (p.walkFailed).KeepsOffParcels p := by
  unfold Part.walkFailed; dsimp only; (repeat' split) <;> simp [Part.KeepsOffParcels]
@[simp] theorem Part.answerComplete_keepsOffParcels : (p.answerComplete).KeepsOffParcels p := by
  unfold Part.answerComplete; dsimp only; (repeat' split) <;> simp [Part.KeepsOffParcels]
@[simp] theorem Part.continueAnswer_keepsOffParcels (w : Word) : (p.continueAnswer w).KeepsOffParcels p := by
  unfold Part.continueAnswer; dsimp only; (repeat' split) <;> simp [Part.KeepsOffParcels]
@[simp] theorem Part.answerFailed_keepsOffParcels : (p.answerFailed).KeepsOffParcels p := by
  unfold Part.answerFailed; (repeat' split) <;> simp [Part.KeepsOffParcels]
@[simp] theorem Part.parcelEnd_keepsOffParcels (e : ParcelEnd) : (p.parcelEnd e).KeepsOffParcels p := by
  rcases e with (_ | _) | (_ | _) <;> simp [Part.parcelEnd, Part.KeepsOffParcels]
@[simp] theorem Part.takeParcelEnd_keepsOffParcels (e : ParcelEnd) : (p.takeParcelEnd e).KeepsOffParcels p := by
  unfold Part.takeParcelEnd; (repeat' split) <;> simp [Part.KeepsOffParcels]
@[simp] theorem Part.takeKeptEnd_keepsOffParcels : (p.takeKeptEnd).KeepsOffParcels p := by
  unfold Part.takeKeptEnd; (repeat' split) <;> simp [Part.KeepsOffParcels]
@[simp] theorem Part.resumeParcels_keepsOffParcels : (p.resumeParcels).KeepsOffParcels p := by
  unfold Part.resumeParcels; dsimp only; (repeat' split) <;> simp [Part.KeepsOffParcels]
@[simp] theorem Part.retryAnswers_keepsOffParcels : (p.retryAnswers).KeepsOffParcels p := by
  unfold Part.retryAnswers; dsimp only; split
  · exact .rfl
  exact foldl_relates Part.KeepsOffParcels .rfl (fun h k => h.trans k) _ (fun _ _ => by simp [Part.KeepsOffParcels]) _ _
@[simp] theorem Part.lowerPatience_keepsOffParcels : (p.lowerPatience).KeepsOffParcels p := by
  simp [Part.lowerPatience, Part.KeepsOffParcels]
@[simp] theorem Part.patienceExpired_keepsOffParcels (slot : SlotIx) : (p.patienceExpired slot).KeepsOffParcels p := by
  unfold Part.patienceExpired; (repeat' split) <;> simp [Part.KeepsOffParcels]
@[simp] theorem Part.newPass_keepsOffParcels : (p.newPass).KeepsOffParcels p := by
  simp [Part.newPass, Part.KeepsOffParcels]
@[simp] theorem Part.parcelAttemptFailed_keepsOffParcels (slot : SlotIx) : (p.parcelAttemptFailed slot).KeepsOffParcels p := by
  unfold Part.parcelAttemptFailed; (repeat' split) <;> simp [Part.KeepsOffParcels]
@[simp] theorem Part.segAcked_keepsOffParcels (slot : SlotIx) (segment : Byte) : (p.segAcked slot segment).KeepsOffParcels p := by
  simp [Part.segAcked, Part.KeepsOffParcels]
@[simp] theorem Part.segReplied_keepsOffParcels (slot : SlotIx) (n : Nat) (f : Frame) :
    (p.segReplied slot n f).KeepsOffParcels p := by
  unfold Part.segReplied; dsimp only; (repeat' split) <;> simp [Part.KeepsOffParcels]

/-- The writes of status records change the node table, CAUSE and the request list only. -/
abbrev Part.KeepsOffStatus (q p : Part) : Prop :=
  q.ladder = p.ladder ∧ q.sched = p.sched ∧ q.frames = p.frames ∧ q.images = p.images ∧ q.windows = p.windows ∧
    q.events = p.events ∧ q.parcels = p.parcels ∧ q.loader = p.loader ∧ q.parked = p.parked

theorem Part.KeepsOffStatus.rfl {p : Part} : p.KeepsOffStatus p := by simp [Part.KeepsOffStatus]

theorem Part.KeepsOffStatus.trans {p q r : Part} (h : r.KeepsOffStatus q) (k : q.KeepsOffStatus p) : r.KeepsOffStatus p := by
  simp_all [Part.KeepsOffStatus]

@[simp] theorem Part.issueStatus_keepsOffStatus (i : NodeIx) (k : Fin 4) : (p.issueStatus i k).KeepsOffStatus p := by
  simp [Part.issueStatus, Part.KeepsOffStatus]
@[simp] theorem Part.startStatus_keepsOffStatus : (p.startStatus).KeepsOffStatus p := by
  unfold Part.startStatus; (repeat' split) <;> simp [Part.KeepsOffStatus]
@[simp] theorem Part.queueStatus_keepsOffStatus (i : NodeIx) (cause : Bool) : (p.queueStatus i cause).KeepsOffStatus p := by
  unfold Part.queueStatus; dsimp only; (repeat' split) <;> simp [Part.KeepsOffStatus]
@[simp] theorem Part.nextStatus_keepsOffStatus (w : StatusWrite) : (p.nextStatus w).KeepsOffStatus p := by
  unfold Part.nextStatus; (repeat' split) <;> simp [Part.KeepsOffStatus]
@[simp] theorem Part.oweStatus_keepsOffStatus : (p.oweStatus).KeepsOffStatus p := by
  unfold Part.oweStatus; (repeat' split) <;> simp [Part.KeepsOffStatus]
@[simp] theorem Part.statusFailed_keepsOffStatus : (p.statusFailed).KeepsOffStatus p := by
  unfold Part.statusFailed; (repeat' split) <;> simp [Part.KeepsOffStatus]
@[simp] theorem Part.writeOwed_keepsOffStatus : (p.writeOwed).KeepsOffStatus p := by
  unfold Part.writeOwed
  exact foldl_relates Part.KeepsOffStatus .rfl (fun h k => h.trans k) _ (fun _ _ => by simp [Part.KeepsOffStatus]) _ _

/-- What the event unit does changes the event unit, the stray set, counters, CAUSE, the status records' writes and the request list only. -/
abbrev Part.KeepsOffEvents (q p : Part) : Prop :=
  q.ladder = p.ladder ∧ q.sched = p.sched ∧ q.frames = p.frames ∧ q.images = p.images ∧
    q.parcels = p.parcels ∧ q.loader = p.loader ∧ q.parked = p.parked

theorem Part.KeepsOffEvents.rfl {p : Part} : p.KeepsOffEvents p := by simp [Part.KeepsOffEvents]

theorem Part.KeepsOffEvents.trans {p q r : Part} (h : r.KeepsOffEvents q) (k : q.KeepsOffEvents p) : r.KeepsOffEvents p := by
  simp_all [Part.KeepsOffEvents]

@[simp] theorem Part.toTail_keepsOffEvents (i : NodeIx) : (p.toTail i).KeepsOffEvents p := by
  unfold Part.toTail; (repeat' split) <;> simp [Part.KeepsOffEvents]
@[simp] theorem Part.indicate_keepsOffEvents (i : NodeIx) (origin : LatchOrigin) : (p.indicate i origin).KeepsOffEvents p := by
  unfold Part.indicate; (repeat' split) <;> simp [Part.KeepsOffEvents]
@[simp] theorem Part.unqueue_keepsOffEvents (i : NodeIx) : (p.unqueue i).KeepsOffEvents p := by
  simp [Part.unqueue, Part.KeepsOffEvents]
@[simp] theorem Part.eventLeaves_keepsOffEvents (i : NodeIx) : (p.eventLeaves i).KeepsOffEvents p := by
  simp [Part.eventLeaves, Part.KeepsOffEvents]
@[simp] theorem Part.eventCleared_keepsOffEvents (i : NodeIx) : (p.eventCleared i).KeepsOffEvents p := by
  simp [Part.eventCleared, Part.KeepsOffEvents]
@[simp] theorem Part.voidNotes_keepsOffEvents : (p.voidNotes).KeepsOffEvents p := by
  simp [Part.voidNotes, Part.KeepsOffEvents]
@[simp] theorem Part.confirmAck_keepsOffEvents (i : NodeIx) (carried : Option Byte) :
    (p.confirmAck i carried).KeepsOffEvents p := by
  unfold Part.confirmAck; (repeat' split) <;> simp [Part.KeepsOffEvents]
@[simp] theorem Part.newRound_keepsOffEvents : (p.newRound).KeepsOffEvents p := by
  simp [Part.newRound, Part.KeepsOffEvents]
@[simp] theorem Part.nameNode_keepsOffEvents (i : NodeIx) : (p.nameNode i).KeepsOffEvents p := by
  simp [Part.nameNode, Part.KeepsOffEvents]
@[simp] theorem Part.startAppend_keepsOffEvents : (p.startAppend).KeepsOffEvents p := by
  unfold Part.startAppend; (repeat' split) <;> simp [Part.KeepsOffEvents]
@[simp] theorem Part.enqueueAppend_keepsOffEvents (what : AppendFor) (record : List Word) :
    (p.enqueueAppend what record).KeepsOffEvents p := by
  simp [Part.enqueueAppend, Part.KeepsOffEvents]
@[simp] theorem Part.nextAppend_keepsOffEvents : (p.nextAppend).KeepsOffEvents p := by
  simp [Part.nextAppend, Part.KeepsOffEvents]
@[simp] theorem Part.offerNote_keepsOffEvents : (p.offerNote).KeepsOffEvents p := by
  unfold Part.offerNote; (repeat' split) <;> simp [Part.KeepsOffEvents]
@[simp] theorem Part.noteAppended_keepsOffEvents (address : Byte) (count : Nat) :
    (p.noteAppended address count).KeepsOffEvents p := by
  simp [Part.noteAppended, Part.KeepsOffEvents]
@[simp] theorem Part.eventAccepted_keepsOffEvents (a : Append) (i : NodeIx) (seq : Byte) (more : Bool) :
    (p.eventAccepted a i seq more).KeepsOffEvents p := by
  unfold Part.eventAccepted; (repeat' split) <;> simp [Part.KeepsOffEvents]
@[simp] theorem Part.appendPublished_keepsOffEvents (a : Append) : (p.appendPublished a).KeepsOffEvents p := by
  unfold Part.appendPublished; dsimp only; (repeat' split) <;> simp [Part.KeepsOffEvents]
@[simp] theorem Part.continueAppend_keepsOffEvents : (p.continueAppend).KeepsOffEvents p := by
  unfold Part.continueAppend; (repeat' split) <;> simp [Part.KeepsOffEvents]
@[simp] theorem Part.appendAborted_keepsOffEvents (a : Append) : (p.appendAborted a).KeepsOffEvents p := by
  unfold Part.appendAborted; (repeat' split) <;> simp [Part.KeepsOffEvents]
@[simp] theorem Part.appendFailed_keepsOffEvents : (p.appendFailed).KeepsOffEvents p := by
  unfold Part.appendFailed; (repeat' split) <;> simp [Part.KeepsOffEvents]
@[simp] theorem Part.requestTaken_keepsOffEvents (onFetch : Bool) : (p.requestTaken onFetch).KeepsOffEvents p := by
  unfold Part.requestTaken; (repeat' split) <;> simp [Part.KeepsOffEvents]
@[simp] theorem Part.takenValue_keepsOffEvents (t : Word) (onFetch : Bool) : (p.takenValue t onFetch).KeepsOffEvents p := by
  unfold Part.takenValue; dsimp only; (repeat' split) <;> simp [Part.KeepsOffEvents]
@[simp] theorem Part.takenLost_keepsOffEvents : (p.takenLost).KeepsOffEvents p := by
  simp [Part.takenLost, Part.KeepsOffEvents]
@[simp] theorem Part.takeEvent_keepsOffEvents (i : NodeIx) (f : Frame) : (p.takeEvent i f).KeepsOffEvents p := by
  simp [Part.takeEvent, Part.KeepsOffEvents]
@[simp] theorem Part.fetchReply_keepsOffEvents (i : NodeIx) (f : Frame) : (p.fetchReply i f).KeepsOffEvents p := by
  unfold Part.fetchReply; dsimp only; (repeat' split) <;> simp [Part.KeepsOffEvents]
@[simp] theorem Part.statusStep_keepsOffEvents (k : Fin 4) : (p.statusStep k).KeepsOffEvents p := by
  unfold Part.statusStep; dsimp only; (repeat' split) <;> simp [Part.KeepsOffEvents]
@[simp] theorem Part.restoreAccepted_keepsOffEvents : (p.restoreAccepted).KeepsOffEvents p := by
  unfold Part.restoreAccepted; (repeat' split) <;> simp [Part.KeepsOffEvents]
@[simp] theorem Part.sighting_keepsOffEvents (address : Byte) (origin : StrayOrigin) (kind : Byte) :
    (p.sighting address origin kind).KeepsOffEvents p := by
  unfold Part.sighting; dsimp only; (repeat' split) <;> simp [Part.KeepsOffEvents]

/-- The steps of a commit check up to its judgement change the loader, the fault unit and the request list only. -/
abbrev Part.KeepsOffLoader (q p : Part) : Prop :=
  q.ladder = p.ladder ∧ q.sched = p.sched ∧ q.frames = p.frames ∧ q.table = p.table ∧ q.images = p.images ∧
    q.windows = p.windows ∧ q.events = p.events ∧ q.parcels = p.parcels ∧ q.parked = p.parked

theorem Part.KeepsOffLoader.rfl {p : Part} : p.KeepsOffLoader p := by simp [Part.KeepsOffLoader]

theorem Part.KeepsOffLoader.trans {p q r : Part} (h : r.KeepsOffLoader q) (k : q.KeepsOffLoader p) : r.KeepsOffLoader p := by
  simp_all [Part.KeepsOffLoader]

@[simp] theorem Part.checkAt_keepsOffLoader (c : Check) : (p.checkAt c).KeepsOffLoader p := by
  unfold Part.checkAt; (repeat' split) <;> simp [Part.KeepsOffLoader]
@[simp] theorem Part.beginCheck_keepsOffLoader (origin : CheckFrom) : (p.beginCheck origin).KeepsOffLoader p := by
  simp [Part.beginCheck, Part.KeepsOffLoader]
@[simp] theorem Part.refuseCommit_keepsOffLoader (c : Check) (v : Verdict) : (p.refuseCommit c v).KeepsOffLoader p := by
  simp [Part.refuseCommit, Part.KeepsOffLoader]
@[simp] theorem Part.reportRefused_keepsOffLoader : (p.reportRefused).KeepsOffLoader p := by
  simp [Part.reportRefused, Part.KeepsOffLoader]
@[simp] theorem Part.verdictFailed_keepsOffLoader : (p.verdictFailed).KeepsOffLoader p := by
  unfold Part.verdictFailed; (repeat' split) <;> simp [Part.KeepsOffLoader]
@[simp] theorem Part.settleCheck_keepsOffLoader : (p.settleCheck).KeepsOffLoader p := by
  unfold Part.settleCheck; (repeat' split) <;> simp [Part.KeepsOffLoader]

/-- Snapshots and their triggers change the fault unit and the request list only. -/
abbrev Part.KeepsOffFaults (q p : Part) : Prop :=
  q.ladder = p.ladder ∧ q.sched = p.sched ∧ q.frames = p.frames ∧ q.table = p.table ∧ q.images = p.images ∧
    q.windows = p.windows ∧ q.events = p.events ∧ q.parcels = p.parcels ∧ q.loader = p.loader ∧ q.parked = p.parked

theorem Part.KeepsOffFaults.rfl {p : Part} : p.KeepsOffFaults p := by simp [Part.KeepsOffFaults]

theorem Part.KeepsOffFaults.trans {p q r : Part} (h : r.KeepsOffFaults q) (k : q.KeepsOffFaults p) : r.KeepsOffFaults p := by
  simp_all [Part.KeepsOffFaults]

@[simp] theorem Part.snapshotAt_keepsOffFaults (s : Snapshot) : (p.snapshotAt s).KeepsOffFaults p := by
  simp [Part.snapshotAt, Part.KeepsOffFaults]
@[simp] theorem Part.beginSnapshot_keepsOffFaults : (p.beginSnapshot).KeepsOffFaults p := by
  simp [Part.beginSnapshot, Part.KeepsOffFaults]
@[simp] theorem Part.endSnapshot_keepsOffFaults : (p.endSnapshot).KeepsOffFaults p := by
  unfold Part.endSnapshot; dsimp only; (repeat' split) <;> simp [Part.KeepsOffFaults]
@[simp] theorem Part.continueSnapshot_keepsOffFaults : (p.continueSnapshot).KeepsOffFaults p := by
  unfold Part.continueSnapshot; (repeat' split) <;> simp [Part.KeepsOffFaults]
@[simp] theorem Part.triggerSnapshot_keepsOffFaults : (p.triggerSnapshot).KeepsOffFaults p := by
  unfold Part.triggerSnapshot; (repeat' split) <;> simp [Part.KeepsOffFaults]
@[simp] theorem Part.settleSnapshot_keepsOffFaults : (p.settleSnapshot).KeepsOffFaults p := by
  unfold Part.settleSnapshot; (repeat' split) <;> simp [Part.KeepsOffFaults]
@[simp] theorem Part.periodExpired_keepsOffFaults : (p.periodExpired).KeepsOffFaults p := by
  simp [Part.periodExpired, Part.KeepsOffFaults]
@[simp] theorem Part.statAskRead_keepsOffFaults (w : Word) : (p.statAskRead w).KeepsOffFaults p := by
  simp [Part.statAskRead, Part.KeepsOffFaults]
@[simp] theorem Part.statAskFailed_keepsOffFaults : (p.statAskFailed).KeepsOffFaults p := by
  simp [Part.statAskFailed, Part.KeepsOffFaults]
@[simp] theorem Part.cutSnapshot_keepsOffFaults : (p.cutSnapshot).KeepsOffFaults p := by
  simp [Part.cutSnapshot, Part.KeepsOffFaults]
@[simp] theorem Part.statOpen_keepsOffFaults : (p.statOpen).KeepsOffFaults p := by
  simp [Part.statOpen, Part.KeepsOffFaults]

end Sys2Proof.Machine
end

section
/-!
SUPPORT. The line scheduler's rest outside RUN (R26, R28, R41): only the ladder's own moves and the work of RUN touch its state, its
timer and its overrun latch.
-/
namespace Sys2Proof.Machine

variable (p : Part)

/-- What a node table's operations on one record leave alone of the other blocks. -/
abbrev Part.KeepsOffNodes (q p : Part) : Prop :=
  q.ladder = p.ladder ∧ q.sched = p.sched ∧ q.windows = p.windows ∧ q.loader = p.loader ∧
    q.frames.state = p.frames.state ∧ q.frames.exchange = p.frames.exchange ∧ q.parked = p.parked

theorem Part.KeepsOffNodes.rfl {p : Part} : p.KeepsOffNodes p := by simp [Part.KeepsOffNodes]

theorem Part.KeepsOffNodes.trans {p q r : Part} (h : r.KeepsOffNodes q) (k : q.KeepsOffNodes p) : r.KeepsOffNodes p := by
  simp_all [Part.KeepsOffNodes]

@[simp] theorem Part.moveNode_keepsOffNodes (i : NodeIx) (f : NodeRecord → NodeRecord) (new : NodeState) :
    (p.moveNode i f new).KeepsOffNodes p := by
  unfold Part.moveNode; dsimp only; (repeat' split) <;> simp [Part.KeepsOffNodes]
@[simp] theorem Part.changeState_keepsOffNodes (i : NodeIx) (f : NodeRecord → NodeRecord) (new : NodeState) :
    (p.changeState i f new).KeepsOffNodes p := by
  unfold Part.changeState; (repeat' split) <;> simp [Part.KeepsOffNodes]
@[simp] theorem Part.setLastGood_keepsOffNodes (i : NodeIx) : (p.setLastGood i).KeepsOffNodes p := by
  simp [Part.setLastGood, Part.KeepsOffNodes]
@[simp] theorem Part.goodAnswer_keepsOffNodes (i : NodeIx) (f : NodeRecord → NodeRecord) :
    (p.goodAnswer i f).KeepsOffNodes p := by
  unfold Part.goodAnswer; dsimp only; split <;> simp [Part.KeepsOffNodes]
@[simp] theorem Part.indicate_windows (i : NodeIx) (origin : LatchOrigin) : (p.indicate i origin).windows = p.windows := by
  unfold Part.indicate; (repeat' split) <;> simp
@[simp] theorem Part.goodData_keepsOffNodes (i : NodeIx) (f : Frame) : (p.goodData i f).KeepsOffNodes p := by
  unfold Part.goodData; dsimp only; (repeat' split) <;> simp [Part.KeepsOffNodes]
@[simp] theorem Part.goodIdent_keepsOffNodes (i : NodeIx) (f : Frame) : (p.goodIdent i f).KeepsOffNodes p := by
  unfold Part.goodIdent; dsimp only; split <;> simp [Part.KeepsOffNodes]
@[simp] theorem Part.miss_keepsOffNodes (i : NodeIx) : (p.miss i).KeepsOffNodes p := by
  unfold Part.miss; dsimp only; (repeat' split) <;> simp [Part.KeepsOffNodes]
@[simp] theorem Part.goodEvent_keepsOffNodes (i : NodeIx) : (p.goodEvent i).KeepsOffNodes p := by
  unfold Part.goodEvent; split <;> simp [Part.KeepsOffNodes]
@[simp] theorem Part.nodeBid_keepsOffNodes (i : NodeIx) (reason : Byte) : (p.nodeBid i reason).KeepsOffNodes p := by
  unfold Part.nodeBid; (repeat' split) <;> simp [Part.KeepsOffNodes]
@[simp] theorem Part.nodeAlert_keepsOffNodes (i : NodeIx) : (p.nodeAlert i).KeepsOffNodes p := by
  unfold Part.nodeAlert; split <;> simp [Part.KeepsOffNodes]
@[simp] theorem Part.lossBefore_keepsOffNodes (i : NodeIx) (new : NodeEntry) (size : Nat) :
    (p.lossBefore i new size).KeepsOffNodes p := by
  unfold Part.lossBefore; dsimp only; split <;> simp [Part.KeepsOffNodes]
@[simp] theorem Part.lossAfter_keepsOffNodes (i : NodeIx) (new : NodeEntry) (size : Nat) :
    (p.lossAfter i new size).KeepsOffNodes p := by
  unfold Part.lossAfter; dsimp only; split <;> simp [Part.KeepsOffNodes]
@[simp] theorem Part.commitNode_keepsOffNodes (i : NodeIx) (new : NodeEntry) : (p.commitNode i new).KeepsOffNodes p := by
  unfold Part.commitNode; dsimp only; (repeat' split) <;> simp [Part.KeepsOffNodes]
@[simp] theorem Part.nodeCommit_keepsOffNodes (new : Vector NodeEntry 48) (size : Nat) :
    (p.nodeCommit new size).KeepsOffNodes p := by
  have hfold (f : Part → NodeIx → Part) (hf : ∀ q i, (f q i).KeepsOffNodes q) (q : Part) :
      (allNodes.foldl f q).KeepsOffNodes q :=
    foldl_relates Part.KeepsOffNodes .rfl (fun h k => h.trans k) f hf allNodes q
  unfold Part.nodeCommit
  exact ((hfold _ (fun q i => q.commitNode_keepsOffNodes i _) _).trans
    (hfold _ (fun q i => q.lossAfter_keepsOffNodes i _ _) _)).trans (hfold _ (fun q i => q.lossBefore_keepsOffNodes i _ _) _)

/-! ## The scheduler's state, timer and latch -/

/-- `q` has the ladder state of `p`, and its scheduler's state, timer and overrun latch. -/
abbrev Part.KeepsClock (q p : Part) : Prop :=
  q.ladder.state = p.ladder.state ∧ q.sched.state = p.sched.state ∧ q.sched.timer = p.sched.timer ∧
    q.sched.overrun = p.sched.overrun

theorem Part.KeepsClock.rfl {p : Part} : p.KeepsClock p := by simp [Part.KeepsClock]

theorem Part.KeepsClock.trans {p q r : Part} (h : r.KeepsClock q) (k : q.KeepsClock p) : r.KeepsClock p := by
  simp_all [Part.KeepsClock]

@[simp] theorem Part.outputTake_keepsClock (w : Word) : (p.outputTake w).KeepsClock p := by
  unfold Part.outputTake; dsimp only; (repeat' split) <;> simp [Part.KeepsClock]
@[simp] theorem Part.pollAttempt_keepsClock (i : NodeIx) : (p.pollAttempt i).KeepsClock p := by
  unfold Part.pollAttempt; dsimp only; (repeat' split) <;> simp [Part.KeepsClock, Part.issueSlice]
@[simp] theorem Part.continueSlice_keepsClock (w : Word) : (p.continueSlice w).KeepsClock p := by
  unfold Part.continueSlice; dsimp only; (repeat' split) <;> simp [Part.KeepsClock]
@[simp] theorem Part.sliceFailed_keepsClock : p.sliceFailed.KeepsClock p := by
  unfold Part.sliceFailed; split <;> simp [Part.KeepsClock]
@[simp] theorem Part.nodeOpen_keepsClock (exempt : NodeIx → Bool) : (p.nodeOpen exempt).KeepsClock p := by
  simp [Part.nodeOpen, Part.KeepsClock]
@[simp] theorem Part.checkEnd_keepsClock (origin : CheckFrom) : (p.checkEnd origin).KeepsClock p := by
  unfold Part.checkEnd; dsimp only; (repeat' split) <;> simp [Part.KeepsClock]
@[simp] theorem Part.windowCommit_keepsClock (initial : Nat) : (p.windowCommit initial).KeepsClock p := by
  simp [Part.windowCommit, Part.KeepsClock]
@[simp] theorem Part.acceptCommit_keepsClock (d : Directory) (c : Check) (v : Verdict) :
    (p.acceptCommit d c v).KeepsClock p := by
  have hfold (q : Part) : (allNodes.foldl (fun p i => p.queueStatus i false) q).KeepsOffStatus q :=
    foldl_relates Part.KeepsOffStatus .rfl (fun h k => h.trans k) _ (fun q i => q.queueStatus_keepsOffStatus i _) _ _
  unfold Part.acceptCommit; dsimp only; split <;> simp [Part.KeepsClock, hfold]
@[simp] theorem Part.judgeCopy_keepsClock (c : Check) : (p.judgeCopy c).KeepsClock p := by
  unfold Part.judgeCopy; dsimp only; (repeat' split) <;> simp [Part.KeepsClock]
@[simp] theorem Part.judgeKept_keepsClock : p.judgeKept.KeepsClock p := by
  unfold Part.judgeKept; (repeat' split) <;> simp [Part.KeepsClock]
@[simp] theorem Part.generationRead_keepsClock (c : Check) (g : Word) : (p.generationRead c g).KeepsClock p := by
  unfold Part.generationRead; dsimp only; (repeat' split) <;> simp [Part.KeepsClock]
@[simp] theorem Part.copyRead_keepsClock (c : Check) : (p.copyRead c).KeepsClock p := by
  unfold Part.copyRead; split <;> simp [Part.KeepsClock]
@[simp] theorem Part.continueCheck_keepsClock (w : Word) : (p.continueCheck w).KeepsClock p := by
  unfold Part.continueCheck; dsimp only; (repeat' split) <;> simp [Part.KeepsClock]
@[simp] theorem Part.checkFailed_keepsClock : p.checkFailed.KeepsClock p := by
  unfold Part.checkFailed; (repeat' split) <;> simp [Part.KeepsClock]
@[simp] theorem Part.takeAlert_keepsClock (address : Byte) : (p.takeAlert address).KeepsClock p := by
  unfold Part.takeAlert; dsimp only; split <;> simp [Part.KeepsClock]
@[simp] theorem Part.unsolicitedFrame_keepsClock (frame : Option Frame) : (p.unsolicitedFrame frame).KeepsClock p := by
  unfold Part.unsolicitedFrame; (repeat' split) <;> simp [Part.KeepsClock]
@[simp] theorem Part.unsolicitedItems_keepsClock (items : List LineItem) : (p.unsolicitedItems items).KeepsClock p := by
  unfold Part.unsolicitedItems
  exact foldl_relates Part.KeepsClock .rfl (fun h k => h.trans k) _ (fun q f => q.unsolicitedFrame_keepsClock f) _ _
@[simp] theorem Part.lineActivity_keepsClock : p.lineActivity.KeepsClock p := by
  unfold Part.lineActivity; split <;> simp [Part.KeepsClock]
@[simp] theorem Part.carrier_keepsClock (items : List LineItem) : (p.carrier items).KeepsClock p := by
  unfold Part.carrier; (repeat' split) <;> simp [Part.KeepsClock]
@[simp] theorem Part.startupLoss_keepsClock (source : Source) : (p.startupLoss source).KeepsClock p := by
  unfold Part.startupLoss; split <;> simp [Part.KeepsClock]

/-! ## The rest outside RUN -/

/-- Outside RUN the scheduler is in STOPPED, its timer stopped and its latch clear (R26, R28, R41). -/
def Part.clockOk (p : Part) : Prop :=
  p.ladder.state ≠ .run → p.sched.state = .stopped ∧ p.sched.timer = none ∧ p.sched.overrun = false

variable {p} {q : Part}

theorem Part.clockOk_of_run (h : p.ladder.state = .run) : p.clockOk := fun hne => absurd h hne

theorem Part.KeepsClock.clockOk (h : q.KeepsClock p) (hp : p.clockOk) : q.clockOk := by
  obtain ⟨hladder, hstate, htimer, hoverrun⟩ := h
  unfold Part.clockOk
  rwa [hladder, hstate, htimer, hoverrun]

/-- An operation that leaves the scheduler alone, taken outside RUN. -/
theorem Part.clockOk_of_sched (h : q.sched = p.sched) (hrun : p.ladder.state ≠ .run) (hp : p.clockOk) : q.clockOk := by
  intro _
  rw [h]
  exact hp hrun

/-- As above, of an operation that leaves the scheduler's state, timer and latch alone. -/
theorem Part.Keeps.clockOk (h : q.Keeps p) (hrun : p.ladder.state ≠ .run) (hp : p.clockOk) : q.clockOk := by
  obtain ⟨-, -, -, hstate, -, htimer, hoverrun, -⟩ := h
  intro _
  rw [hstate, htimer, hoverrun]
  exact hp hrun

variable (p)

@[simp] theorem Part.enterHeld_clockOk (named : Bool) : (p.enterHeld named).clockOk := fun _ => ⟨rfl, rfl, rfl⟩
@[simp] theorem Part.enterRun_clockOk : p.enterRun.clockOk := Part.clockOk_of_run (by simp)

theorem Part.writeState_clockOk (hp : p.clockOk) (state : LadderState) : (p.writeState state).clockOk := hp
theorem Part.leaveRun_clockOk (named : Bool) : (p.leaveRun named).clockOk := (p.enterHeld named).writeState_clockOk (by simp) _

theorem Part.enterResting_clockOk (hrun : p.ladder.state ≠ .run) (hp : p.clockOk) : p.enterResting.clockOk :=
  Part.clockOk_of_sched (p := p) rfl hrun hp

theorem Part.rouseExpired_clockOk : p.rouseExpired.clockOk := by
  have hresume (q : Part) : q.resumeParcels.KeepsClock q := by simp [Part.KeepsClock]
  have hheld := Part.writeState_clockOk _ (Part.enterHeld_clockOk (p.modLadder fun l => { l with rouse := none }) true) .held
  exact (Part.judgeKept_keepsClock _).clockOk ((hresume _).clockOk hheld)

theorem Part.enterStarting_clockOk (hrun : p.ladder.state ≠ .run) (hp : p.clockOk) (area : Word) (r : Request) :
    (p.enterStarting area r).clockOk := by
  refine Part.clockOk_of_sched ?_ hrun hp
  unfold Part.enterStarting
  dsimp only
  split <;> simp [Part.startupFail, Part.startupRead, Part.resetWorkingUnits]

/-! ## What becomes of a request that is taken (Table 9-3) -/

/-- The part after a request taken: by Table 9-3 the request leads on, is skipped, changes nothing, or stays pending. -/
inductive Taken (p : Part) (area : Word) : Request → Part → Prop where
  | starts {r : Request} (idle : p.ladder.state = .idle) : Taken p area r (p.emptySlot.enterStarting area r)
  | skips {r : Request} : Taken p area r (p.emptySlot.skipRequest r)
  | consumed {r : Request} : Taken p area r p.emptySlot
  | kept {r : Request} : Taken p area r (p.emptySlot.keepPending r)
  | runs (held : p.ladder.state = .held) : Taken p area .run (p.emptySlot.writeState .run).enterRun
  | rests (held : p.ladder.state = .held) : Taken p area .rest (p.emptySlot.giveBroadcast .rest .rest)
  | rouses (resting : p.ladder.state = .resting) : Taken p area .hold p.emptySlot.enterRousing
  | stills (resting : p.ladder.state = .resting) : Taken p area .still p.emptySlot.beginStill
  | settles (still : p.ladder.state = .still) : Taken p area .rest p.emptySlot.enterSettling

theorem Part.takeRequest_taken (area : Word) (r : Request) : Taken p area r (p.takeRequest area r) := by
  have hstate : p.emptySlot.ladder.state = p.ladder.state := rfl
  unfold Part.takeRequest
  dsimp only
  rw [hstate]
  cases hl : p.ladder.state <;> cases r
  case held.run =>
    dsimp only
    split
    · exact .kept
    · exact .runs hl
  case idle.run | idle.hold => exact .starts hl
  case held.hold | resting.rest => exact .consumed
  case held.rest => exact .rests hl
  case resting.hold => exact .rouses hl
  case resting.still => exact .stills hl
  case still.rest => exact .settles hl
  case idle.rest | idle.still | held.still | resting.run | still.run | still.hold | still.still => exact .skips
  all_goals exact .kept

/-- A pending request stays, or is taken where requests are taken (R147). -/
theorem Part.takePending_cases (area : Word) :
    p.takePending area = p ∨
      ∃ r, p.ladder.pending = some r ∧ p.takesAtOnce = true ∧ Taken p area r (p.takePending area) := by
  unfold Part.takePending
  split
  next r hr =>
    split
    next htakes => exact .inr ⟨r, hr, htakes, p.takeRequest_taken area r⟩
    next => exact .inl rfl
  next => exact .inl rfl

/-- A request written waits, or is taken where requests are taken (R147). -/
theorem Part.requestWritten_cases (area : Word) (r : Request) :
    p.requestWritten area r = p.keepPending r ∨
      p.takesAtOnce = true ∧ Taken p area r (p.requestWritten area r) := by
  unfold Part.requestWritten
  split
  next htakes => exact .inr ⟨htakes, p.takeRequest_taken area r⟩
  next => exact .inl rfl

variable {p}

theorem Taken.clockOk {area : Word} {r : Request} (h : Taken p area r q) (hp : p.clockOk) : q.clockOk := by
  have hempty : p.emptySlot.clockOk := hp
  cases h with
  | starts idle => exact p.emptySlot.enterStarting_clockOk (by rw [show p.emptySlot.ladder.state = .idle from idle]; decide) hempty _ _
  | runs held => simp
  | skips => exact (show Part.KeepsClock _ _ by simp [Part.KeepsClock, Part.skipRequest, Part.emptySlot]).clockOk hp
  | rouses resting => exact Part.clockOk_of_sched (by simp [Part.enterRousing, Part.emptySlot, Part.writeState]) (by simp [resting]) hp
  | settles still => exact Part.clockOk_of_sched (p := p) rfl (by simp [still]) hp
  | _ => exact hp

variable (p)

theorem Part.takePending_clockOk (hp : p.clockOk) (area : Word) : (p.takePending area).clockOk := by
  rcases p.takePending_cases area with h | ⟨r, -, -, h⟩
  · rwa [h]
  · exact h.clockOk hp

theorem Part.requestWritten_clockOk (hp : p.clockOk) (area : Word) (r : Request) : (p.requestWritten area r).clockOk := by
  rcases p.requestWritten_cases area r with h | ⟨-, h⟩
  · rw [h]
    exact hp
  · exact h.clockOk hp

/-! ## The rest outside RUN along every operation -/

/-- The ladder state read off a lemma about the whole ladder controller. -/
theorem Part.clockOk_of_ladder {p q : Part} (h : q.ladder = p.ladder) (hrun : p.ladder.state = .run) : q.clockOk :=
  Part.clockOk_of_run (by rw [h, hrun])

theorem Part.serviceOutcome_clockOk (hservice : p.ladder.state = .heldService) (hp : p.clockOk) (ex : Exchange)
    (reply : Option Frame) : (p.serviceOutcome ex reply).clockOk := by
  have hrun : p.ladder.state ≠ .run := by rw [hservice]; decide
  unfold Part.serviceOutcome
  split
  next i ack f =>
    have hgood : (p.fetchGood i ack f).sched = p.sched := by simp [Part.fetchGood]
    exact (Part.serviceNext_keeps _).clockOk (by simp [hservice]) (Part.clockOk_of_sched hgood hrun hp)
  next i _ =>
    split
    · exact (Part.serviceNext_keeps _).clockOk (by simp [hservice]) (Part.clockOk_of_sched (by simp) hrun hp)
    · exact (Part.giveFetch_keeps _ _).clockOk hrun hp
  all_goals exact hp

theorem Part.serviceAfterRead_clockOk (hservice : p.ladder.state = .heldService) (hp : p.clockOk) :
    p.serviceAfterRead.clockOk := by
  have hrun : p.ladder.state ≠ .run := by rw [hservice]; decide
  unfold Part.serviceAfterRead
  dsimp only
  split
  · split
    · exact (Part.serveNode_keeps _ _).clockOk hrun hp
    · exact (Part.endService_keeps _).clockOk hrun hp
  · exact (Part.serviceNext_keeps _).clockOk hrun hp

theorem Part.returnOutcome_clockOk (hp : p.clockOk) : p.returnOutcome.clockOk := by
  unfold Part.returnOutcome
  split
  · exact hp
  next ex _ =>
    dsimp only
    split
    next hrun => exact Part.clockOk_of_ladder (by simp) hrun
    next hservice => exact Part.serviceOutcome_clockOk _ hservice hp _ _
    all_goals exact hp

theorem Part.afterTaken_clockOk (hp : p.clockOk) : p.afterTaken.clockOk := by
  unfold Part.afterTaken
  split
  next hrun =>
    split
    · exact Part.clockOk_of_ladder (by simp) hrun
    · exact hp
  next hservice =>
    split
    · exact p.serviceAfterRead_clockOk hservice hp
    · exact hp
  all_goals exact hp

theorem Part.takenEnded_clockOk (hp : p.clockOk) (w : Word) : (p.takenEnded w).clockOk := by
  unfold Part.takenEnded
  split
  next r _ =>
    have hvalue : (p.takenValue w r.onFetch).clockOk := Part.KeepsClock.clockOk (by simp [Part.KeepsClock]) hp
    have hafter := Part.afterTaken_clockOk _ hvalue
    dsimp only
    split
    · exact Part.KeepsClock.clockOk (by simp [Part.KeepsClock]) hafter
    · exact hafter
  · exact hp

theorem Part.startupDone_clockOk (w : Word) : (p.startupDone w).clockOk := by
  unfold Part.startupDone
  dsimp only
  split <;> simp

@[simp] theorem Part.startupRead_sched (u : Startup) (pos : StartPos) (offset : Nat) :
    (p.startupRead u pos offset).sched = p.sched := rfl
@[simp] theorem Part.startupWrite_sched (u : Startup) (pos : StartPos) (offset : Nat) (w : Word) :
    (p.startupWrite u pos offset w).sched = p.sched := rfl
@[simp] theorem Part.sweepNext_sched (u : Startup) (slot : SlotIx) : (p.sweepNext u slot).sched = p.sched := by
  unfold Part.sweepNext; (repeat' split) <;> rfl
@[simp] theorem Part.keepStatusWord_sched (u : Startup) (i : NodeIx) (k : Nat) (w : Word) :
    (p.keepStatusWord u i k w).1.sched = p.sched := by
  unfold Part.keepStatusWord; (repeat' split) <;> rfl

theorem Part.startupStep_clockOk (hstart : p.ladder.state = .starting) (hp : p.clockOk) (w : Word) :
    (p.startupStep w).clockOk := by
  have hrun : p.ladder.state ≠ .run := by rw [hstart]; decide
  unfold Part.startupStep
  split
  · exact hp
  next u _ =>
    split
    case h_2 =>
      split
      · exact hp
      · exact Part.clockOk_of_sched (by simp [Part.startupFail]) hrun hp
    case h_14 => exact p.startupDone_clockOk w
    all_goals
      refine Part.clockOk_of_sched ?_ hrun hp
      (repeat' split) <;> simp

theorem Part.closeComplete_clockOk (hp : p.clockOk) : p.closeComplete.clockOk := by
  unfold Part.closeComplete
  split
  next hrun =>
    split
    · exact Part.leaveRun_clockOk _ _
    · refine Part.clockOk_of_run ?_
      have hjudge : p.judgeInRun.ladder.state = p.ladder.state := by
        unfold Part.judgeInRun
        (repeat' split) <;> simp [Part.skipRequest, Part.emptySlot]
      rw [Part.closeInRun_ladder, hjudge, hrun]
  next => exact hp

theorem Part.holdCheckStopped_clockOk (hp : p.clockOk) : p.holdCheckStopped.clockOk := by
  unfold Part.holdCheckStopped
  split
  · exact Part.leaveRun_clockOk _ _
  · exact hp

theorem Part.withdrawEnded_clockOk (hp : p.clockOk) (w : Word) : (p.withdrawEnded w).clockOk := by
  unfold Part.withdrawEnded Part.withdrawWaits
  split
  next h =>
    split at h
    next hrun => exact Part.clockOk_of_ladder (by simp) hrun
    next => cases h
  next => exact hp

theorem Part.stateWordEnded_clockOk (hp : p.clockOk) : p.stateWordEnded.clockOk := by
  unfold Part.stateWordEnded
  split
  next h =>
    have hrun : p.ladder.state ≠ .run := by
      intro hrun
      simp [hrun] at h
    exact Part.clockOk_of_sched (p := p) rfl hrun hp
  next => exact hp

theorem Part.accessDone_clockOk (hp : p.clockOk) (source : Source) (w : Word) : (p.accessDone source w).clockOk := by
  have keeps {q : Part} (h : q.KeepsClock p) : q.clockOk := h.clockOk hp
  cases source with
  | stateWord => exact p.stateWordEnded_clockOk hp
  | startup =>
    unfold Part.accessDone
    dsimp only
    split
    next hstart => exact p.startupStep_clockOk hstart hp w
    next => exact hp
  | cycleWord => exact p.closeComplete_clockOk hp
  | eventsTaken => exact p.takenEnded_clockOk hp w
  | withdraw => exact p.withdrawEnded_clockOk hp w
  | _ => exact keeps (by simp [Part.KeepsClock, Part.accessDone, Part.imageIsReady])

theorem Part.blockFailed_clockOk (hp : p.clockOk) (source : Source) : (p.blockFailed source).clockOk := by
  have keeps {q : Part} (h : q.KeepsClock p) : q.clockOk := h.clockOk hp
  cases source with
  | stateWord => exact p.stateWordEnded_clockOk hp
  | cycleWord => exact p.closeComplete_clockOk hp
  | eventsTaken => exact p.takenLost.afterTaken_clockOk hp
  | withdraw =>
    unfold Part.blockFailed Part.withdrawWaits
    dsimp only
    split
    next h =>
      split at h
      next hrun => exact Part.clockOk_of_ladder (by simp) hrun
      next => cases h
    next => exact hp
  | _ => exact keeps (by simp [Part.KeepsClock, Part.blockFailed, Part.imageIsReady])

theorem Part.accessFailed_clockOk (hp : p.clockOk) (a : Access) : (p.accessFailed a).clockOk := by
  have hreport : (p.report .memory (BitVec.ofNat 16 a.offset)).clockOk :=
    Part.KeepsClock.clockOk (by simp [Part.KeepsClock, Part.report_memory_ladder]) hp
  unfold Part.accessFailed
  dsimp only
  split
  next hstart =>
    refine Part.clockOk_of_sched (p := p.report .memory (BitVec.ofNat 16 a.offset)) ?_ (by rw [hstart]; decide) hreport
    unfold Part.startupLoss
    split <;> simp [Part.startupFail]
  next => exact Part.holdCheckStopped_clockOk _ (Part.blockFailed_clockOk _ hreport _)

theorem Part.settle_clockOk (hp : p.clockOk) : p.settle.clockOk := by
  by_cases hrun : p.ladder.state = .run
  · obtain ⟨hladder, -⟩ := p.settle_keepsLine (by rw [hrun]; decide) (by rw [hrun]; decide)
    exact Part.clockOk_of_ladder hladder hrun
  · exact p.settle_keeps.clockOk hrun hp

theorem Part.nudge_keepsClock : p.nudge.KeepsClock p := by
  unfold Part.nudge
  split <;> (try split) <;> simp [Part.KeepsClock]

theorem Part.passTime_clockOk (hp : p.clockOk) (dt : Nat) : (p.passTime dt).clockOk := by
  intro hrun
  obtain ⟨hstate, htimer, hoverrun⟩ := hp hrun
  exact ⟨hstate, by simp [htimer], hoverrun⟩

theorem Part.writeCause_clockOk (hp : p.clockOk) (area : Word) (v : Byte) : (p.writeCause area v).clockOk := by
  have hclear : (p.causeCleared v).clockOk := hp
  rw [Part.writeCause_eq]
  split
  · exact Part.takePending_clockOk _ hclear area
  · exact hclear

section
variable {c : Instr} {s : State}

theorem Plain.clockOk {f : Part → Part} (h : Plain c s f) (hs : s.part.clockOk) : (f s.part).clockOk := by
  cases h with
  | cause v => exact s.part.writeCause_clockOk hs _ _
  | _ => exact Part.KeepsClock.clockOk (by simp [Part.KeepsClock, Part.rouseFrameSent]) hs

theorem Acts.clockOk {f : Part → Part} (h : Acts c s f) (hs : s.part.clockOk) : (f s.part).clockOk := by
  have run {q : Part} (hrun : s.part.ladder.state = .run) (h : q.ladder = s.part.ladder) : q.clockOk :=
    Part.clockOk_of_ladder h hrun
  cases h with
  | request r nudge =>
    cases nudge with
    | false => exact s.part.requestWritten_clockOk hs _ _
    | true => exact s.part.nudge.requestWritten_clockOk (s.part.nudge_keepsClock.clockOk hs) _ _
  | nudge => exact s.part.nudge_keepsClock.clockOk hs
  | cause v => exact s.part.writeCause_clockOk hs _ _
  | cycleExpiry hrun => exact run hrun (by simp)
  | reprobe i hrun => exact run hrun (by simp)
  | patience slot hrun => exact run hrun (by simp)
  | period => exact hs
  | openReady dt ready =>
    by_cases hrun : s.part.ladder.state = .run
    · exact run hrun (by simp)
    · obtain ⟨hstopped, -⟩ := hs hrun
      simp [Part.openIsReady, hstopped] at ready
  | guardEnd dt => exact (s.part.passTime dt).returnOutcome_clockOk (s.part.passTime_clockOk hs dt)
  | slotEnd heard dt hrun => exact run hrun (by simp)
  | abandonSent dt slot hrun => exact run hrun (by simp)
  | holdSent =>
    refine Part.takePending_clockOk _ ?_ _
    split <;> exact hs
  | restSent held =>
    exact Part.takePending_clockOk _ (s.part.enterResting_clockOk (by rw [held]; decide) hs) _
  | heldQuiet => exact s.part.takePending_clockOk hs _
  | service allowed =>
    have hheld : s.part.ladder.state = .held := by
      simp only [Part.serviceAllowed, Bool.and_eq_true, beq_iff_eq] at allowed
      exact allowed.1.1.1.1.1.1
    exact (Part.serviceNext_keeps _).clockOk (by simp) (Part.clockOk_of_sched (p := s.part) rfl (by rw [hheld]; decide) hs)
  | rouse => exact s.part.rouseExpired_clockOk
  | settle settling =>
    have hsettled : (s.part.modLadder fun l => { l with settle := none }).clockOk := hs
    exact Part.takePending_clockOk _ (Part.enterResting_clockOk _ (by simp [settling]) hsettled) _
  | alert address => exact Part.KeepsClock.clockOk (by simp [Part.KeepsClock]) hs
  | unsolicited items => exact (s.part.carrier_keepsClock items).clockOk hs

theorem Ends.clockOk {x : Access} {f : Part → Part} (h : Ends x f) {p : Part} (hp : p.clockOk) : (f p).clockOk := by
  cases h with
  | done dt w => exact Part.accessDone_clockOk _ (p.passTime_clockOk hp dt) _ _
  | failed dt => exact Part.accessFailed_clockOk _ (p.passTime_clockOk hp dt) _

theorem State.act_clockOk {s : State} {f : Part → Part} (h : (f s.part).clockOk) : (s.act f).part.clockOk := by
  unfold Part.clockOk
  rw [State.act_ladder, State.act_sched]
  exact Part.settle_clockOk _ h

theorem Reaction.clockOk {q : Part} (h : Reaction c s q) (hs : s.part.clockOk) : q.clockOk := by
  cases h with
  | same => exact hs
  | reset => exact fun _ => ⟨rfl, rfl, rfl⟩
  | plain event => exact event.clockOk hs
  | acts event => exact State.act_clockOk (event.clockOk hs)
  | word x mem current ends => exact State.act_clockOk (ends.clockOk (p := (s.offList mem).part) hs)

end

/-- Settles O22: each operation of the blocks leads to RUN, or leaves the scheduler's rest as it is, or brings it about. -/
theorem schedulerStoppedOutsideRun : Obligations.SchedulerStoppedOutsideRun :=
  fun _ _ hs h => step_keeps (I := Part.clockOk) (fun h => (exec_reaction h).clockOk) hs h

end Sys2Proof.Machine
end

section
/-!
SUPPORT. The transitions of the ladder (Table 9-3): which state each operation of the blocks leads to, and what `settle` adds.
-/
namespace Sys2Proof.Machine

/-! ## The table -/

/-- The transitions of Table 9-3 that need no request kept pending. -/
def ladderTable : List (LadderState × LadderState) :=
  [(.idle, .starting), (.starting, .idle), (.starting, .run), (.starting, .held), (.run, .held), (.held, .run),
    (.held, .heldService), (.heldService, .held), (.held, .resting), (.resting, .rousing), (.rousing, .held),
    (.resting, .still), (.still, .settling), (.settling, .resting)]

/-- The transitions in which a request kept pending is taken at the rung just reached. -/
def ladderTablePending : List (LadderState × LadderState) := [(.held, .rousing), (.settling, .rousing)]

/-- From the ladder state `a`, with a request pending or not, one event leads to `b`. -/
def LadderLeads (pending : Prop) (a b : LadderState) : Prop :=
  b = a ∨ (a, b) ∈ ladderTable ∨ pending ∧ (a, b) ∈ ladderTablePending

theorem LadderLeads.same {pending : Prop} {a b : LadderState} (h : b = a) : LadderLeads pending a b := .inl h

theorem LadderLeads.table {pending : Prop} {a b : LadderState} (h : (a, b) ∈ ladderTable) : LadderLeads pending a b := .inr (.inl h)

/-- `settle` ends a start-up whose commit was refused, and a service whose wait is over. -/
def SettleLeads (a b : LadderState) : Prop := b = a ∨ (a, b) = (.starting, .idle) ∨ (a, b) = (.heldService, .held)

theorem LadderLeads.settle {pending : Prop} {a b c : LadderState} (h : LadderLeads pending a b) (k : SettleLeads b c) :
    LadderLeads pending a c := by
  rcases k with rfl | hk | hk
  · exact h
  all_goals
    cases hk
    rcases h with rfl | h | ⟨-, h⟩
    · exact .table (by decide)
    · revert h
      cases a <;> first | exact fun _ => .table (by decide) | exact fun _ => .same rfl | (intro h; exact absurd h (by decide))
    · revert h
      cases a <;> (intro h; exact absurd h (by decide))

variable (p : Part)

/-! ## What `settle` adds -/

theorem Part.settleStartup_leads : SettleLeads p.ladder.state p.settleStartup.ladder.state := by
  unfold Part.settleStartup
  split
  · split
    next h =>
      split
      · exact .inl rfl
      · exact .inr (.inl (by rw [h.1]; rfl))
    next => exact .inl rfl
  · exact .inl rfl

theorem Part.endService_ladderState : p.endService.ladder.state = .held := by
  unfold Part.endService
  dsimp only
  split <;> simp

theorem Part.serveNode_ladder (i : NodeIx) : (p.serveNode i).ladder = p.ladder := by simp [Part.serveNode]

theorem Part.serviceName_ladderState (i : NodeIx) : (p.serviceName i).ladder.state = p.ladder.state := by
  unfold Part.serviceName
  split <;> simp [Part.serveNode_ladder]

theorem Part.serviceNext_ladderState : p.serviceNext.ladder.state = p.ladder.state ∨ p.serviceNext.ladder.state = .held := by
  unfold Part.serviceNext
  dsimp only
  (repeat' split) <;>
    first
      | exact .inr (Part.endService_ladderState _)
      | exact .inl (Part.serviceName_ladderState _ _)
      | exact .inl rfl

theorem Part.settleService_leads : SettleLeads p.ladder.state p.settleService.ladder.state := by
  have service {q : Part} (hs : p.ladder.state = .heldService) (h : q.ladder.state = p.ladder.state ∨ q.ladder.state = .held) :
      SettleLeads p.ladder.state q.ladder.state := h.imp_right fun h => .inr (by rw [hs, h])
  unfold Part.settleService
  split
  next hs =>
    split
    · exact service hs.1 (.inr p.endService_ladderState)
    split
    · exact service hs.1 (Part.serviceNext_ladderState _)
    · exact .inl rfl
  next => exact .inl rfl

theorem Part.settle_leads : SettleLeads p.ladder.state p.settle.ladder.state := by
  have hbefore : p.settleNodeOpen.settleCheck.ladder = p.ladder := by simp
  have hstartup := p.settleNodeOpen.settleCheck.settleStartup_leads
  have hbetween : p.settleNodeOpen.settleCheck.settleStartup.settleParcelOpen.settleSnapshot.startAppend.ladder =
      p.settleNodeOpen.settleCheck.settleStartup.ladder := by simp
  have hservice := Part.settleService_leads p.settleNodeOpen.settleCheck.settleStartup.settleParcelOpen.settleSnapshot.startAppend
  rw [hbetween] at hservice
  rw [hbefore] at hstartup
  unfold Part.settle
  rcases hstartup with hsame | hfail | hheld
  · rwa [hsame] at hservice
  · obtain ⟨hstart, hidle⟩ := Prod.mk.inj hfail
    rw [hidle] at hservice
    rcases hservice with h | h | h
    · exact .inr (.inl (by rw [hstart, h]))
    · cases h
    · cases h
  · obtain ⟨hstart, hidle⟩ := Prod.mk.inj hheld
    rw [hidle] at hservice
    rcases hservice with h | h | h
    · exact .inr (.inr (by rw [hstart, h]))
    · cases h
    · cases h

/-! ## Requests taken -/

variable {p} {q : Part}

theorem Part.enterStarting_ladderState (area : Word) (r : Request) :
    (p.enterStarting area r).ladder.state = .starting ∨ (p.enterStarting area r).ladder.state = .idle := by
  unfold Part.enterStarting
  dsimp only
  split
  · exact .inl rfl
  · exact .inr rfl

/-- The transition of a request taken: one of the table, without the pending slot. -/
theorem Taken.leads {area : Word} {r : Request} (h : Taken p area r q) : LadderLeads False p.ladder.state q.ladder.state := by
  cases h with
  | starts idle =>
    rw [idle]
    rcases Part.enterStarting_ladderState (p := p.emptySlot) area r with h | h
    · exact .table (by rw [h]; decide)
    · exact .same h
  | skips => exact .same (by simp [Part.skipRequest, Part.emptySlot])
  | runs held => exact .table (by rw [held]; simp [ladderTable])
  | rests => exact .same (by simp [Part.emptySlot])
  | rouses resting => exact .table (by rw [resting]; simp [ladderTable, Part.enterRousing, Part.writeState])
  | settles still => exact .table (by rw [still]; simp [ladderTable, Part.enterSettling])
  | _ => exact .same rfl

/-- A request kept pending that is taken where requests are taken leads along the table, too. -/
theorem Part.takePending_leads (area : Word) :
    (p.takePending area).ladder.state = p.ladder.state ∨
      p.ladder.pending ≠ none ∧ LadderLeads False p.ladder.state (p.takePending area).ladder.state := by
  rcases p.takePending_cases area with h | ⟨r, hpending, -, h⟩
  · exact .inl (by rw [h])
  · exact .inr ⟨by simp [hpending], h.leads⟩

/-- In RESTING a request taken rouses the part, or leaves the ladder at rest. -/
theorem Taken.ofResting {area : Word} {r : Request} (h : Taken p area r q) (hrest : p.ladder.state = .resting) :
    q.ladder.state = .resting ∨ q.ladder.state = .rousing := by
  cases h with
  | rouses => exact .inr (by simp [Part.enterRousing, Part.writeState])
  | skips => exact .inl (by simpa [Part.skipRequest, Part.emptySlot] using hrest)
  | starts idle => exact absurd (hrest.symm.trans idle) (by decide)
  | runs held => exact absurd (hrest.symm.trans held) (by decide)
  | settles still => exact absurd (hrest.symm.trans still) (by decide)
  | _ => exact .inl hrest

theorem Part.takePending_ofResting (hrest : p.ladder.state = .resting) (area : Word) :
    (p.takePending area).ladder.state = .resting ∨
      p.ladder.pending ≠ none ∧ (p.takePending area).ladder.state = .rousing := by
  rcases p.takePending_cases area with h | ⟨r, hpending, -, h⟩
  · exact .inl (by rw [h, hrest])
  · exact (h.ofResting hrest).imp_right fun h => ⟨by simp [hpending], h⟩

theorem Part.requestWritten_leads (area : Word) (r : Request) :
    LadderLeads False p.ladder.state (p.requestWritten area r).ladder.state := by
  rcases p.requestWritten_cases area r with h | ⟨-, h⟩
  · exact .same (by rw [h]; rfl)
  · exact h.leads

/-! ## The operations of the blocks -/

variable (p)

theorem Part.enterHeld_ladderState (named : Bool) : (p.enterHeld named).ladder.state = .held := by simp [Part.enterHeld]

theorem Part.leaveRun_ladderState (named : Bool) : (p.leaveRun named).ladder.state = .held := by
  simp [Part.leaveRun, Part.enterHeld, Part.writeState]

theorem Part.enterResting_ladderState : p.enterResting.ladder.state = .resting := by
  simp [Part.enterResting, Part.writeState]

theorem Part.rouseExpired_ladderState : p.rouseExpired.ladder.state = .held := by
  unfold Part.rouseExpired
  rw [(Part.judgeKept_keepsClock _).1]
  simp [Part.enterHeld, Part.writeState]

theorem Part.judgeInRun_ladderState : p.judgeInRun.ladder.state = p.ladder.state := by
  unfold Part.judgeInRun
  (repeat' split) <;> simp [Part.skipRequest, Part.emptySlot]

theorem Part.startupDone_ladderState (w : Word) :
    (p.startupDone w).ladder.state = .run ∨ (p.startupDone w).ladder.state = .held := by
  unfold Part.startupDone
  dsimp only
  split
  · exact .inl (by simp)
  · exact .inr (Part.enterHeld_ladderState _ _)
  all_goals exact .inr (Part.enterHeld_ladderState _ _)

theorem Part.startupFail_ladderState : p.startupFail.ladder.state = .idle := rfl

@[simp] theorem Part.startupRead_ladderState (u : Startup) (pos : StartPos) (offset : Nat) :
    (p.startupRead u pos offset).ladder.state = p.ladder.state := rfl
@[simp] theorem Part.startupWrite_ladderState (u : Startup) (pos : StartPos) (offset : Nat) (w : Word) :
    (p.startupWrite u pos offset w).ladder.state = p.ladder.state := rfl
@[simp] theorem Part.sweepNext_ladderState (u : Startup) (slot : SlotIx) :
    (p.sweepNext u slot).ladder.state = p.ladder.state := by
  unfold Part.sweepNext; (repeat' split) <;> rfl
@[simp] theorem Part.keepStatusWord_ladderState (u : Startup) (i : NodeIx) (k : Nat) (w : Word) :
    (p.keepStatusWord u i k w).1.ladder.state = p.ladder.state := by
  unfold Part.keepStatusWord; (repeat' split) <;> rfl

/-- A word of the start-up leaves it going, ends it in RUN or HELD, or fails it. -/
theorem Part.startupStep_ladderState (w : Word) :
    (p.startupStep w).ladder.state = p.ladder.state ∨ (p.startupStep w).ladder.state = .idle ∨
      (p.startupStep w).ladder.state = .run ∨ (p.startupStep w).ladder.state = .held := by
  unfold Part.startupStep
  split
  · exact .inl rfl
  next u _ =>
    split
    case h_2 =>
      split
      · exact .inl rfl
      · exact .inr (.inl rfl)
    case h_14 => exact .inr (.inr (p.startupDone_ladderState w))
    all_goals
      refine .inl ?_
      (repeat' split) <;> simp

theorem Part.serviceOutcome_ladderState (hservice : p.ladder.state = .heldService) (ex : Exchange) (reply : Option Frame) :
    (p.serviceOutcome ex reply).ladder.state = .heldService ∨ (p.serviceOutcome ex reply).ladder.state = .held := by
  have next {q : Part} (h : q.ladder = p.ladder) :
      q.serviceNext.ladder.state = .heldService ∨ q.serviceNext.ladder.state = .held := by
    rw [← hservice, ← h]
    exact q.serviceNext_ladderState
  unfold Part.serviceOutcome
  split
  · exact next (by simp)
  · split
    · exact next (by simp)
    · exact .inl (by simpa using hservice)
  all_goals exact .inl hservice

theorem Part.serviceAfterRead_ladderState (hservice : p.ladder.state = .heldService) :
    p.serviceAfterRead.ladder.state = .heldService ∨ p.serviceAfterRead.ladder.state = .held := by
  unfold Part.serviceAfterRead
  dsimp only
  split
  · split
    · exact .inl (by rw [Part.serveNode_ladder]; exact hservice)
    · exact .inr (Part.endService_ladderState _)
  · exact (Part.serviceNext_ladderState _).imp_left fun h => h.trans hservice

/-- What the end of a service's exchange or read leads to. -/
theorem LadderLeads.service {pending : Prop} {a b : LadderState} (hservice : a = .heldService)
    (h : b = .heldService ∨ b = .held) : LadderLeads pending a b := by
  subst hservice
  rcases h with rfl | rfl
  · exact .same rfl
  · exact .table (by decide)

theorem Part.returnOutcome_leads : LadderLeads False p.ladder.state p.returnOutcome.ladder.state := by
  unfold Part.returnOutcome
  split
  · exact .same rfl
  next ex _ =>
    dsimp only
    split
    next => exact .same (by simp)
    next hservice => exact .service hservice (Part.serviceOutcome_ladderState _ hservice _ _)
    all_goals exact .same (by simp)

theorem Part.afterTaken_leads : LadderLeads False p.ladder.state p.afterTaken.ladder.state := by
  unfold Part.afterTaken
  split
  next => exact .same (by split <;> simp)
  next hservice =>
    split
    · exact .service hservice (Part.serviceAfterRead_ladderState _ hservice)
    · exact .same rfl
  all_goals exact .same rfl

theorem Part.takenEnded_leads (w : Word) : LadderLeads False p.ladder.state (p.takenEnded w).ladder.state := by
  unfold Part.takenEnded
  split
  next r _ =>
    have hafter := (p.takenValue w r.onFetch).afterTaken_leads
    rw [show (p.takenValue w r.onFetch).ladder = p.ladder by simp] at hafter
    dsimp only
    split
    · simpa using hafter
    · exact hafter
  · exact .same rfl

theorem Part.closeComplete_ladderState : p.closeComplete.ladder.state = p.ladder.state ∨
    p.ladder.state = .run ∧ p.closeComplete.ladder.state = .held := by
  unfold Part.closeComplete
  split
  next hrun =>
    split
    · exact .inr ⟨hrun, Part.leaveRun_ladderState _ _⟩
    · exact .inl (by rw [Part.closeInRun_ladder, p.judgeInRun_ladderState])
  next => exact .inl rfl

theorem Part.closeComplete_leads : LadderLeads False p.ladder.state p.closeComplete.ladder.state := by
  rcases p.closeComplete_ladderState with h | ⟨hrun, h⟩
  · exact .same h
  · exact .table (by rw [hrun, h]; decide)

theorem Part.stateWordEnded_leads : LadderLeads False p.ladder.state p.stateWordEnded.ladder.state := by
  unfold Part.stateWordEnded
  split
  next h =>
    have hrest : p.ladder.state = .resting := by
      simp only [Bool.and_eq_true, beq_iff_eq] at h
      exact h.1.1
    exact .table (by rw [hrest]; simp [Part.enterStill, ladderTable])
  next => exact .same rfl

theorem Part.withdrawEnded_ladderState (w : Word) : (p.withdrawEnded w).ladder.state = p.ladder.state := by
  unfold Part.withdrawEnded
  split <;> simp

theorem Part.accessDone_leads (source : Source) (w : Word) :
    LadderLeads False p.ladder.state (p.accessDone source w).ladder.state := by
  cases source with
  | stateWord => exact p.stateWordEnded_leads
  | startup =>
    unfold Part.accessDone
    dsimp only
    split
    next hstart =>
      rcases p.startupStep_ladderState w with h | h | h | h
      · exact .same h
      all_goals exact .table (by rw [hstart, h]; decide)
    next => exact .same rfl
  | cycleWord => exact p.closeComplete_leads
  | eventsTaken => exact p.takenEnded_leads w
  | withdraw => exact .same (p.withdrawEnded_ladderState w)
  | loader => exact .same (p.continueCheck_keepsClock w).1
  | _ => exact .same (by simp [Part.accessDone])

theorem Part.blockFailed_leads (source : Source) : LadderLeads False p.ladder.state (p.blockFailed source).ladder.state := by
  cases source with
  | stateWord => exact p.stateWordEnded_leads
  | cycleWord => exact p.closeComplete_leads
  | eventsTaken =>
    have hafter := p.takenLost.afterTaken_leads
    rwa [show p.takenLost.ladder = p.ladder by simp] at hafter
  | withdraw =>
    unfold Part.blockFailed
    dsimp only
    split <;> exact .same (by simp)
  | loader => exact .same p.checkFailed_keepsClock.1
  | _ => exact .same (by simp [Part.blockFailed])

/-- A fault met at a cycle's end leaves RUN, and does no more. -/
theorem Part.holdCheckStopped_ladderState : p.holdCheckStopped.ladder.state = p.ladder.state ∨
    p.ladder.state = .run ∧ p.holdCheckStopped.ladder.state = .held := by
  unfold Part.holdCheckStopped
  split
  next h => exact .inr ⟨h.1, Part.leaveRun_ladderState _ _⟩
  next => exact .inl rfl

/-- The table leads on from RUN to HELD, from wherever RUN is reached. -/
theorem LadderLeads.leaveRun {a b c : LadderState} (h : LadderLeads False a b) (k : c = b ∨ b = .run ∧ c = .held) :
    LadderLeads False a c := by
  rcases k with rfl | ⟨rfl, rfl⟩
  · exact h
  rcases h with rfl | h | ⟨h, -⟩
  · exact .table (by decide)
  · revert h
    cases a with
    | starting | held | run => exact fun _ => by first | exact .same rfl | exact .table (by decide)
    | _ => exact fun h => absurd h (by decide)
  · exact h.elim

theorem Part.accessFailed_leads (a : Access) : LadderLeads False p.ladder.state (p.accessFailed a).ladder.state := by
  have hreport : (p.report .memory (BitVec.ofNat 16 a.offset)).ladder.state = p.ladder.state := by
    simp [Part.report_memory_ladder]
  unfold Part.accessFailed
  dsimp only
  rw [← hreport]
  split
  next hstart => exact .table (by rw [hstart]; exact List.mem_of_elem_eq_true rfl)
  next => exact (Part.blockFailed_leads _ _).leaveRun (Part.holdCheckStopped_ladderState _)

section
variable {c : Instr} {s : State}

theorem LadderLeads.mono {pending : Prop} {a b : LadderState} (h : LadderLeads False a b) : LadderLeads pending a b :=
  h.imp_right (Or.imp_right fun h => h.1.elim)

/-- One event leads along the table; the request it may find pending is that of the state before. -/
def State.Leads (s : State) (q : Part) : Prop :=
  LadderLeads (s.part.ladder.pending ≠ none) s.part.ladder.state q.ladder.state

theorem State.leads_of_state {q : Part} (h : q.ladder.state = s.part.ladder.state) : s.Leads q := .same h

theorem State.takePending_leads {q : Part} (hstate : q.ladder.state = s.part.ladder.state) (area : Word) :
    s.Leads (q.takePending area) := by
  unfold State.Leads
  rw [← hstate]
  rcases q.takePending_leads area with h | ⟨-, h⟩
  · exact .same h
  · exact h.mono

/-- A change to RESTING, after which a request kept pending may be taken at once. -/
theorem State.leads_enterResting {q : Part} (hpending : q.ladder.pending = s.part.ladder.pending)
    (hfrom : s.part.ladder.state = .held ∨ s.part.ladder.state = .settling) (area : Word) :
    s.Leads (q.enterResting.takePending area) := by
  unfold State.Leads
  rcases Part.takePending_ofResting q.enterResting_ladderState area with h | ⟨hp, h⟩
  · rw [h]
    rcases hfrom with hfrom | hfrom <;> (rw [hfrom]; exact .table (by decide))
  · have hp : s.part.ladder.pending ≠ none := by
      rw [← hpending]
      simpa [Part.enterResting, Part.writeState] using hp
    rw [h]
    rcases hfrom with hfrom | hfrom <;> (rw [hfrom]; exact .inr (.inr ⟨hp, by decide⟩))

theorem State.writeCause_leads (area : Word) (v : Byte) : s.Leads (s.part.writeCause area v) := by
  rw [Part.writeCause_eq]
  split
  · exact State.takePending_leads (s := s) (q := s.part.causeCleared v) rfl area
  · exact .same rfl

theorem Plain.leads {f : Part → Part} (h : Plain c s f) : s.Leads (f s.part) := by
  cases h with
  | cause v => exact State.writeCause_leads _ _
  | activity => exact State.leads_of_state s.part.lineActivity_keepsClock.1
  | resetInStill | resetInSettling | resetWaitsForWord | rouseSent => exact .same rfl
  | _ => exact State.leads_of_state (by simp)

theorem Acts.leads {f : Part → Part} (h : Acts c s f) : s.Leads (f s.part) := by
  cases h with
  | request r nudge =>
    cases nudge with
    | false => exact (Part.requestWritten_leads (p := s.part) _ _).mono
    | true =>
      have hwritten := Part.requestWritten_leads (p := s.part.nudge) s.port.area r
      rw [s.part.nudge_keepsClock.1] at hwritten
      exact hwritten.mono
  | nudge => exact State.leads_of_state s.part.nudge_keepsClock.1
  | cause v => exact State.writeCause_leads _ _
  | guardEnd dt =>
    have hreturned := (s.part.passTime dt).returnOutcome_leads
    rw [show (s.part.passTime dt).ladder.state = s.part.ladder.state from rfl] at hreturned
    exact hreturned.mono
  | holdSent =>
    refine State.takePending_leads ?_ _
    split <;> simp
  | restSent held => exact State.leads_enterResting rfl (.inl held) _
  | heldQuiet => exact State.takePending_leads rfl _
  | service allowed =>
    have hheld : s.part.ladder.state = .held := by
      simp only [Part.serviceAllowed, Bool.and_eq_true, beq_iff_eq] at allowed
      exact allowed.1.1.1.1.1.1
    unfold State.Leads
    rw [hheld]
    rcases Part.serviceNext_ladderState _ with h | h
    · exact .table (by rw [Part.enterService, h]; simp [ladderTable])
    · exact .same h
  | rouse rousing => exact .table (by rw [rousing, s.part.rouseExpired_ladderState]; decide)
  | settle settling =>
    exact State.leads_enterResting (q := s.part.modLadder fun l => { l with settle := none }) rfl (.inr settling) _
  | unsolicited items => exact State.leads_of_state (s.part.carrier_keepsClock items).1
  | _ => exact State.leads_of_state (by simp)

theorem Ends.leads {x : Access} {f : Part → Part} (h : Ends x f) (p : Part) :
    LadderLeads False p.ladder.state (f p).ladder.state := by
  cases h with
  | done dt w => exact (p.passTime dt).accessDone_leads _ _
  | failed dt => exact (p.passTime dt).accessFailed_leads _

theorem State.act_leads {t : State} {f : Part → Part} (h : s.Leads (f t.part)) : s.Leads (t.act f).part := by
  unfold State.Leads
  rw [State.act_ladder]
  exact h.settle (Part.settle_leads _)

theorem Reaction.leads {q : Part} (h : Reaction c s q) :
    q.ladder.state = .idle ∧ q = { Part.reset with arb := s.part.arb } ∨ s.Leads q := by
  cases h with
  | same => exact .inr (.same rfl)
  | reset => exact .inl ⟨rfl, rfl⟩
  | plain event => exact .inr event.leads
  | acts event => exact .inr (State.act_leads event.leads)
  | word x mem current ends => exact .inr (State.act_leads (ends.leads (s.offList mem).part).mono)

end

/-- Settles O21: each event leads along Table 9-3, and `settle` adds at most a refused start-up's or a service's end to it. -/
theorem ladderTransitions : Obligations.LadderTransitions :=
  fun _ _ _ h hne => (exec_reaction h).leads.imp_right fun hleads => hleads.resolve_left hne

end Sys2Proof.Machine
end

section
/-!
SUPPORT. The register window and host memory: that every command answers, what the resets, the host's writes and its reads do, and what
one word access leaves in memory.
-/
namespace Sys2Proof.Machine

variable {c : Instr} {s t : State}

/-! ## Every command answers -/

theorem exec_answers (c : Instr) (s : State) : ∃ t, exec c s = .next t := by
  cases c with
  | softResetTakesEffect =>
    change ∃ t, execSoftResetTakesEffect s = .next t
    unfold execSoftResetTakesEffect
    split
    · exact ⟨_, rfl⟩
    · split <;> exact ⟨_, rfl⟩
  | portMisuse a =>
    change ∃ t, execPortMisuse a s = .next t
    unfold execPortMisuse
    split
    · exact ⟨_, rfl⟩
    · split <;> exact ⟨_, rfl⟩
  | abandonSent dt =>
    change ∃ t, execAbandonSent dt s = .next t
    unfold execAbandonSent
    split <;> exact ⟨_, rfl⟩
  | settleTimerExpiry =>
    change ∃ t, execSettleTimerExpiry s = .next t
    unfold execSettleTimerExpiry
    split <;> exact ⟨_, rfl⟩
  | _ => exact ⟨_, rfl⟩

theorem exec_pending (h : exec c s = .next t) : t.pending = s.pending := by
  cases exec_effect h with
  | blocks port mem pending => exact pending
  | word x host current mem pending => exact pending
  | full low command result => rw [result]; rfl
  | soft result => rw [result]; rfl
  | area value command idle result => rw [result]
  | mask value command result => rw [result]
  | view value command result => rw [result]
  | release command result => rw [result]

/-- Settles O1: the step takes the command off the queue and runs it on the rest. -/
theorem stepRunsFrontCommand : Obligations.StepRunsFrontCommand := fun _ _ _ => rfl

/-- Settles O2: every arm of the dispatch answers, and no effect of a command touches the queue. -/
theorem everyCommandAnswersNext : Obligations.EveryCommandAnswersNext := by
  intro c s
  obtain ⟨t, h⟩ := exec_answers c s
  exact ⟨t, h, exec_pending h⟩

/-! ## The resets -/

/-- Settles O4: the meaning of the full reset, field by field. -/
theorem fullResetTakesEveryBlock : Obligations.FullResetTakesEveryBlock := fun _ _ => rfl

/-- Settles O23: the reset values, evaluated. -/
theorem invariantsHoldAtReset : Obligations.InvariantsHoldAtReset := by
  refine ⟨rfl, by decide, rfl, rfl, rfl, RecordsLaw.reset, ?queue, ?places, ?parcels⟩
  case queue => exact ⟨List.nodup_nil, by decide⟩
  case places => exact ⟨by decide, by decide, by decide⟩
  case parcels => exact ⟨by decide, List.nodup_nil, by decide, by decide, by decide⟩

theorem State.fail_of_softPending {x : Access} (hx : s.current = some x) (hp : s.part.ladder.softPending = true) (dt : Nat) :
    s.fail dt = s.softReset := by
  simp only [State.fail, hx, hp, if_true]

/-- A soft reset that waits, with the word it waits for. -/
theorem exec_softResetTakesEffect_word {x : Access} (hw : s.part.ladder.resetWaiting = false)
    (hp : s.part.ladder.softPending = true) (hx : s.current = some x) :
    exec .softResetTakesEffect s = .next { s with mem := x.memAfter s.port.area none s.mem }.softReset := by
  have harm : exec .softResetTakesEffect s = execSoftResetTakesEffect s := rfl
  simp only [harm, execSoftResetTakesEffect, hw, hp, hx, State.complete_of_softPending hx hp, Bool.false_eq_true, if_false, if_true]

/-- A soft reset that waits, with no word in progress. -/
theorem exec_softResetTakesEffect_still (h : s.part.ladder.resetUnderWay = true)
    (hno : s.part.ladder.resetWaiting = true ∨ s.current = none) : exec .softResetTakesEffect s = .next s.softReset := by
  have harm : exec .softResetTakesEffect s = execSoftResetTakesEffect s := rfl
  rw [harm, execSoftResetTakesEffect]
  by_cases hw : s.part.ladder.resetWaiting = true
  · rw [if_pos hw]
  · have hp : s.part.ladder.softPending = true := by simpa [Ladder.resetUnderWay, hw] using h
    rw [if_neg hw, if_pos hp, hno.resolve_left hw]

/-- Settles O5: at the settle timer the reset leaves memory alone, and for a word it waits until the word is transferred or lost. -/
theorem softResetTakesEffect : Obligations.SoftResetTakesEffect := by
  refine ⟨fun s h => ?_, fun s x host dt hp hx =>
    ⟨⟨State.softReset { s with mem := x.memAfter s.port.area host s.mem }, ?_, rfl, rfl⟩, ⟨s.softReset, ?_, rfl, rfl⟩⟩⟩
  · by_cases hno : s.part.ladder.resetWaiting = true ∨ s.current = none
    · refine ⟨_, exec_softResetTakesEffect_still h hno, rfl, rfl, fun _ => rfl, fun x hw hx => ?_⟩
      rcases hno with hno | hno
      · rw [hw] at hno
        cases hno
      · rw [hno] at hx
        cases hx
    · obtain ⟨hw, hcurrent⟩ := not_or.mp hno
      have hw : s.part.ladder.resetWaiting = false := by simpa using hw
      have hp : s.part.ladder.softPending = true := by simpa [Ladder.resetUnderWay, hw] using h
      obtain ⟨x, hx⟩ := Option.ne_none_iff_exists'.mp hcurrent
      refine ⟨_, exec_softResetTakesEffect_word hw hp hx, rfl, rfl, fun h => absurd h hno, fun y _ hy => ?_⟩
      cases hx.symm.trans hy
      rfl
  · exact congrArg _ (State.complete_of_softPending hx hp host dt)
  · exact congrArg _ (State.fail_of_softPending hx hp dt)

/-! ## SOFT_RESET written (R175) -/

theorem softReset_request (v : Word) : (v ||| softResetBit).extractLsb' 0 3 = v.extractLsb' 0 3 := by
  rw [BitVec.extractLsb'_or, show softResetBit.extractLsb' 0 3 = 0#3 from rfl, BitVec.or_zero]

theorem softReset_bit (v : Word) : (v ||| softResetBit).getLsbD 31 = true := by
  rw [BitVec.getLsbD_or, show softResetBit.getLsbD 31 = true from rfl, Bool.or_true]

theorem exec_softReset (s : State) (v : Word) : exec (.softReset v) s = .next (s.writeControl (v ||| softResetBit)) := rfl

theorem exec_nudge (s : State) : exec .nudge s = .next (s.writeControl (controlBits 0 true)) := rfl

/-- RESET_N low leaves no write of CONTROL an effect. -/
theorem State.writeControl_of_resetLow (hpin : s.port.resetLow = true) (v : Word) : s.writeControl v = s := by
  rw [State.writeControl, if_pos hpin]

/-- Under a soft reset that has been written, no well-formed write of CONTROL has an effect. -/
theorem State.writeControl_of_resetUnderWay (h : s.part.ladder.resetUnderWay = true) {v : Word}
    (hv : (v.extractLsb' 0 3).toNat ≤ 4) : s.writeControl v = s := by
  have hcode : ¬ 5 ≤ (v.extractLsb' 0 3).toNat := by omega
  simp only [State.writeControl, if_neg hcode, if_pos h, ite_self]

/-- A REQUEST code that names no request makes the whole write a misuse. -/
theorem State.writeControl_misuse (hpin : s.port.resetLow = false) {v : Word} (hv : 5 ≤ (v.extractLsb' 0 3).toNat) :
    s.writeControl v = { s with part := s.part.report .portMisuse 0x0308 } := by
  simp only [State.writeControl, hpin, Bool.false_eq_true, if_false, if_pos hv]
  rfl

theorem State.writeControl_softReset (h : s.takesControl) {v : Word} (hv : (v.extractLsb' 0 3).toNat ≤ 4) :
    s.writeControl (v ||| softResetBit) = s.startSoftReset := by
  obtain ⟨hpin, hreset⟩ := h
  simp only [State.writeControl, hpin, hreset, softReset_request, softReset_bit, Nat.not_le.mpr (Nat.lt_succ_of_le hv),
    Bool.false_eq_true, if_false, if_true]

/-- The three beginnings of a soft reset, by the ladder state and the word in progress. -/
theorem State.startSoftReset_eq (s : State) : s.startSoftReset =
    if s.part.ladder.state = .still then
      { s with part := { s.part with ladder := { s.part.ladder with resetWaiting := true, lineClock := true, settle := some 2 } } }
    else if s.part.ladder.state = .settling then
      { s with part := { s.part with ladder := { s.part.ladder with resetWaiting := true } } }
    else if s.part.bus = [] then { s with port := { s.port with view := false }, part := { Part.reset with arb := s.part.arb } }
    else { s with part := { s.part with ladder := { s.part.ladder with softPending := true } } } := by
  unfold State.startSoftReset
  split
  next h => rw [if_pos h]; rfl
  next h => rw [if_neg (by rw [h]; decide), if_pos h]; rfl
  all_goals
    next h =>
      have hstill : s.part.ladder.state ≠ .still := by rw [h]; decide
      have hsettling : s.part.ladder.state ≠ .settling := by rw [h]; decide
      simp only [if_neg hstill, if_neg hsettling, List.isEmpty_iff]
      rfl

/-- Settles O6: the beginnings by the ladder state, the writes ignored until the reset takes effect, and the misuse before both. -/
theorem softResetWritten : Obligations.SoftResetWritten := by
  refine ⟨fun s v h hv => ?_, fun s r nudge v h hv => ⟨?_, ?_, ?_⟩, fun s v hpin hv => ⟨?_, ?_, ?_⟩⟩
  · rw [exec_softReset, State.writeControl_softReset h hv, State.startSoftReset_eq]
  · have hcode : ((controlBits r.code nudge).extractLsb' 0 3).toNat ≤ 4 := by
      rw [controlBits_request]
      exact Nat.le_of_lt_succ r.code_lt_five
    rw [exec_requestCommand, State.writeControl_of_resetUnderWay h hcode]
  · rw [exec_nudge, State.writeControl_of_resetUnderWay h (by decide)]
  · rw [exec_softReset, State.writeControl_of_resetUnderWay h (by rwa [softReset_request])]
  · rw [exec_softReset, State.writeControl_misuse hpin (by rwa [softReset_request])]
  · exact s.part.report_ladder _ _ (by decide)
  · exact s.part.report_setsFault _ _

/-! ## RESET_N low (R173) -/

/-- Settles O7: every write, the misuse and every read begin with the pin. -/
theorem resetNLow : Obligations.ResetNLow := by
  refine ⟨fun s r nudge v a offset hpin => ?_, fun _ => rfl⟩
  have control (v : Word) : s.writeControl v = s := State.writeControl_of_resetLow hpin v
  refine ⟨?_, ?_, ?_, ?_, ?_, ?_, ?_, ?_, ?_⟩
  · rw [exec_requestCommand, control]
  · rw [exec_nudge, control]
  · rw [exec_softReset, control]
  · exact congrArg _ (if_pos hpin)
  · exact congrArg _ (if_pos hpin)
  · exact congrArg _ (if_pos hpin)
  · exact congrArg _ (if_pos hpin)
  · exact if_pos hpin
  · exact if_pos hpin

/-! ## The other registers -/

/-- Settles O13: the write of AREA, by IDLE or not. -/
theorem areaWritten : Obligations.AreaWritten := by
  intro s v hpin
  have harm : exec (.areaWrite v) s = .next (s.writeArea v) := rfl
  rw [harm, State.writeArea, if_neg (by simp [hpin])]
  rfl

theorem State.writeCause_of_kept {v : Byte} (h : s.endsHold v = false) :
    s.part.writeCause s.port.area v = s.part.causeCleared v := by
  rw [Part.writeCause_eq]
  split
  next hends =>
    have hpending : s.part.ladder.pending = none := by
      simp only [Bool.and_eq_true, beq_iff_eq] at hends
      obtain ⟨⟨hbit, hset⟩, hheld⟩ := hends
      cases hpending : s.part.ladder.pending with
      | none => rfl
      | some r =>
        have hbit' : v[6] = true := hbit
        simp [State.endsHold, CauseBit.position, hbit', hset, hheld, hpending] at h
    rw [Part.takePending, show (s.part.causeCleared v).ladder.pending = none from hpending]
  next => rfl

theorem exec_causeWrite (hpin : s.port.resetLow = false) {v : Word} (h : s.endsHold (v.extractLsb' 0 8) = false) :
    exec (.causeWrite v) s = .next { s with part := s.part.causeCleared (v.extractLsb' 0 8) } := by
  change Host.Outcome.next (s.writeCause v) = _
  simp only [State.writeCause, hpin, h, Bool.false_eq_true, if_false, State.plain, State.writeCause_of_kept h]

/-- Settles O16: what CAUSE loses, and what the bits 5 and 6 take with them. -/
theorem causeWritten : Obligations.CauseWritten := by
  intro s v hpin hends
  have hwake : (v.extractLsb' 0 8).getLsbD 5 = v.getLsbD 5 := by simp
  have hfault : (v.extractLsb' 0 8).getLsbD 6 = v.getLsbD 6 := by simp
  refine ⟨_, exec_causeWrite hpin hends, rfl, ?wake, ?hold, ?capture, rfl, rfl, rfl, rfl, rfl, rfl⟩
  case wake => rw [Part.causeCleared, hwake]
  case hold => rw [Part.causeCleared, hfault]
  case capture =>
    rw [Part.causeCleared, hfault]
    simp only [Bool.and_eq_true]
    rfl

/-! ## What the host reads

A register's word is its fields side by side. A field is found by passing over those below it, then those above. -/

section
variable {v w start len i : Nat} {hi : BitVec v} {lo : BitVec w}

theorem field_above {z : BitVec len} (h : w ≤ start) (k : hi.extractLsb' (start - w) len = z) :
    (hi ++ lo).extractLsb' start len = z := (BitVec.extractLsb'_append_eq_of_le h).trans k

theorem field_below {z : BitVec len} (h : start + len ≤ w) (k : lo.extractLsb' start len = z) :
    (hi ++ lo).extractLsb' start len = z := (BitVec.extractLsb'_append_eq_of_add_le h).trans k

theorem field_all (lo : BitVec w) : lo.extractLsb' 0 w = lo := BitVec.extractLsb'_eq_self

theorem bit_above {b : Bool} (h : w ≤ i) (k : hi.getLsbD (i - w) = b) : (hi ++ lo).getLsbD i = b := by
  rw [BitVec.getLsbD_append, if_neg (by omega), k]

theorem bit_below {b : Bool} (h : i < w) (k : lo.getLsbD i = b) : (hi ++ lo).getLsbD i = b := by
  rw [BitVec.getLsbD_append, if_pos h, k]

theorem bit_ofBool (b : Bool) : (BitVec.ofBool b).getLsbD 0 = b := by cases b <;> rfl

end

theorem Capture.read_view_one (cap : Capture) : cap.read true = cap.cycle := rfl

/-- View 0 of FAULT, field by field. -/
theorem Capture.read_view_zero (cap : Capture) :
    (cap.read false).getLsbD 31 = cap.valid ∧ (cap.read false).extractLsb' 24 4 = cap.code ∧
      (cap.read false).extractLsb' 16 8 = cap.further ∧ (cap.read false).extractLsb' 0 16 = cap.detail := by
  have hread : cap.read false = BitVec.ofBool cap.valid ++ 0#3 ++ cap.code ++ cap.further ++ cap.detail := rfl
  rw [hread]
  refine ⟨?valid, ?code, ?further, ?detail⟩
  case valid =>
    exact bit_above (by decide) (bit_above (by decide) (bit_above (by decide) (bit_above (by decide) (bit_ofBool _))))
  case code => exact field_above (by decide) (field_above (by decide) (field_below (by decide) (field_all _)))
  case further => exact field_above (by decide) (field_below (by decide) (field_all _))
  case detail => exact field_below (by decide) (field_all _)

/-- Settles O19: the view selects what FAULT shows, each field in its place. -/
theorem faultViews : Obligations.FaultViews := by
  refine ⟨fun s v hpin => congrArg Host.Outcome.next (if_neg (by simp [hpin])), fun s hpin => ?_⟩
  rw [State.readRegister_cause hpin, State.readRegister_mask hpin, State.readRegister_fault hpin]
  have low (b : Byte) : (0#24 ++ b).extractLsb' 0 8 = b := field_below (by decide) (field_all b)
  have high (b : Byte) : (0#24 ++ b).extractLsb' 8 24 = 0 := field_above (by decide) (field_all _)
  refine ⟨low _, high _, low _, high _, fun hview => ?_, fun hview => ?_⟩
  · rw [hview, Capture.read_view_one]
  · rw [hview]
    exact s.part.faults.capture.read_view_zero

theorem LadderState.code_lt (l : LadderState) : l.code < 2 ^ 4 := by cases l <;> decide

theorem pendingCode_lt (pending : Option Request) : (pending.map Request.code).getD 0 < 2 ^ 3 := by
  cases pending with
  | none => decide
  | some r => exact r.code_lt_five.trans (by decide)

/-- Settles O20: CONTROL's fields, each in its place. -/
theorem controlReadsBack : Obligations.ControlReadsBack := by
  intro s hpin
  rw [State.readRegister_control hpin, Ladder.controlWord]
  refine ⟨?pending, ?gap, ?state, ?wake, ?hold, ?waiting, ?rest⟩
  case pending =>
    refine Eq.trans (congrArg BitVec.toNat (field_below (by decide) (field_all _))) ?_
    exact (BitVec.toNat_ofNat _ _).trans (Nat.mod_eq_of_lt (pendingCode_lt _))
  case gap => exact field_above (by decide) (field_below (by decide) (field_all _))
  case state =>
    refine Eq.trans (congrArg BitVec.toNat
      (field_above (by decide) (field_above (by decide) (field_below (by decide) (field_all _))))) ?_
    exact (BitVec.toNat_ofNat _ _).trans (Nat.mod_eq_of_lt (LadderState.code_lt _))
  case wake =>
    exact bit_above (by decide) (bit_above (by decide) (bit_above (by decide) (bit_below (by decide) (bit_ofBool _))))
  case hold =>
    exact bit_above (by decide) (bit_above (by decide) (bit_above (by decide) (bit_above (by decide) (bit_below (by decide)
      (bit_ofBool _)))))
  case waiting =>
    exact bit_above (by decide) (bit_above (by decide) (bit_above (by decide) (bit_above (by decide) (bit_above (by decide)
      (bit_below (by decide) (bit_ofBool _))))))
  case rest =>
    exact field_above (by decide) (field_above (by decide) (field_above (by decide) (field_above (by decide) (field_above (by decide)
      (field_above (by decide) (field_all _))))))

/-! ## Misuse of the window (R173) -/

theorem registerOf_eq (a : PortAccess) : registerOf a = a.offset.toNat / 4 * 4 := by
  unfold registerOf
  omega

theorem State.readAccess_of_narrow {a : PortAccess} (h : a.narrow = true) : s.readAccess a = 0 := by
  have hkind : (s.misuseKind a).isSome = true := by
    rw [State.misuseKind, h]
    cases s.wideMisuse a (registerOf a) with
    | none => rfl
    | some k => dsimp only; split <;> rfl
  rw [State.readAccess, if_pos hkind]

theorem exec_portMisuse (hpin : s.port.resetLow = false) {a : PortAccess} {kind : Nat} (h : s.misuseKind a = some kind) :
    exec (.portMisuse a) s = .next (s.misuse kind (registerOf a)) := by
  change execPortMisuse a s = _
  rw [execPortMisuse, if_neg (by simp [hpin]), h]

/-- A narrow access that is no misuse of another kind is one of kind 5. -/
theorem State.misuseKind_of_narrow {a : PortAccess} (h : a.narrow = true) (hwide : s.wideMisuse a (registerOf a) = none) :
    s.misuseKind a = some 5 := by
  rw [State.misuseKind, h, hwide]

theorem State.misuseKind_of_wide {a : PortAccess} (h : a.narrow = false) : s.misuseKind a = s.wideMisuse a (registerOf a) := by
  rw [State.misuseKind, h]

theorem State.wideMisuse_read {a : PortAccess} (hw : a.write = false) (ho : a.offset ≠ 0x18) (ho' : a.offset ≠ 0x1C) :
    s.wideMisuse a (registerOf a) = none := by
  have h18 : a.offset.toNat ≠ 0x18 := fun h => ho (BitVec.eq_of_toNat_eq h)
  have h1C : a.offset.toNat ≠ 0x1C := fun h => ho' (BitVec.eq_of_toNat_eq h)
  simp [State.wideMisuse, hw, h18, h1C]

/-- The narrow writes that are a misuse of no kind but their width. -/
theorem State.wideMisuse_narrowWrite {a : PortAccess} (hw : a.write = true)
    (h : 0x04 ≤ a.offset.toNat ∧ a.offset.toNat < 0x08 ∧ s.part.ladder.state = .idle ∨
      a.offset = 0x08 ∧ (a.data.extractLsb' 0 3).toNat < 5 ∨ 0x09 ≤ a.offset.toNat ∧ a.offset ≠ 0x18 ∧ a.offset ≠ 0x1C) :
    s.wideMisuse a (registerOf a) = none := by
  unfold State.wideMisuse registerOf regArea regIdent regControl
  rw [hw]
  rcases h with ⟨hlo, hhi, hidle⟩ | ⟨ho, hcode⟩ | ⟨hlo, ho, ho'⟩
  · rw [if_neg (by omega), if_pos rfl, if_pos (by omega), if_pos hidle]
  · have hdata : ¬ 5 ≤ (a.data.extractLsb' 0 3).toNat := by omega
    rw [ho, if_neg (by decide), if_pos rfl, if_neg (by decide), if_neg (by decide), if_pos (by decide), if_neg hdata]
  · have h18 : a.offset.toNat ≠ 0x18 := fun h => ho (BitVec.eq_of_toNat_eq h)
    have h1C : a.offset.toNat ≠ 0x1C := fun h => ho' (BitVec.eq_of_toNat_eq h)
    rw [if_neg (by omega), if_pos rfl, if_neg (by omega), if_neg (by omega), if_neg (by omega)]

/-- Settles O18: the kind of each access that the five rules name, and what its report does. -/
theorem portMisuseReported : Obligations.PortMisuseReported := by
  refine ⟨fun s a kind hpin hcases => ?_, fun s a h => State.readAccess_of_narrow h⟩
  have hkind : s.misuseKind a = some kind.toNat := by
    rcases hcases with ⟨hn, hw, ho, hstate, rfl⟩ | ⟨hn, hw, ho, rfl⟩ | ⟨hn, hw, ho, hcode, rfl⟩ | ⟨hn, ho, rfl⟩ |
      ⟨hn, hw, ho, ho', rfl⟩ | ⟨hn, hw, rfl, hrest⟩
    · rw [State.misuseKind_of_wide hn]
      simp [State.wideMisuse, registerOf, ho, hw, hstate, regArea]
    · rw [State.misuseKind_of_wide hn]
      simp [State.wideMisuse, registerOf, ho, hw, regArea, regIdent]
    · rw [State.misuseKind_of_wide hn]
      simpa [State.wideMisuse, registerOf, ho, hw, regArea, regIdent, regControl] using hcode
    · rw [State.misuseKind_of_wide hn]
      rcases ho with ho | ho <;> simp [State.wideMisuse, ho]
    · exact State.misuseKind_of_narrow hn (State.wideMisuse_read hw ho ho')
    · exact State.misuseKind_of_narrow hn (State.wideMisuse_narrowWrite hw hrest)
  refine ⟨?_, s.part.report_ladder _ _ (by decide), ?_⟩
  · rw [exec_portMisuse hpin hkind, State.misuse, registerOf_eq, BitVec.ofNat_toNat, BitVec.setWidth_eq]
    rfl
  · rw [State.readAccess, hkind]
    rfl

/-! ## One word of host memory (R170, R172) -/

theorem Memory.readByte_writeBytes {m : Memory} (hm : m.wf = true) (a : Nat) (bytes : List Byte) (k : Nat) (hk : k < bytes.length) :
    (m.writeBytes a bytes).readByte (a + k) = bytes[k] := by
  induction bytes generalizing m a k with
  | nil => cases hk
  | cons b rest ih =>
    have hb := Memory.writeByte_wf hm a b
    cases k with
    | zero =>
      rw [Memory.writeBytes, Memory.readByte_writeBytes_other _ _ _ _ (.inl (by omega))]
      exact Memory.readByte_writeByte hm a b
    | succ k =>
      have hrest := ih hb (a + 1) k (Nat.lt_of_succ_lt_succ hk)
      rwa [show a + 1 + k = a + (k + 1) by omega] at hrest

theorem Memory.readByte_writeWord {m : Memory} (hm : m.wf = true) (a : Nat) (w : Word) (k : Fin 4) :
    (m.writeWord a w).readByte (a + k.val) = w.extractLsb' (8 * k.val) 8 := by
  rw [Memory.writeWord, Memory.readByte_writeBytes hm a (wordBytes w) k.val k.isLt]
  fin_cases k <;> rfl

theorem wordOf_bytes (w : Word) :
    wordOf (w.extractLsb' 0 8) (w.extractLsb' 8 8) (w.extractLsb' 16 8) (w.extractLsb' 24 8) = w := by
  unfold wordOf
  rw [BitVec.extractLsb'_append_extractLsb'_eq_extractLsb' (start₂ := 24) (start₁ := 16) rfl,
    BitVec.extractLsb'_append_extractLsb'_eq_extractLsb' (start₂ := 16) (start₁ := 8) rfl,
    BitVec.extractLsb'_append_extractLsb'_eq_extractLsb' (start₂ := 8) (start₁ := 0) rfl]
  exact field_all w

theorem Memory.readWord_writeWord {m : Memory} (hm : m.wf = true) (a : Nat) (w : Word) :
    (m.writeWord a w).readWord a = w := by
  have byte := Memory.readByte_writeWord hm a w
  rw [Memory.readWord, show a = a + (0 : Fin 4).val from rfl]
  refine Eq.trans ?_ (wordOf_bytes w)
  congr 1
  · exact byte 0
  · exact byte 1
  · exact byte 2
  · exact byte 3

/-- Settles O9: byte by byte. -/
theorem wordWrittenReadsBack : Obligations.WordWrittenReadsBack := fun _ a w hm =>
  ⟨Memory.readWord_writeWord hm a w, Memory.readByte_writeWord hm a w⟩

theorem State.current_of_noBus (h : s.part.ladder.state.busRuns = false) : s.current = none := by
  rw [State.current, h]
  rfl

/-- Settles O10: the effect of a command on memory is at most one access's, and STILL and SETTLING have none. -/
theorem onlyCurrentWordChanges : Obligations.OnlyCurrentWordChanges := by
  refine ⟨fun c s t h a hout => ?_, fun c s t hstate h => ?_⟩
  · cases exec_effect h with
    | word x host current mem => rw [mem, x.memAfter_other s.mem s.port.area host a (hout x current)]
    | blocks port mem => rw [mem]
    | full low command result | soft result | area value command idle result | mask value command result
    | view value command result | release command result => rw [result] <;> rfl
  · have hnone : s.current = none := State.current_of_noBus (by rcases hstate with h | h <;> rw [h] <;> rfl)
    cases exec_effect h with
    | word x host current => rw [hnone] at current; cases current
    | blocks port mem => exact mem
    | full low command result | soft result | area value command idle result | mask value command result
    | view value command result | release command result => rw [result] <;> rfl

theorem exec_memoryAccessComplete (s : State) (host : Option Word) (dt : Nat) :
    exec (.memoryAccessComplete host dt) s = .next (s.complete host dt) := rfl

theorem exec_memoryErrorResponse (s : State) (dt : Nat) : exec (.memoryErrorResponse dt) s = .next (s.fail dt) := rfl

theorem Access.memAfter_of_write (x : Access) {w : Word} (hw : x.write = some w) (area : Word) (host : Option Word) (m : Memory) :
    x.memAfter area host m = m.writeWord (busAddress area x.offset) w := by
  unfold Access.memAfter
  rw [hw]

theorem Access.memAfter_of_read (x : Access) (hw : x.write = none) (area : Word) (host : Option Word) (m : Memory) :
    x.memAfter area host m =
      match host with
      | some w => m.writeWord (busAddress area x.offset) w
      | none => m := by
  cases host <;> simp only [Access.memAfter, hw]

theorem State.complete_mem {x : Access} (hx : s.current = some x) (host : Option Word) (dt : Nat) :
    (s.complete host dt).mem = x.memAfter s.port.area host s.mem := by
  unfold State.complete
  rw [hx]
  dsimp only
  split
  · rfl
  · simp

/-- Settles O11: the word transferred, by the access's direction. -/
theorem accessCompletes : Obligations.AccessCompletes := by
  intro s x host dt hm hx
  refine ⟨_, exec_memoryAccessComplete s host dt, fun w hw => ?_, fun w hw hh => ?_, fun hw hh => ?_⟩
  · rw [State.complete_mem hx, x.memAfter_of_write hw]
    exact Memory.readWord_writeWord hm _ w
  · rw [State.complete_mem hx, hh, x.memAfter_of_read hw]
    exact Memory.readWord_writeWord hm _ w
  · rw [State.complete_mem hx, hh, x.memAfter_of_read hw]

/-! ## An error response (R171) -/

theorem State.fail_of_current {x : Access} (hx : s.current = some x) (hp : s.part.ladder.softPending = false) (dt : Nat) :
    s.fail dt = (s.offList s.mem).act fun p => (p.passTime dt).accessFailed x := by
  simp only [State.fail, hx, hp, Bool.false_eq_true, if_false]
  rfl

/-- Nothing that follows the report of a failed access loses it. -/
theorem Part.accessFailed_reported (p : Part) (x : Access) :
    (p.accessFailed x).Captured (p.report .memory (BitVec.ofNat 16 x.offset)) := by
  have hset := p.report_setsFault .memory (BitVec.ofNat 16 x.offset)
  unfold Part.accessFailed
  dsimp only
  generalize p.report .memory (BitVec.ofNat 16 x.offset) = q at hset ⊢
  split
  · simp [Part.Captured, hset]
  · simp [Part.Captured, hset]

theorem Part.accessFailed_faultHold (p : Part) (x : Access) (h : p.ladder.state ≠ .starting) :
    (p.accessFailed x).ladder.faultHold = true := by
  have hhold : (p.report .memory (BitVec.ofNat 16 x.offset)).ladder.faultHold = true := by
    rw [Part.report_memory_ladder]
    simp [h]
  have hstate : (p.report .memory (BitVec.ofNat 16 x.offset)).ladder.state = p.ladder.state := by
    rw [Part.report_memory_ladder]
  unfold Part.accessFailed
  dsimp only
  rw [if_neg (by rwa [hstate])]
  exact Part.holdCheckStopped_holds _ (Part.blockFailed_holds _ hhold _)

/-- Settles O12: the report comes first, and nothing the block then does loses it. -/
theorem errorResponseReported : Obligations.ErrorResponseReported := by
  intro s x dt hx hp
  let p := (s.offList s.mem).part.passTime dt
  have hfailed := p.accessFailed_reported x
  have hkept := ((s.offList s.mem).act_captured (fun p => (p.passTime dt).accessFailed x) hfailed.1).trans hfailed
  refine ⟨_, (exec_memoryErrorResponse s dt).trans (congrArg _ (State.fail_of_current hx hp dt)), by simp [State.offList],
    by simp [State.offList], hkept.1, fun hclear => ?_, fun hstate => ?_⟩
  · obtain ⟨-, hvalid, hcode, hdetail, hcycle⟩ := hkept
    rw [hvalid, hcode, hdetail, hcycle, Part.report_capture, show p.hasCause .fault = false from hclear, Capture.take_of_clear]
    exact ⟨rfl, rfl, rfl, rfl⟩
  · rw [State.act_ladder]
    exact Part.settle_holds _ (p.accessFailed_faultHold x hstate)

end Sys2Proof.Machine
end

section
/-!
SUPPORT. The requests and the timers of the ladder: what `settle` leaves as it is, the equation of each request taken, and what each of the
transitions leads to.
-/
namespace Sys2Proof.Machine

/-! ## What `settle` leaves as it is -/

section
variable (p : Part)

theorem Part.settleCheck_cause_of_notStarting (h : p.ladder.state ≠ .starting) :
    p.settleCheck.faults.cause = p.faults.cause := by
  unfold Part.settleCheck
  split
  · dsimp only
    split
    · rw [if_neg (fun hs => h hs.1)]
      simp
    · rfl
  · rfl

/-- CAUSE keeps every bit, CAUSE.NODE with them, where no start-up waits for its status records. -/
theorem Part.settle_cause_of_notStarting (h : p.ladder.state ≠ .starting) : p.settle.faults.cause = p.faults.cause := by
  have hcheck := p.settleNodeOpen.settleCheck_cause_of_notStarting (by simpa using h)
  simp [Part.settle, hcheck]

theorem Part.settleCheck_check_isSome : p.settleCheck.loader.check.isSome = p.loader.check.isSome := by
  unfold Part.settleCheck
  split
  next hc => split <;> simp [Part.checkAt, hc]
  next hc => rfl

theorem Part.settleNodeOpen_loader : p.settleNodeOpen.loader = p.loader := by
  unfold Part.settleNodeOpen
  dsimp only
  (repeat' split) <;> simp

theorem Part.settleStartup_of_waits
    (h : ∀ u, p.ladder.startup = some u → ¬ (p.ladder.state = .starting ∧ u.pos = .commit ∧ p.loader.check = none)) :
    p.settleStartup = p := by
  unfold Part.settleStartup
  split
  next u hu => rw [if_neg (h u hu)]
  next => rfl

theorem Part.settleService_of_works
    (h : p.ladder.state = .heldService → p.ladder.serviceWait = false ∧ p.ladder.serviceRead = false) :
    p.settleService = p := by
  unfold Part.settleService
  rw [if_neg]
  rintro ⟨hservice, hwaits⟩
  obtain ⟨hwait, hread⟩ := h hservice
  simp [hwait, hread] at hwaits

/-- `settle` leaves the ladder controller alone unless a start-up's check or a service's wait is over. -/
theorem Part.settle_ladder_of_works
    (hstart : ∀ u, p.ladder.startup = some u → ¬ (p.ladder.state = .starting ∧ u.pos = .commit ∧ p.loader.check = none))
    (hservice : p.ladder.state = .heldService → p.ladder.serviceWait = false ∧ p.ladder.serviceRead = false) :
    p.settle.ladder = p.ladder := by
  have hladder : p.settleNodeOpen.settleCheck.ladder = p.ladder := by simp
  have hcheck : p.settleNodeOpen.settleCheck.loader.check = none → p.loader.check = none := by
    intro h
    have hsome := p.settleNodeOpen.settleCheck_check_isSome
    rw [h, p.settleNodeOpen_loader] at hsome
    simpa using hsome
  have hstartup : p.settleNodeOpen.settleCheck.settleStartup = p.settleNodeOpen.settleCheck := by
    refine Part.settleStartup_of_waits _ fun u hu => ?_
    rw [hladder] at hu ⊢
    exact fun h => hstart u hu ⟨h.1, h.2.1, hcheck h.2.2⟩
  unfold Part.settle
  rw [hstartup, Part.settleService_of_works]
  · simp
  · simpa using hservice

end

/-- `q` holds what `p` holds of the registers, the line and the records, and of the blocks what no rest of an event's work changes. -/
structure Part.Settled (q p : Part) : Prop where
  ladder : q.ladder = p.ladder
  frames : q.frames = p.frames
  cause : q.faults.cause = p.faults.cause
  capture : q.faults.capture = p.faults.capture
  counters : q.faults.counters = p.faults.counters
  records : q.table.records = p.table.records
  windows : q.windows = p.windows
  schedState : q.sched.state = p.sched.state
  cycle : q.sched.cycle = p.sched.cycle
  queue : q.events.queue = p.events.queue
  nodes : q.events.nodes = p.events.nodes
  claimed : q.events.claimed = p.events.claimed

section
variable {s : State} {f : Part → Part} {q : Part}

theorem State.act_settled (hf : f s.part = q) (hstart : q.ladder.state ≠ .starting) (hservice : q.ladder.state ≠ .heldService) :
    (s.act f).part.Settled q := by
  subst hf
  obtain ⟨hladder, hframes, hnodes, hclaimed, -⟩ := s.act_keepsLine f hstart hservice
  obtain ⟨hrecords, -, hwindows, hsched, hcycle, -, -, -, hcapture, hcounters, hrest⟩ := s.act_keeps f
  have hcause : (s.act f).part.faults.cause = (f s.part).faults.cause := by
    rw [State.act_faults, Part.settle_cause_of_notStarting _ hstart]
  refine ⟨hladder, hframes, hcause, hcapture, hcounters, hrecords, hwindows, hsched, hcycle, ?_, hnodes, hclaimed⟩
  obtain ⟨-, -, -, -, -, -, -, -, -, -, -, -, -, -, -, hqueue, -⟩ := hrest
  exact hqueue

theorem Part.Settled.hasCause {p : Part} (h : q.Settled p) (b : CauseBit) : q.hasCause b = p.hasCause b := by
  simp only [Part.hasCause, h.cause]

end

/-! ## The request taken, one equation per place of Table 9-3 -/

section
variable {p : Part} (area : Word)

/-- The requests that a rung skips: no move leads from it by them. -/
def Request.skippedAt (r : Request) : LadderState → Bool
  | .idle => r = .rest ∨ r = .still
  | .still => r ≠ .rest
  | .resting => r = .run
  | .held => r = .still
  | .starting | .run | .heldService | .rousing | .settling => false

theorem Part.takeRequest_of_skipped {r : Request} (h : r.skippedAt p.ladder.state = true) :
    p.takeRequest area r = p.emptySlot.skipRequest r := by
  have hstate : p.emptySlot.ladder.state = p.ladder.state := rfl
  unfold Part.takeRequest
  dsimp only
  rw [hstate]
  revert h
  cases p.ladder.state <;> cases r <;> first | exact fun _ => rfl | exact fun h => absurd h (by decide)

theorem Part.takeRequest_hold_of_held (h : p.ladder.state = .held) : p.takeRequest area .hold = p.emptySlot := by
  simp only [Part.takeRequest, Part.emptySlot, Part.modLadder_ladder, h]

theorem Part.takeRequest_rest_of_resting (h : p.ladder.state = .resting) : p.takeRequest area .rest = p.emptySlot := by
  simp only [Part.takeRequest, Part.emptySlot, Part.modLadder_ladder, h]

theorem Part.takeRequest_rest_of_held (h : p.ladder.state = .held) :
    p.takeRequest area .rest = p.emptySlot.giveBroadcast .rest .rest := by
  simp only [Part.takeRequest, Part.emptySlot, Part.modLadder_ladder, h]

theorem Part.takeRequest_hold_of_resting (h : p.ladder.state = .resting) :
    p.takeRequest area .hold = p.emptySlot.enterRousing := by
  simp only [Part.takeRequest, Part.emptySlot, Part.modLadder_ladder, h]

theorem Part.takeRequest_still_of_resting (h : p.ladder.state = .resting) :
    p.takeRequest area .still = p.emptySlot.beginStill := by
  simp only [Part.takeRequest, Part.emptySlot, Part.modLadder_ladder, h]

theorem Part.takeRequest_rest_of_still (h : p.ladder.state = .still) :
    p.takeRequest area .rest = p.emptySlot.enterSettling := by
  simp only [Part.takeRequest, Part.emptySlot, Part.modLadder_ladder, h]

/-! ## The moment a request is taken -/

theorem Part.nudge_of_idle (h : p.ladder.state.worksMemory = false) : p.nudge = p := by
  unfold Part.nudge
  revert h
  cases p.ladder.state <;> first | exact fun _ => rfl | exact fun h => absurd h (by decide)

/-- A request written in IDLE, RESTING or STILL is taken at once, whatever the NUDGE bit beside it. -/
theorem exec_request_of_takes {s : State} (hc : s.takesControl) (h : s.part.takesAtOnce = true)
    (hidle : s.part.ladder.state.worksMemory = false) (r : Request) (nudge : Bool) :
    ∃ f : Part → Part, exec (requestCommand r nudge) s = .next (s.act f) ∧ f s.part = s.part.takeRequest s.port.area r := by
  refine ⟨_, exec_requestCommand_of_takesControl hc r nudge, ?_⟩
  rw [Part.nudge_of_idle hidle, ite_self, Part.requestWritten, if_pos h]

/-- In HELD with the held line quiet it is taken at once without a NUDGE beside it. -/
theorem exec_request_of_heldQuiet {s : State} (hc : s.takesControl) (h : s.part.ladder.state = .held)
    (hquiet : s.part.heldQuiet = true) (r : Request) :
    ∃ f : Part → Part, exec (requestCommand r false) s = .next (s.act f) ∧ f s.part = s.part.takeRequest s.port.area r :=
  ⟨_, exec_requestCommand_of_takesControl hc r false, Part.requestWritten_of_heldQuiet h hquiet _ _⟩

end

/-! ## Requests that leave the ladder (R148) -/

section
variable {s : State} {f : Part → Part}

/-- A LADDER-SKIP: the slot emptied and the fault reported. -/
theorem State.act_of_skip {r : Request} (hf : f s.part = s.part.emptySlot.skipRequest r)
    (hstart : s.part.ladder.state ≠ .starting) (hservice : s.part.ladder.state ≠ .heldService) :
    (s.act f).part.ladder = { s.part.ladder with pending := none } ∧ (s.act f).part.frames = s.part.frames ∧
      (s.act f).part.hasCause .fault = true ∧ (s.act f).part.hasCause .ladder = s.part.hasCause .ladder ∧
      (s.act f).part.faults.counters = s.part.faults.counters ∧
      (s.part.hasCause .fault = false →
        (s.act f).part.faults.capture.code = 6 ∧
        (s.act f).part.faults.capture.detail =
          0#8 ++ BitVec.ofNat 4 r.code ++ BitVec.ofNat 4 s.part.ladder.state.code) := by
  have hladder : (s.part.emptySlot.skipRequest r).ladder = { s.part.ladder with pending := none } :=
    Part.report_ladder _ _ _ (by decide)
  have hq := State.act_settled hf (by rwa [hladder]) (by rwa [hladder])
  rw [hq.ladder, hq.frames, hq.hasCause, hq.hasCause, hq.counters, hq.capture, hladder]
  refine ⟨rfl, by simp [Part.skipRequest, Part.emptySlot], by simp [Part.skipRequest], ?ladderBit,
    Part.report_counters_of_ne_memory _ _ _ (by decide), fun hclear => ?captured⟩
  case ladderBit =>
    rw [Part.skipRequest, Part.report_hasCause, show s.part.emptySlot.hasCause .ladder = s.part.hasCause .ladder from rfl]
    exact Bool.or_false _
  case captured =>
    rw [Part.skipRequest, Part.report_capture, show s.part.emptySlot.hasCause .fault = false from hclear, Capture.take_of_clear]
    exact ⟨rfl, rfl⟩

/-- A request that is consumed. -/
theorem State.act_of_emptySlot (hf : f s.part = s.part.emptySlot) (hstart : s.part.ladder.state ≠ .starting)
    (hservice : s.part.ladder.state ≠ .heldService) : (s.act f).part.Settled s.part.emptySlot :=
  State.act_settled hf hstart hservice

end

theorem skipDetail_fields (r : Request) (l : LadderState) :
    ((0#8 ++ BitVec.ofNat 4 r.code ++ BitVec.ofNat 4 l.code).extractLsb' 0 4).toNat = l.code ∧
      ((0#8 ++ BitVec.ofNat 4 r.code ++ BitVec.ofNat 4 l.code).extractLsb' 4 4).toNat = r.code := by
  cases r <;> cases l <;> exact ⟨rfl, rfl⟩

/-- Settles O28: each rung's skipped requests with their report, and the two that are consumed. -/
theorem requestLeavesLadder : Obligations.RequestLeavesLadder := by
  refine ⟨fun s r nudge hc hcases => ?skipped, fun s r nudge hc hcases => ?consumed⟩
  case skipped =>
    have hskip : r.skippedAt s.part.ladder.state = true := by
      rcases hcases with ⟨h, hr⟩ | ⟨h, hr⟩ | ⟨h, rfl⟩ | ⟨h, -, -, rfl⟩
      · rw [h]; rcases hr with rfl | rfl <;> rfl
      · rw [h]; rcases hr with rfl | rfl | rfl <;> rfl
      · rw [h]; rfl
      · rw [h]; rfl
    obtain ⟨f, hexec, hf⟩ : ∃ f : Part → Part,
        exec (requestCommand r nudge) s = .next (s.act f) ∧ f s.part = s.part.takeRequest s.port.area r := by
      rcases hcases with ⟨h, -⟩ | ⟨h, -⟩ | ⟨h, -⟩ | ⟨h, hquiet, rfl, -⟩
      · exact exec_request_of_takes hc (by rw [Part.takesAtOnce, h]) (by rw [h]; rfl) r nudge
      · exact exec_request_of_takes hc (by rw [Part.takesAtOnce, h]) (by rw [h]; rfl) r nudge
      · exact exec_request_of_takes hc (by rw [Part.takesAtOnce, h]) (by rw [h]; rfl) r nudge
      · exact exec_request_of_heldQuiet hc h hquiet r
    have hstart : s.part.ladder.state ≠ .starting := fun h => by rw [h] at hskip; cases hskip
    have hservice : s.part.ladder.state ≠ .heldService := fun h => by rw [h] at hskip; cases hskip
    obtain ⟨hladder, -, hfault, hcause, hcounters, hcaptured⟩ :=
      State.act_of_skip (hf.trans (Part.takeRequest_of_skipped _ hskip)) hstart hservice
    refine ⟨_, hexec, by rw [hladder], by rw [hladder], by rw [hladder], hfault, hcause, hcounters, fun hclear => ?_⟩
    obtain ⟨hcode, hdetail⟩ := hcaptured hclear
    rw [hdetail]
    exact ⟨hcode, skipDetail_fields r s.part.ladder.state⟩
  case consumed =>
    obtain ⟨f, hexec, hf, hstate⟩ : ∃ f : Part → Part, exec (requestCommand r nudge) s = .next (s.act f) ∧
        f s.part = s.part.emptySlot ∧ (s.part.ladder.state = .held ∨ s.part.ladder.state = .resting) := by
      rcases hcases with ⟨h, hquiet, rfl, rfl⟩ | ⟨h, rfl⟩
      · obtain ⟨f, hexec, hf⟩ := exec_request_of_heldQuiet hc h hquiet .hold
        exact ⟨f, hexec, hf.trans (Part.takeRequest_hold_of_held _ h), .inl h⟩
      · obtain ⟨f, hexec, hf⟩ := exec_request_of_takes hc (by rw [Part.takesAtOnce, h]) (by rw [h]; rfl) .rest nudge
        exact ⟨f, hexec, hf.trans (Part.takeRequest_rest_of_resting _ h), .inr h⟩
    have hq := State.act_of_emptySlot hf (by rcases hstate with h | h <;> rw [h] <;> decide)
      (by rcases hstate with h | h <;> rw [h] <;> decide)
    exact ⟨_, hexec, by rw [hq.ladder]; rfl, by rw [hq.ladder]; rfl, hq.cause, hq.capture, hq.counters, hq.frames⟩

/-! ## Requests that wait (R147) -/

section
variable (p : Part)

theorem Part.nudge_ladder : p.nudge.ladder = p.ladder := by
  unfold Part.nudge
  split <;> (try split) <;> simp

theorem Part.nudge_capture : p.nudge.faults.capture = p.faults.capture := by
  unfold Part.nudge
  split <;> (try split) <;> simp

theorem Part.requestTaken_isSome (onFetch : Bool) : (p.requestTaken onFetch).events.takenRead.isSome = true := by
  unfold Part.requestTaken
  split <;> rfl

theorem Part.heldQuiet_of_takenRead (h : p.events.takenRead.isSome = true) : p.heldQuiet = false := by
  have hnone : p.events.takenRead.isNone = false := by simpa using h
  simp [Part.heldQuiet, Part.workQuiet, hnone]

/-- A NUDGE in HELD finds work. -/
theorem Part.nudge_heldQuiet (h : p.ladder.state = .held) : p.nudge.heldQuiet = false := by
  refine Part.heldQuiet_of_takenRead _ ?_
  unfold Part.nudge
  rw [h]
  exact Part.requestTaken_isSome _ _

/-- A request waits with a NUDGE beside it where it waits without. -/
theorem Part.nudge_takesAtOnce (h : p.takesAtOnce = false) : p.nudge.takesAtOnce = false := by
  have hstate : p.nudge.ladder.state = p.ladder.state := by rw [p.nudge_ladder]
  by_cases hheld : p.ladder.state = .held
  · rw [Part.takesAtOnce_of_held (hstate.trans hheld), p.nudge_heldQuiet hheld]
  · unfold Part.takesAtOnce at h ⊢
    rw [hstate]
    revert h hheld
    cases p.ladder.state <;> simp

end

/-- Settles O29: where the request waits it replaces the slot's, and `settle` ends no start-up and no service by it. -/
theorem requestKeptPending : Obligations.RequestKeptPending := by
  intro s r nudge hc hcases
  let p := if nudge then s.part.nudge else s.part
  have hladder : p.ladder = s.part.ladder := by
    change (if nudge then s.part.nudge else s.part).ladder = _
    split
    · exact s.part.nudge_ladder
    · rfl
  have hcapture : p.faults.capture = s.part.faults.capture := by
    change (if nudge then s.part.nudge else s.part).faults.capture = _
    split
    · exact s.part.nudge_capture
    · rfl
  have hwaits : p.takesAtOnce = false := by
    change (if nudge then s.part.nudge else s.part).takesAtOnce = false
    have wait (h : s.part.takesAtOnce = false) : (if nudge then s.part.nudge else s.part).takesAtOnce = false := by
      split
      · exact s.part.nudge_takesAtOnce h
      · exact h
    rcases hcases with h | h | h | ⟨h, -⟩ | ⟨h, -⟩ | ⟨h, hquiet⟩
    · exact wait (by rw [Part.takesAtOnce, h])
    · exact wait (by rw [Part.takesAtOnce, h])
    · exact wait (by rw [Part.takesAtOnce, h])
    · exact wait (by rw [Part.takesAtOnce, h])
    · exact wait (by rw [Part.takesAtOnce, h])
    · rcases hquiet with ⟨hquiet, -⟩ | rfl
      · exact wait (by rw [Part.takesAtOnce_of_held h, hquiet])
      · rw [if_pos rfl, Part.takesAtOnce_of_held (by rw [s.part.nudge_ladder, h]), s.part.nudge_heldQuiet h]
  have hkept : p.requestWritten s.port.area r = p.keepPending r := by
    rw [Part.requestWritten, hwaits]
    rfl
  have hsettle : (p.keepPending r).settle.ladder = (p.keepPending r).ladder := by
    refine Part.settle_ladder_of_works _ (fun u hu => ?_) fun hservice => ?_
    · rintro ⟨hstart, hpos, hcheck⟩
      have hu : s.part.ladder.startup = some u := by rw [← hladder]; exact hu
      have hstart : s.part.ladder.state = .starting := by rw [← hladder]; exact hstart
      have hcheck : s.part.loader.check = none := by
        have hp : p = s.part := by
          change (if nudge then s.part.nudge else s.part) = s.part
          rw [Part.nudge_of_idle (by rw [hstart]; rfl), ite_self]
        rw [← hp]
        exact hcheck
      rcases hcases with h | h | h | ⟨-, h⟩ | ⟨h, -⟩ | ⟨h, -⟩
      case inr.inr.inr.inl => exact h u hu ⟨hpos, hcheck⟩
      all_goals rw [hstart] at h; cases h
    · have hservice : s.part.ladder.state = .heldService := by rw [← hladder]; exact hservice
      change p.ladder.serviceWait = false ∧ p.ladder.serviceRead = false
      rw [hladder]
      rcases hcases with h | h | h | ⟨h, -⟩ | ⟨-, h⟩ | ⟨h, -⟩
      case inr.inr.inr.inr.inl => exact h
      all_goals rw [hservice] at h; cases h
  obtain ⟨-, -, -, -, -, -, -, -, hkeptCapture, -⟩ :=
    s.act_keeps fun p => (if nudge then p.nudge else p).requestWritten s.port.area r
  refine ⟨_, exec_requestCommand_of_takesControl hc r nudge, ?_, ?_, ?_, State.act_mem _ _, State.act_port _ _⟩
  · rw [State.act_ladder, hkept, hsettle]
    rfl
  · rw [State.act_ladder, hkept, hsettle]
    change p.ladder.state = s.part.ladder.state
    rw [hladder]
  · rw [hkeptCapture, hkept]
    exact hcapture

/-! ## The end of the fault hold (R158, R162) -/

section
variable {s : State}

theorem exec_causeWrite_of_endsHold (hpin : s.port.resetLow = false) {v : Word}
    (h : s.endsHold (v.extractLsb' 0 8) = true) :
    exec (.causeWrite v) s = .next (s.act fun p => p.writeCause s.port.area (v.extractLsb' 0 8)) := by
  change Host.Outcome.next (s.writeCause v) = _
  simp only [State.writeCause, hpin, h, Bool.false_eq_true, if_false, if_true]

theorem Part.causeCleared_fault {p : Part} {v : Byte} (hv : v.getLsbD 6 = true) (hset : p.hasCause .fault = true) :
    (p.causeCleared v).hasCause .fault = false ∧ (p.causeCleared v).faults.capture.valid = false ∧
      (p.causeCleared v).ladder.faultHold = false := by
  have hbit : v[6] = true := hv
  refine ⟨?_, ?_, ?_⟩
  · simp [Part.hasCause, Part.causeCleared, CauseBit.position, hbit]
  · rw [Part.causeCleared, hv, hset]
    rfl
  · rw [Part.causeCleared, hv, hset]
    exact Bool.and_false _

end

theorem Part.enterRun_capture (p : Part) : p.enterRun.faults.capture = p.faults.capture := by
  simp [Part.enterRun, Part.startCycle]

/-- Settles O31: the clear ends the hold; then the request goes where the held line, quiet or not, and Table 9-3 send it. -/
theorem faultHoldEnds : Obligations.FaultHoldEnds := by
  intro s v r hpin hheld hpending hset hv
  have hv8 : (v.extractLsb' 0 8).getLsbD 6 = true := by simpa using hv
  let q := s.part.causeCleared (v.extractLsb' 0 8)
  obtain ⟨hcause, hvalid, hhold⟩ := Part.causeCleared_fault hv8 hset
  have hqheld : q.ladder.state = .held := hheld
  have hwritten : s.part.writeCause s.port.area (v.extractLsb' 0 8) = q.takePending s.port.area := by
    rw [Part.writeCause_eq, if_pos (by rw [hv8, hset, hheld]; rfl)]
  have hends : s.endsHold (v.extractLsb' 0 8) = true := by
    simp only [State.endsHold, hheld, hpending, CauseBit.position, hv8, hset]
    rfl
  have settled {q' : Part} (h : q.takePending s.port.area = q') (hstart : q'.ladder.state ≠ .starting)
      (hservice : q'.ladder.state ≠ .heldService) :
      (s.act fun p => p.writeCause s.port.area (v.extractLsb' 0 8)).part.Settled q' :=
    State.act_settled (hwritten.trans h) hstart hservice
  refine ⟨_, exec_causeWrite_of_endsHold hpin hends, ?_⟩
  cases hquiet : s.part.heldQuiet with
  | false =>
    have hwaits : q.takePending s.port.area = q := by
      rw [Part.takePending, show q.ladder.pending = some r from hpending]
      exact if_neg (by rw [Part.takesAtOnce_of_held hqheld, show q.heldQuiet = false from hquiet]; decide)
    have hq := settled hwaits (by rw [hqheld]; decide) (by rw [hqheld]; decide)
    rw [hq.ladder, hq.hasCause, hq.capture, hq.frames]
    exact ⟨hhold, fun _ => ⟨hcause, hvalid⟩, fun _ => ⟨hheld, hpending, rfl⟩, nofun, nofun, nofun, nofun, nofun⟩
  | true =>
    have htaken := Part.takePending_of_heldQuiet hqheld hquiet hpending s.port.area
    cases r with
    | run =>
      have hq := settled (htaken.trans (Part.takeRequest_run_of_held hqheld hhold _)) (by simp) (by simp)
      rw [hq.ladder, hq.hasCause, hq.hasCause, hq.capture, hq.cycle, Part.enterRun_capture, Part.enterRun_ladder,
        Part.enterRun_hasCause, Part.enterRun_hasCause, Part.enterRun_cycle]
      refine ⟨hhold, fun _ => ⟨?_, hvalid⟩, nofun, fun _ _ => ⟨rfl, rfl, by simp, rfl⟩, nofun, nofun, nofun, nofun⟩
      rw [show (q.writeState .run).hasCause .fault = false from hcause]
      rfl
    | hold =>
      have hq := settled (htaken.trans (Part.takeRequest_hold_of_held _ hqheld))
        (by rw [show q.emptySlot.ladder.state = .held from hheld]; decide)
        (by rw [show q.emptySlot.ladder.state = .held from hheld]; decide)
      rw [hq.ladder, hq.hasCause, hq.capture, hq.frames]
      exact ⟨hhold, fun _ => ⟨hcause, hvalid⟩, nofun, nofun, fun _ _ => ⟨hheld, rfl⟩, fun _ _ => rfl, nofun, nofun⟩
    | rest =>
      have hq := settled (htaken.trans (Part.takeRequest_rest_of_held _ hqheld))
        (by rw [show (q.emptySlot.giveBroadcast .rest .rest).ladder.state = .held from hheld]; decide)
        (by rw [show (q.emptySlot.giveBroadcast .rest .rest).ladder.state = .held from hheld]; decide)
      rw [hq.ladder, hq.hasCause, hq.capture, hq.frames]
      exact ⟨hhold, fun _ => ⟨hcause, hvalid⟩, nofun, nofun, fun _ _ => ⟨hheld, rfl⟩, nofun, fun _ _ => ⟨rfl, rfl⟩, nofun⟩
    | still =>
      have hskip : q.takeRequest s.port.area .still = q.emptySlot.skipRequest .still :=
        Part.takeRequest_of_skipped _ (by rw [hqheld]; rfl)
      have hladder : (q.emptySlot.skipRequest .still).ladder = q.emptySlot.ladder := Part.report_ladder _ _ _ (by decide)
      have hq := settled (htaken.trans hskip) (by rw [hladder, show q.emptySlot.ladder.state = .held from hheld]; decide)
        (by rw [hladder, show q.emptySlot.ladder.state = .held from hheld]; decide)
      have hcapture : (q.emptySlot.skipRequest .still).faults.capture =
          { valid := true, code := 6, detail := 0x0043, cycle := q.sched.cycle, further := 0 } := by
        rw [Part.skipRequest, Part.report_capture, show q.emptySlot.hasCause .fault = false from hcause,
          Capture.take_of_clear, show q.emptySlot.ladder.state = .held from hheld]
        rfl
      rw [hq.ladder, hq.hasCause, hq.capture, hcapture, hladder]
      refine ⟨hhold, fun h => h.elim nofun fun h => absurd rfl h, nofun, nofun, fun _ _ => ⟨hheld, rfl⟩, nofun, nofun,
        fun _ _ => ⟨?_, rfl, rfl⟩⟩
      simp [Part.skipRequest]

end Sys2Proof.Machine
end

section
/-!
SUPPORT. The rungs below HELD: what each move between HELD, RESTING, STILL, SETTLING and ROUSING leads to.
-/
namespace Sys2Proof.Machine

section
variable {s : State} {f : Part → Part} {q : Part}

/-- The state word goes on the request list at rest, too. -/
theorem Part.admits_stateWord (p : Part) {a : Access} (h : a.source = .stateWord) : p.admits a = true := by
  rw [Part.admits, h]
  exact Bool.or_true _

theorem State.act_stateWord (hf : f s.part = q) {a : Access} (ha : a ∈ q.bus) (h : a.source = .stateWord) :
    a ∈ (s.act f).part.bus :=
  s.act_admitted f (hf ▸ ha) (Part.admits_stateWord _ h)

theorem Part.writeState_bus (p : Part) (l : LadderState) :
    (p.writeState l).bus = p.bus ++ [{ offset := 0x40, write := some (stateWord l p.ladder.startCount), source := .stateWord }] := rfl

theorem Part.mem_writeState_bus (p : Part) (l : LadderState) :
    { offset := 0x40, write := some (stateWord l p.ladder.startCount), source := .stateWord } ∈ (p.writeState l).bus := by
  rw [Part.writeState_bus]
  exact List.mem_append_right _ (List.mem_singleton_self _)

/-! ## STILL -/

theorem exec_memoryAccessComplete_of_current {x : Access} (hx : s.current = some x) (hp : s.part.ladder.softPending = false)
    (host : Option Word) (dt : Nat) :
    exec (.memoryAccessComplete host dt) s =
      .next ((s.offList (x.memAfter s.port.area host s.mem)).act fun p =>
        (p.passTime dt).accessDone x.source (x.value s.port.area (x.memAfter s.port.area host s.mem))) := by
  change Host.Outcome.next (s.complete host dt) = _
  simp only [State.complete, hx, hp, Bool.false_eq_true, if_false]
  rfl

theorem State.current_of_bus {x : Access} (hruns : s.part.ladder.state.busRuns = true) (hx : s.part.bus.head? = some x) :
    s.current = some x := by
  rw [State.current, hruns]
  exact hx

/-- Settles O34: the state word goes out in RESTING, and its end enters STILL. -/
theorem stillFromResting : Obligations.StillFromResting := by
  refine ⟨fun s nudge hc hrest => ?begun, fun s x rest w dt hm hrest hstilling hp hbus hsource hw hnone => ?entered⟩
  case begun =>
    obtain ⟨f, hexec, hf⟩ := exec_request_of_takes hc (by rw [Part.takesAtOnce, hrest]) (by rw [hrest]; rfl) .still nudge
    have hf := hf.trans (Part.takeRequest_still_of_resting _ hrest)
    have hstate : s.part.emptySlot.beginStill.ladder.state = .resting := hrest
    have hq := State.act_settled hf (by rw [hstate]; decide) (by rw [hstate]; decide)
    have hword := State.act_stateWord hf (Part.mem_writeState_bus _ _) rfl
    exact ⟨_, hexec, by rw [hq.ladder]; exact hrest, by rw [hq.ladder]; rfl, by rw [hq.ladder]; rfl, _, hword, rfl, rfl, rfl⟩
  case entered =>
    have hx : s.current = some x := State.current_of_bus (by rw [hrest]; rfl) (by rw [hbus]; rfl)
    let p := (s.offList (x.memAfter s.port.area none s.mem)).part.passTime dt
    have hbus' : p.bus = rest := by
      change s.part.bus.tail = rest
      rw [hbus]
      rfl
    have hdone : p.accessDone x.source (x.value s.port.area (x.memAfter s.port.area none s.mem)) = p.enterStill := by
      have hany : p.bus.any (fun a => a.source == .stateWord) = false := by
        rw [hbus', List.any_eq_false]
        intro y hy
        simpa using hnone y hy
      rw [hsource]
      change p.stateWordEnded = _
      rw [Part.stateWordEnded, if_pos]
      rw [hany, show p.ladder.state = .resting from hrest, show p.ladder.stilling = true from hstilling]
      rfl
    have hstate : p.enterStill.ladder.state = .still := rfl
    have hq := State.act_settled (s := s.offList (x.memAfter s.port.area none s.mem))
      (f := fun p => (p.passTime dt).accessDone x.source (x.value s.port.area (x.memAfter s.port.area none s.mem))) hdone
      (by rw [hstate]; decide) (by rw [hstate]; decide)
    refine ⟨_, exec_memoryAccessComplete_of_current hx hp none dt, ?_⟩
    rw [hq.ladder, hq.frames, hq.hasCause, State.act_mem]
    refine ⟨rfl, rfl, rfl, rfl, rfl, by simp [Part.enterStill], ?_⟩
    change (x.memAfter s.port.area none s.mem).readWord _ = w
    rw [x.memAfter_of_write hw]
    exact Memory.readWord_writeWord hm _ w

/-! ## SETTLING -/

theorem Part.enterResting_ladder (p : Part) :
    p.enterResting.ladder = { p.ladder with state := .resting, wakeSeen := false } := rfl

theorem Part.enterResting_frames (p : Part) : p.enterResting.frames = p.frames.settleAt .sensing := rfl

/-- The way to RESTING before its CAUSE bit and its state word: what is cut, what is parked, and the receiver. -/
def Part.restingLine (p : Part) : Part :=
  (p.cutSnapshot.parkParcels.modLadder fun l => { l with state := .resting, wakeSeen := false }).frameState .sensing

theorem Part.enterResting_eq (p : Part) : p.enterResting = (p.restingLine.setCause .ladder).writeState .resting := rfl

theorem Part.enterResting_hasCause (p : Part) : p.enterResting.hasCause .ladder = true := by
  change (p.restingLine.setCause .ladder).hasCause .ladder = true
  rw [Part.setCause_hasCause]
  exact Bool.or_true _

theorem Part.mem_enterResting_bus (p : Part) :
    { offset := 0x40, write := some (stateWord .resting p.ladder.startCount), source := .stateWord } ∈ p.enterResting.bus := by
  rw [Part.enterResting_eq]
  exact Part.mem_writeState_bus _ _

/-- What RESTING, just entered, keeps of itself whatever request it takes (R155, R157). -/
structure Rested (p q : Part) : Prop where
  notStarting : q.ladder.state ≠ .starting
  notService : q.ladder.state ≠ .heldService
  settle : q.ladder.settle = p.ladder.settle
  wakeSeen : q.ladder.wakeSeen = p.ladder.wakeSeen
  cause : p.hasCause .ladder = true → q.hasCause .ladder = true
  bus : p.bus ⊆ q.bus

theorem Taken.rested {p : Part} {area : Word} {r : Request} (h : Taken p area r q) (hrest : p.ladder.state = .resting) :
    Rested p q := by
  have hstate := h.ofResting hrest
  have hstart : q.ladder.state ≠ .starting := by rcases hstate with h | h <;> rw [h] <;> decide
  have hservice : q.ladder.state ≠ .heldService := by rcases hstate with h | h <;> rw [h] <;> decide
  cases h with
  | rouses =>
    exact ⟨hstart, hservice, rfl, rfl, id, List.subset_append_left _ _⟩
  | stills => exact ⟨hstart, hservice, rfl, rfl, id, List.subset_append_left _ _⟩
  | skips =>
    have hladder : (p.emptySlot.skipRequest r).ladder = p.emptySlot.ladder := Part.report_ladder _ _ _ (by decide)
    refine ⟨hstart, hservice, by rw [hladder]; rfl, by rw [hladder]; rfl, fun h => ?_, ?_⟩
    · rw [Part.skipRequest, Part.report_hasCause, show p.emptySlot.hasCause .ladder = true from h]
      rfl
    · rw [Part.skipRequest, Part.report_bus]
      exact List.Subset.refl _
  | starts idle => exact absurd (hrest.symm.trans idle) (by decide)
  | runs held => exact absurd (hrest.symm.trans held) (by decide)
  | settles still => exact absurd (hrest.symm.trans still) (by decide)
  | _ => exact ⟨hstart, hservice, rfl, rfl, id, List.Subset.refl _⟩

theorem Part.takePending_rested (p : Part) (hrest : p.ladder.state = .resting) (area : Word) :
    Rested p (p.takePending area) := by
  rcases p.takePending_cases area with h | ⟨r, -, -, h⟩
  · rw [h]
    exact ⟨by rw [hrest]; decide, by rw [hrest]; decide, rfl, rfl, id, List.Subset.refl _⟩
  · exact h.rested hrest

/-- Settles O35: the way up from STILL, whose last step takes what waits, or the soft reset. -/
theorem restFromStill : Obligations.RestFromStill := by
  refine ⟨fun s nudge hc hstill => ?begun, fun s hsettling htimer hwaiting => ?ended, fun s htimer hwaiting => ?reset⟩
  case begun =>
    obtain ⟨f, hexec, hf⟩ := exec_request_of_takes hc (by rw [Part.takesAtOnce, hstill]) (by rw [hstill]; rfl) .rest nudge
    have hf := hf.trans (Part.takeRequest_rest_of_still _ hstill)
    have hstate : s.part.emptySlot.enterSettling.ladder.state = .settling := rfl
    have hq := State.act_settled hf (by rw [hstate]; decide) (by rw [hstate]; decide)
    refine ⟨_, hexec, ?_⟩
    rw [hq.ladder]
    exact ⟨rfl, rfl, rfl, rfl⟩
  case reset =>
    refine ⟨s.softReset, ?_, rfl, rfl, rfl⟩
    change execSettleTimerExpiry s = _
    rw [execSettleTimerExpiry, if_pos (by rw [htimer, hwaiting]; rfl)]
  case ended =>
    let rested := (s.part.modLadder fun l => { l with settle := none }).enterResting
    have hrested : rested.ladder.state = .resting := Part.enterResting_ladderState _
    have hpending : rested.ladder.pending = s.part.ladder.pending := rfl
    have hexec : exec .settleTimerExpiry s = .next (s.act fun p => p.settleExpired s.port.area) := by
      change execSettleTimerExpiry s = _
      rw [execSettleTimerExpiry, if_neg (by rw [hwaiting, Bool.and_false]; decide), State.actIf,
        if_pos (by rw [htimer, hsettling]; rfl)]
    have hkept : Rested rested (rested.takePending s.port.area) := rested.takePending_rested hrested s.port.area
    have hq := State.act_settled (s := s) (f := fun p => p.settleExpired s.port.area) rfl hkept.notStarting hkept.notService
    have hword : { offset := 0x40, write := some (stateWord .resting s.part.ladder.startCount), source := .stateWord } ∈
        rested.bus := Part.mem_enterResting_bus _
    refine ⟨_, hexec, ?_, ?_, ?_, ⟨_, State.act_stateWord rfl (hkept.bus hword) rfl, rfl, rfl, rfl⟩,
      fun hnone => ?_, fun hhold => ?_⟩
    · rw [hq.ladder]
      exact hkept.settle
    · rw [hq.ladder]
      exact hkept.wakeSeen
    · rw [hq.hasCause]
      exact hkept.cause (Part.enterResting_hasCause _)
    · have hsame : s.part.settleExpired s.port.area = rested := by
        change rested.takePending s.port.area = rested
        rw [Part.takePending, hpending, hnone]
      rw [hq.ladder, hq.frames, hsame]
      exact ⟨hrested, rfl⟩
    · have hroused : s.part.settleExpired s.port.area = rested.emptySlot.enterRousing := by
        change rested.takePending s.port.area = _
        rw [Part.takePending, hpending, hhold]
        dsimp only
        rw [if_pos (by rw [Part.takesAtOnce, hrested]), Part.takeRequest_hold_of_resting _ hrested]
      have hrouse : { offset := 0x40, write := some (stateWord .rousing s.part.ladder.startCount), source := .stateWord } ∈
          rested.emptySlot.enterRousing.bus := Part.mem_writeState_bus _ _
      rw [hq.ladder, hq.frames, hroused]
      exact ⟨rfl, rfl, rfl, _, State.act_stateWord hroused hrouse rfl, rfl, rfl, rfl⟩

/-! ## HELD -/

/-- Settles O36: the HOLD frame sent is recorded, and nothing waits to be taken. -/
theorem holdFrameSentInHeld : Obligations.HoldFrameSentInHeld := by
  intro s hheld hguard hexchange hpending
  let sent := (s.part.frameState .listening).modLadder fun l => { l with holdSent := true, heldNamed := false }
  let q := if s.part.ladder.heldNamed then sent.setCause .ladder else sent
  have hcan : (s.part.ladder.state == .held && s.part.frames.hasSent .hold) = true := by
    rw [hheld, FrameEngine.hasSent, hguard, hexchange]
    rfl
  have hladder : q.ladder = { s.part.ladder with holdSent := true, heldNamed := false } := by
    change (if s.part.ladder.heldNamed then sent.setCause .ladder else sent).ladder = _
    split <;> rfl
  have hf : s.part.holdFrameSent s.port.area = q := by
    change q.takePending s.port.area = q
    rw [Part.takePending, hladder, hpending]
  have hq := State.act_settled (s := s) (f := fun p => p.holdFrameSent s.port.area) hf
    (by rw [hladder, hheld]; decide) (by rw [hladder, hheld]; decide)
  refine ⟨s.act fun p => p.holdFrameSent s.port.area, ?_, ?_⟩
  · change execHoldFrameSent s = _
    rw [execHoldFrameSent, State.actIf, if_pos hcan]
  · rw [hq.ladder, hq.frames, hq.hasCause, hladder]
    refine ⟨hheld, rfl, ?_, fun hnamed => ?_, fun hnamed => ?_⟩
    · change (if s.part.ladder.heldNamed then sent.setCause .ladder else sent).frames.state = _
      split <;> rfl
    · change (if s.part.ladder.heldNamed then sent.setCause .ladder else sent).hasCause .ladder = true
      rw [if_pos hnamed]
      simp
    · change (if s.part.ladder.heldNamed then sent.setCause .ladder else sent).hasCause .ladder = _
      rw [if_neg (by simp [hnamed])]
      rfl

/-- Settles O37: the quiet line takes the pending request as Table 9-3 judges it in HELD. -/
theorem pendingTakenWhenQuiet : Obligations.PendingTakenWhenQuiet := by
  intro s hheld hquiet
  have taken {r : Request} {q : Part} (hpending : s.part.ladder.pending = some r) (hq : s.part.takeRequest s.port.area r = q)
      (hstart : q.ladder.state ≠ .starting) (hservice : q.ladder.state ≠ .heldService) :
      ∃ t, exec .heldLineQuiet s = .next t ∧ t.part.Settled q :=
    ⟨_, exec_heldLineQuiet_of_quietDue hheld (Part.quietDue_of_pending hquiet hpending),
      State.act_settled ((Part.takePending_of_heldQuiet hheld hquiet hpending _).trans hq) hstart hservice⟩
  have heldOk {q : Part} (h : q.ladder.state = .held) : q.ladder.state ≠ .starting ∧ q.ladder.state ≠ .heldService := by
    rw [h]
    decide
  refine ⟨fun hpending hclear => ?run, fun hpending hhold => ?kept, fun hpending => ?rest, fun hpending => ?hold,
    fun hpending => ?still⟩
  case run =>
    obtain ⟨t, hexec, hq⟩ := taken hpending (Part.takeRequest_run_of_held hheld hclear _) (by simp) (by simp)
    refine ⟨t, hexec, ?_⟩
    rw [hq.ladder, hq.cycle, hq.schedState]
    exact ⟨by simp, by simp, by simp [Part.writeState], by simp⟩
  case kept =>
    obtain ⟨hstart, hservice⟩ := heldOk (q := s.part.keepPending .run) hheld
    obtain ⟨t, hexec, hq⟩ := taken hpending (Part.takeRequest_run_of_faultHold hheld hhold _) hstart hservice
    refine ⟨t, hexec, ?_⟩
    rw [hq.ladder]
    exact ⟨hheld, rfl⟩
  case rest =>
    obtain ⟨hstart, hservice⟩ := heldOk (q := s.part.emptySlot.giveBroadcast .rest .rest) hheld
    obtain ⟨t, hexec, hq⟩ := taken hpending (Part.takeRequest_rest_of_held _ hheld) hstart hservice
    refine ⟨t, hexec, ?_⟩
    rw [hq.ladder, hq.frames]
    exact ⟨hheld, rfl, rfl⟩
  case hold =>
    obtain ⟨hstart, hservice⟩ := heldOk (q := s.part.emptySlot) hheld
    obtain ⟨t, hexec, hq⟩ := taken hpending (Part.takeRequest_hold_of_held _ hheld) hstart hservice
    refine ⟨t, hexec, ?_⟩
    rw [hq.ladder, hq.frames, hq.capture]
    exact ⟨hheld, rfl, rfl, rfl⟩
  case still =>
    obtain ⟨hladder, hframes, hfault, -, -, hcaptured⟩ := State.act_of_skip (s := s) (r := .still)
      (f := fun p => p.takePending s.port.area)
      ((Part.takePending_of_heldQuiet hheld hquiet hpending _).trans (Part.takeRequest_of_skipped _ (by rw [hheld]; rfl)))
      (by rw [hheld]; decide) (by rw [hheld]; decide)
    refine ⟨_, exec_heldLineQuiet_of_quietDue hheld (Part.quietDue_of_pending hquiet hpending), ?_⟩
    rw [hladder, hframes]
    refine ⟨hheld, rfl, rfl, hfault, fun hclear => ?_⟩
    obtain ⟨hcode, hdetail⟩ := hcaptured hclear
    rw [hdetail, hheld]
    exact ⟨hcode, rfl⟩

/-! ## RESTING -/

/-- Settles O42: the onset sets both, or finds wake-seen set. -/
theorem lineActivityInResting : Obligations.LineActivityInResting := by
  intro s hsensing
  have harm : exec .lineActivity s = .next (s.plain fun p => p.lineActivity) := by
    change execLineActivity s = _
    rw [execLineActivity, State.plainIf, if_pos (by rw [hsensing]; rfl)]
  refine ⟨fun hclear => ?_, fun hset => ?_⟩
  · rw [harm, State.plain, Part.lineActivity, if_neg (by simp [hclear])]
    rfl
  · rw [harm, State.plain, Part.lineActivity, if_pos hset]

end

end Sys2Proof.Machine
end

section
/-!
SUPPORT. The cycle in RUN: the cycle timer, the end of the close, and the frames as they go on the line.
-/
namespace Sys2Proof.Machine

/-! ## The cycle timer and the overrun latch through `settle` -/

section
variable (s : State) (f : Part → Part)

theorem State.act_timer : (s.act f).part.sched.timer = (f s.part).sched.timer := by
  obtain ⟨-, -, -, -, -, htimer, -⟩ := s.act_keeps f
  exact htimer

theorem State.act_overrun : (s.act f).part.sched.overrun = (f s.part).sched.overrun := by
  obtain ⟨-, -, -, -, -, -, hoverrun, -⟩ := s.act_keeps f
  exact hoverrun

end

theorem Part.Settled.counter {p q : Part} (h : q.Settled p) (c : Counter) : q.counter c = p.counter c := by
  rw [Part.counter, h.counters]
  rfl

theorem Part.Settled.node {p q : Part} (h : q.Settled p) (i : NodeIx) : q.node i = p.node i := by
  rw [Part.node, h.records]
  rfl

theorem Part.Settled.nodeEvents {p q : Part} (h : q.Settled p) (i : NodeIx) : q.nodeEvents i = p.nodeEvents i := by
  rw [Part.nodeEvents, h.nodes]
  rfl

section
variable (p : Part)

theorem Part.startCycle_overrun : p.startCycle.sched.overrun = p.sched.overrun := by simp [Part.startCycle]

theorem Part.startCycle_capture : p.startCycle.faults.capture = p.faults.capture := by simp [Part.startCycle]

theorem Part.startCycle_cyclesStarted : p.startCycle.counter .cyclesStarted = p.counter .cyclesStarted + 1 := by
  rw [Part.counter, Part.startCycle_counters]
  exact (p.count_counter .cyclesStarted .cyclesStarted).trans (if_pos rfl)

/-! ## CYCLE_TIMER_EXPIRY (R28 to R30), one equation per case -/

/-- The cycle timer runs on for one period. -/
def Part.timerRunsOn : Part := p.modSched fun s => { s with timer := some (p.loader.settings.cyclePeriod * Config.periodUnit) }

theorem Part.cycleExpiry_of_stopped (h : p.sched.state = .stopped) : p.cycleExpiry = p.timerRunsOn.startCycle := if_pos h

theorem Part.cycleExpiry_of_overrun (h : p.sched.state ≠ .stopped) (ho : p.sched.overrun = true) :
    p.cycleExpiry = p.timerRunsOn.count .expiriesSkipped := (if_neg h).trans (if_pos ho)

theorem Part.cycleExpiry_of_cycle (h : p.sched.state ≠ .stopped) (ho : p.sched.overrun = false) :
    p.cycleExpiry =
      ((p.timerRunsOn.modSched fun s => { s with overrun := true }).count .cycleOverruns).report .cycleOverrun 0 :=
  (if_neg h).trans (if_neg (Bool.eq_false_iff.mp ho))

theorem Part.cycleExpiry_timer : p.cycleExpiry.sched.timer = some (p.loader.settings.cyclePeriod * 20) := by
  by_cases h : p.sched.state = .stopped
  · rw [p.cycleExpiry_of_stopped h, Part.startCycle_timer]
    rfl
  · cases ho : p.sched.overrun with
    | true => rw [p.cycleExpiry_of_overrun h ho]; rfl
    | false => rw [p.cycleExpiry_of_cycle h ho, Part.report_sched]; rfl

end

/-- Settles O44: the three cases of an expiry in RUN. -/
theorem cycleTimerExpires : Obligations.CycleTimerExpires := by
  intro s hrun htimer
  have hexec : exec .cycleTimerExpiry s = .next (s.act fun p => p.cycleExpiry) := by
    change execCycleTimerExpiry s = _
    rw [execCycleTimerExpiry, State.actIf, if_pos (by rw [hrun, htimer]; rfl)]
  have hladder : s.part.cycleExpiry.ladder = s.part.ladder := by simp
  have settled {q : Part} (h : s.part.cycleExpiry = q) : (s.act fun p => p.cycleExpiry).part.Settled q :=
    State.act_settled h (by rw [← h, hladder, hrun]; decide) (by rw [← h, hladder, hrun]; decide)
  refine ⟨_, hexec, ?_, ?_, ?_, fun hstopped => ?_, fun hcycle => ?_, fun hcycle hlatch => ?_, fun hcycle hlatch => ?_⟩
  · rw [State.act_timer, Part.cycleExpiry_timer]
  · rw [(settled rfl).ladder, hladder, hrun]
  · rw [(settled rfl).ladder, hladder]
  · have hstart := s.part.cycleExpiry_of_stopped hstopped
    have hq := settled hstart
    rw [hq.schedState, hq.cycle, hq.counter, State.act_overrun, hstart, Part.startCycle_overrun, Part.startCycle_cyclesStarted]
    exact ⟨by simp, by simp [Part.timerRunsOn, Part.modSched], rfl, rfl⟩
  · have hq := settled rfl
    rw [hq.schedState, hq.cycle, State.act_overrun]
    cases hlatch : s.part.sched.overrun with
    | true =>
      rw [s.part.cycleExpiry_of_overrun hcycle hlatch]
      exact ⟨rfl, rfl, hlatch⟩
    | false =>
      rw [s.part.cycleExpiry_of_cycle hcycle hlatch, Part.report_sched]
      exact ⟨rfl, rfl, rfl⟩
  · have hq := settled (s.part.cycleExpiry_of_cycle hcycle hlatch)
    rw [hq.counter, hq.hasCause, hq.capture, Part.report_capture]
    refine ⟨?_, by simp, fun hclear => ?_⟩
    · rw [Part.counter, Part.report_counters_of_ne_memory _ _ _ (by decide)]
      exact (Part.count_counter _ .cycleOverruns .cycleOverruns).trans (if_pos rfl)
    · change (Capture.take _ (s.part.hasCause .fault) _ _ _).code = 7
      rw [hclear, Capture.take_of_clear]
      rfl
  · have hq := settled (s.part.cycleExpiry_of_overrun hcycle hlatch)
    rw [hq.counter, hq.capture]
    exact ⟨(Part.count_counter _ .expiriesSkipped .expiriesSkipped).trans (if_pos rfl), rfl⟩

/-! ## CLOSE_COMPLETE (R41, R42) -/

section
variable (p : Part)

theorem Part.judgeInRun_sched : p.judgeInRun.sched = p.sched := by
  unfold Part.judgeInRun
  (repeat' split) <;> simp [Part.skipRequest, Part.emptySlot]

theorem Part.judgeInRun_faultHold : p.judgeInRun.ladder.faultHold = p.ladder.faultHold := by
  unfold Part.judgeInRun
  (repeat' split) <;> simp [Part.skipRequest, Part.emptySlot]

/-- In RUN the pending request is used up; a RUN request the fault hold keeps. -/
theorem Part.judgeInRun_pending :
    p.judgeInRun.ladder.pending =
      if p.ladder.pending = some .run ∧ p.ladder.faultHold = true then some .run else none := by
  unfold Part.judgeInRun
  split
  next h => simp [h]
  next h =>
    split
    next hold => simp [h, hold]
    next hold => simp [hold, Part.emptySlot]
  next h => simp [h, Part.emptySlot]
  next h => simp [h, Part.skipRequest, Part.emptySlot]
  next h => simp [h, Part.skipRequest, Part.emptySlot]

/-- REST and STILL are skipped in RUN (R42, R148). -/
theorem Part.judgeInRun_of_skipped {r : Request} (hr : r = .rest ∨ r = .still) (h : p.ladder.pending = some r) :
    p.judgeInRun = p.emptySlot.skipRequest r := by
  rcases hr with rfl | rfl <;> rw [Part.judgeInRun, h]

theorem Part.closeInRun_faults_cause : p.closeInRun.faults.cause = p.faults.cause := by
  unfold Part.closeInRun
  split <;> simp

/-- What the end of a cycle in RUN does with the latch (R41, R42). -/
theorem Part.closeInRun_clock :
    p.closeInRun.sched.overrun = false ∧ p.closeInRun.sched.timer = p.sched.timer ∧
      (p.sched.overrun = true → p.closeInRun.sched.state = .opening ∧ p.closeInRun.sched.cycle = p.sched.cycle + 1) ∧
      (p.sched.overrun = false → p.closeInRun.sched.state = .stopped ∧ p.closeInRun.sched.cycle = p.sched.cycle) := by
  unfold Part.closeInRun
  cases hlatch : p.sched.overrun with
  | true =>
    rw [if_pos rfl]
    exact ⟨Part.startCycle_overrun _, Part.startCycle_timer _,
      fun _ => ⟨Part.startCycle_schedState _, Part.startCycle_cycle _⟩, nofun⟩
  | false => exact ⟨hlatch, rfl, nofun, fun _ => ⟨rfl, rfl⟩⟩

theorem Part.closeInRun_capture : p.closeInRun.faults.capture = p.faults.capture := by
  unfold Part.closeInRun
  split
  · exact Part.startCycle_capture _
  · rfl

end

theorem Part.closeComplete_of_leaves {p : Part} (hrun : p.ladder.state = .run) (h : p.leavesRun = true) :
    p.closeComplete = p.judgeInRun.leaveRun (p.ladder.pending == some .hold) := by
  rw [Part.closeComplete, if_pos hrun, if_pos h]

theorem Part.closeComplete_of_stays {p : Part} (hrun : p.ladder.state = .run) (h : p.leavesRun = false) :
    p.closeComplete = p.judgeInRun.closeInRun := by
  rw [Part.closeComplete, if_pos hrun, if_neg (by rw [h]; decide)]

theorem Part.leavesRun_iff {p : Part} : p.leavesRun = true ↔ p.ladder.pending = some .hold ∨ p.ladder.faultHold = true := by
  simp [Part.leavesRun]

theorem Part.passTime_zero (p : Part) : p.passTime 0 = p := by
  simp [Part.passTime, Part.modSched]

/-! ## The completion of the access in progress, by whatever command it falls -/

/-- The state without the access in progress, memory as the access leaves it, and the word it carries. -/
def State.afterWord (s : State) (x : Access) (host : Option Word) : State := s.offList (x.memAfter s.port.area host s.mem)

def State.wordOf (s : State) (x : Access) (host : Option Word) : Word :=
  x.value s.port.area (x.memAfter s.port.area host s.mem)

theorem State.complete_of_current {s : State} {x : Access} (hx : s.current = some x) (hp : s.part.ladder.softPending = false)
    (host : Option Word) (dt : Nat) :
    s.complete host dt = (s.afterWord x host).act fun p => (p.passTime dt).accessDone x.source (s.wordOf x host) :=
  Host.Outcome.next.inj (exec_memoryAccessComplete_of_current hx hp host dt)

theorem State.completeIf_of_current {s : State} {x : Access} (hx : s.current = some x) (hp : s.part.ladder.softPending = false)
    {mine : Access → Bool} (hmine : mine x = true) (host : Option Word) (dt : Nat) :
    s.completeIf mine host dt = (s.afterWord x host).act fun p => (p.passTime dt).accessDone x.source (s.wordOf x host) := by
  rw [State.completeIf, hx]
  dsimp only
  rw [if_pos hmine, State.complete_of_current hx hp]

/-- Settles O47: the hold check at the close, and what a cycle that stays in RUN does with the pending request and the latch. -/
theorem closeCompletes : Obligations.CloseCompletes := by
  intro s x hx hsource hp hrun
  let p := (s.afterWord x none).part
  let f : Part → Part := fun p => (p.passTime 0).accessDone x.source (s.wordOf x none)
  have hexec : exec .closeComplete s = .next ((s.afterWord x none).act f) :=
    congrArg Host.Outcome.next (State.completeIf_of_current hx hp (by rw [hsource]; rfl) none 0)
  have hf : f p = p.closeComplete := by
    change (p.passTime 0).accessDone x.source _ = _
    rw [hsource, p.passTime_zero]
    rfl
  have hprun : p.ladder.state = .run := hrun
  refine ⟨_, hexec, fun hleave => ?left, fun hnohold hclear => ?stays⟩
  case left =>
    have hdone := hf.trans (Part.closeComplete_of_leaves hprun (Part.leavesRun_iff.mpr hleave))
    have hheld := p.judgeInRun.leaveRun_ladderState (p.ladder.pending == some .hold)
    have hq := State.act_settled hdone (by rw [hheld]; decide) (by rw [hheld]; decide)
    rw [State.act_timer, State.act_overrun, hq.ladder, hq.schedState, hq.cycle, hq.frames, hdone]
    refine ⟨hheld, rfl, rfl, rfl, ?_, rfl, rfl, ?_⟩
    · change p.judgeInRun.sched.cycle = p.sched.cycle
      rw [p.judgeInRun_sched]
    · change p.judgeInRun.ladder.pending = _
      rw [Part.judgeInRun_pending]
      change (if s.part.ladder.pending = some .run ∧ s.part.ladder.faultHold = true then some Request.run else none) = _
      by_cases hpending : s.part.ladder.pending = some .run
      · have hhold : s.part.ladder.faultHold = true := hleave.resolve_left (by rw [hpending]; decide)
        rw [if_pos ⟨hpending, hhold⟩, if_pos hpending]
      · rw [if_neg fun h => hpending h.1, if_neg hpending]
  case stays =>
    have hstays : p.leavesRun = false := by
      rw [Bool.eq_false_iff, ne_eq, Part.leavesRun_iff]
      rintro (h | h)
      · exact hnohold h
      · exact Bool.eq_false_iff.mp hclear h
    have hdone := hf.trans (Part.closeComplete_of_stays hprun hstays)
    have hstate : p.judgeInRun.closeInRun.ladder.state = .run := by
      rw [Part.closeInRun_ladder, Part.judgeInRun_ladderState, hprun]
    have hq := State.act_settled hdone (by rw [hstate]; decide) (by rw [hstate]; decide)
    have hsched := p.judgeInRun_sched
    rw [State.act_timer, State.act_overrun, hq.ladder, hq.schedState, hq.cycle, hq.hasCause, hq.capture,
      show f (s.afterWord x none).part = _ from hdone, Part.closeInRun_capture]
    have hpending : p.judgeInRun.closeInRun.ladder.pending = none := by
      rw [Part.closeInRun_ladder, Part.judgeInRun_pending, if_neg]
      rintro ⟨-, h⟩
      exact Bool.eq_false_iff.mp hclear h
    obtain ⟨hoverrun, htimer, hlate, hstop⟩ := p.judgeInRun.closeInRun_clock
    rw [hsched] at htimer hlate hstop
    refine ⟨hstate, hpending, hoverrun, htimer, hlate, hstop, fun hskip => ?_⟩
    obtain ⟨r, hr, hrp⟩ : ∃ r, (r = .rest ∨ r = .still) ∧ p.ladder.pending = some r := by
      rcases hskip with h | h
      · exact ⟨.rest, .inl rfl, h⟩
      · exact ⟨.still, .inr rfl, h⟩
    rw [Part.hasCause, Part.closeInRun_faults_cause, p.judgeInRun_of_skipped hr hrp]
    refine ⟨Part.report_hasCause _ _ _ .fault |>.trans (by simp), fun hclear => ?_⟩
    change (p.emptySlot.report .ladderSkip _).faults.capture.code = 6
    rw [Part.report_capture, show p.emptySlot.hasCause .fault = false from hclear, Capture.take_of_clear]
    rfl

end Sys2Proof.Machine
end

section
/-!
SUPPORT. The frame engine's own events: a frame given goes on the line, and an attempt's outcome is decided.
-/
namespace Sys2Proof.Machine

section
variable {s : State}

theorem exec_frameStart (hsending : s.part.frames.state = .sending) (hline : s.part.frames.onLine = false) :
    exec .frameStart s = .next { s with part := s.part.frameStart } := by
  change execFrameStart s = _
  rw [execFrameStart, State.plainIf, if_pos (by rw [hsending, hline]; rfl)]
  rfl

theorem exec_requestSent (hsending : s.part.frames.state = .sending) (hline : s.part.frames.onLine = true) :
    exec .requestSent s = .next { s with part := s.part.requestSent } := by
  change execRequestSent s = _
  rw [execRequestSent, State.plainIf, if_pos (by rw [hsending, hline]; rfl)]
  rfl

/-- A request's frame has been sent: the reply timer of the node it awaits, or the line's turnaround. -/
theorem Part.requestSent_of_awaits {p : Part} {ex : Exchange} {i : NodeIx} (hsending : p.frames.state = .sending)
    (hline : p.frames.onLine = true) (hex : p.frames.exchange = some ex) (hi : ex.awaits = some i) :
    p.requestSent = { p with frames := { p.frames with
      state := .awaiting, onLine := false, replyTimer := some (effectiveTimeout p.loader.settings (p.node i).applied) } } := by
  simp only [Part.requestSent, hsending, hline, hex, hi, and_self, if_true]

theorem Part.requestSent_of_noReply {p : Part} {ex : Exchange} (hsending : p.frames.state = .sending)
    (hline : p.frames.onLine = true) (hex : p.frames.exchange = some ex) (hi : ex.awaits = none) :
    p.requestSent =
      if ex = .window then { p with frames := { p.frames with state := .slotting, onLine := false, slot := 0, spill := false } }
      else { p with frames := { p.frames with state := .guarding, onLine := false } } := by
  simp only [Part.requestSent, hsending, hline, hex, hi, and_self, if_true]

/-- Settles O48: the frame on the line, and by its exchange what follows its last byte. -/
theorem frameSent : Obligations.FrameSent := by
  refine ⟨fun s hsending hline => ?start, fun s i hsending hline hex => ?awaits, fun s hsending hline hex => ?window,
    fun s hsending hline hex => ?guard⟩
  case start =>
    have hstart : s.part.frameStart =
        let p := { s.part with frames := { s.part.frames with onLine := true, late := false, counted := false } }
        if s.part.frames.exchange = some .window then p.count .windowsOpened else p := if_pos ⟨hsending, hline⟩
    refine ⟨_, exec_frameStart hsending hline, ?_⟩
    dsimp only at hstart ⊢
    rw [hstart]
    by_cases hwindow : s.part.frames.exchange = some .window
    · rw [if_pos hwindow]
      exact ⟨rfl, fun _ => (Part.count_counter _ .windowsOpened .windowsOpened).trans (if_pos rfl), fun h => absurd hwindow h,
        rfl, rfl, rfl, rfl⟩
    · rw [if_neg hwindow]
      exact ⟨rfl, fun h => absurd h hwindow, fun _ => rfl, rfl, rfl, rfl, rfl⟩
  case awaits =>
    obtain ⟨ex, hex, hi⟩ : ∃ ex, s.part.frames.exchange = some ex ∧ ex.awaits = some i := by
      rcases hex with ⟨a, h⟩ | h | ⟨a, h⟩ | ⟨k, a, b, h⟩ | ⟨k, a, b, h⟩ <;> exact ⟨_, h, rfl⟩
    rw [exec_requestSent hsending hline, Part.requestSent_of_awaits hsending hline hex hi]
    rfl
  case window =>
    rw [exec_requestSent hsending hline, Part.requestSent_of_noReply hsending hline hex rfl]
    rfl
  case guard =>
    obtain ⟨ex, hex, hi, hne⟩ : ∃ ex, s.part.frames.exchange = some ex ∧ ex.awaits = none ∧ ex ≠ .window := by
      rcases hex with h | h | h | ⟨i, k, h⟩ <;> exact ⟨_, h, rfl, by simp⟩
    rw [exec_requestSent hsending hline, Part.requestSent_of_noReply hsending hline hex hi, if_neg hne]

/-! ## The outcome of an attempt (R53 to R58) -/

theorem Part.decideAttempt_frames (p : Part) (a : Attempt) (rx : Option Frame) :
    (p.decideAttempt a rx).frames =
      { p.frames with state := .guarding, replyTimer := none, rx := rx, outcome := some a } := by
  unfold Part.decideAttempt
  dsimp only
  split <;> rfl

theorem Part.decideAttempt_counter (p : Part) (a : Attempt) (rx : Option Frame) (c : Counter) (hc : a.counter = some c) :
    (p.decideAttempt a rx).counter c = p.counter c + 1 := by
  unfold Part.decideAttempt
  dsimp only
  rw [hc]
  exact (Part.count_counter _ c c).trans (if_pos rfl)

theorem Part.decideAttempt_good_faults (p : Part) (rx : Option Frame) : (p.decideAttempt .good rx).faults = p.faults := rfl

/-- Carrier in the guard after a decided outcome: a GOOD one becomes DAMAGED, any other stays. -/
theorem Part.carrierInGuard_of_good {p : Part} (h : p.frames.outcome = some .good) (items : List LineItem) :
    p.carrierInGuard items = p.decideAttempt .damaged none := by
  rw [Part.carrierInGuard, if_pos h, Part.guardCarrier, if_pos h]

theorem Part.carrierInGuard_of_failed {p : Part} (h : p.frames.outcome ≠ some .good) (items : List LineItem) :
    p.carrierInGuard items = { p with frames := { p.frames with late := arrivesOn items } } := if_neg h

theorem Part.replyFrameEnd_of_exchange {p : Part} {ex : Exchange} (h : p.frames.takesReply = true)
    (hex : p.frames.exchange = some ex) (items : List LineItem) :
    p.replyFrameEnd items =
      if carrierAfter items then (p.judgeReply ex items).carrierInGuard (afterFrame items) else p.judgeReply ex items := by
  rw [Part.replyFrameEnd, if_pos h, hex]

/-- The reply after its frame's end: in the guard, its timer stopped, and a good outcome only without carrier behind it. -/
theorem Part.replyFrameEnd_guards {p : Part} {ex : Exchange} (h : p.frames.takesReply = true)
    (hex : p.frames.exchange = some ex) (items : List LineItem) :
    (p.replyFrameEnd items).frames.state = .guarding ∧ (p.replyFrameEnd items).frames.replyTimer = none := by
  have hjudged : (p.judgeReply ex items).frames.state = .guarding ∧ (p.judgeReply ex items).frames.replyTimer = none := by
    unfold Part.judgeReply
    (repeat' split) <;> (rw [Part.decideAttempt_frames]; exact ⟨rfl, rfl⟩)
  rw [Part.replyFrameEnd_of_exchange h hex]
  split
  · by_cases hgood : (p.judgeReply ex items).frames.outcome = some .good
    · rw [Part.carrierInGuard_of_good hgood, Part.decideAttempt_frames]
      exact ⟨rfl, rfl⟩
    · rw [Part.carrierInGuard_of_failed hgood]
      exact hjudged
  · exact hjudged

/-! ## Table 3-5 on the bits of HEAD -/

theorem head_ident (h : Byte) :
    h.extractLsb' 0 7 = 0x18 ↔
      (h.extractLsb' 3 4).toNat = 3 ∧ h.getLsbD 0 = false ∧ h.getLsbD 1 = false ∧ h.getLsbD 2 = false := by
  revert h
  decide

theorem head_segAck (h : Byte) :
    h.extractLsb' 0 7 = 0x28 ↔
      (h.extractLsb' 3 4).toNat = 5 ∧ h.getLsbD 0 = false ∧ h.getLsbD 1 = false ∧ h.getLsbD 2 = false := by
  revert h
  decide

theorem head_segRep (h : Byte) :
    h.extractLsb' 1 6 = 0x18 ↔ (h.extractLsb' 3 4).toNat = 6 ∧ h.getLsbD 1 = false ∧ h.getLsbD 2 = false := by
  revert h
  decide

/-- The kinds of Table 11-10 by their codes. -/
theorem Frame.kind_eq_some (f : Frame) (k : NodeKind) :
    f.kind = some k ↔ (f.head.extractLsb' 3 4).toNat =
      match k with
      | .data echo => if echo then 2 else 1
      | .ident => 3
      | .event => 4
      | .segAck => 5
      | .segRep => 6
      | .bid => 7
      | .alert => 8 := by
  unfold Frame.kind
  generalize f.head.extractLsb' 3 4 = b
  cases k with
  | data echo => cases echo <;> (revert b; decide)
  | _ => revert b; decide

variable (p : Part) (f : Frame) (i : NodeIx)

theorem Frame.fromNode_eq : f.fromNode = f.head.getLsbD 7 := by
  rw [Frame.fromNode, BitVec.msb_eq_getLsbD_last]

/-- What every good reply shows: a node's frame with the address asked. -/
abbrev Part.answers : Prop := f.head.getLsbD 7 = true ∧ f.address = (p.node i).applied.address

theorem Part.replyGood_poll (ack : Option Byte) :
    p.replyGood (.poll i ack) f = true ↔ p.answers f i ∧
      f.head.extractLsb' 3 4 = (if p.frames.toggles.get i then 2 else 1) ∧
      f.payload.length = (p.node i).applied.inLength := by
  have hkind : f.kind = some (.data (p.frames.toggles.get i)) ↔
      f.head.extractLsb' 3 4 = (if p.frames.toggles.get i then 2 else 1) := by
    rw [Frame.kind_eq_some, ← BitVec.toNat_inj]
    cases p.frames.toggles.get i <;> rfl
  unfold Part.replyGood
  simp only [Exchange.awaits, Frame.fromNode_eq, ← hkind]
  cases f.kind with
  | none => simp
  | some k => cases k <;> simp [Part.answers, Frame.wellFormedAs, and_comm, and_assoc]

theorem Part.replyGood_probe :
    p.replyGood (.probe i) f = true ↔ p.answers f i ∧ f.head.extractLsb' 0 7 = 0x18 ∧ f.payload.length = 4 := by
  unfold Part.replyGood
  simp only [Exchange.awaits, Frame.fromNode_eq, head_ident, ← Frame.kind_eq_some f .ident]
  cases f.kind with
  | none => simp
  | some k => cases k <;> simp [Part.answers, Frame.wellFormedAs, Frame.flag, and_comm, and_assoc]

theorem Part.replyGood_fetch (ack : Option Byte) :
    p.replyGood (.fetch i ack) f = true ↔ p.answers f i ∧ f.head.extractLsb' 3 4 = 4 ∧ f.head.getLsbD 2 = false ∧
      (f.head.getLsbD 0 = true ∧ f.head.getLsbD 1 = false ∧ f.payload.length = 0 ∨
        f.head.getLsbD 0 = false ∧ 3 ≤ f.payload.length ∧ f.payload.length ≤ 19) := by
  have hkind : f.kind = some .event ↔ f.head.extractLsb' 3 4 = 4 := by
    rw [Frame.kind_eq_some, ← BitVec.toNat_inj]
    rfl
  unfold Part.replyGood
  simp only [Exchange.awaits, Frame.fromNode_eq, ← hkind]
  cases f.kind with
  | none => simp
  | some k =>
    cases k <;> simp [Part.answers, Frame.wellFormedAs, Frame.flag]
    cases f.head[0] <;> simp [and_comm, and_assoc]

theorem pair_eq_iff (l : List Byte) (a b : Byte) :
    l = [a, b] ↔ l.length = 2 ∧ payloadByte l 0 = a ∧ payloadByte l 1 = b := by
  match l with
  | [] | [_] | _ :: _ :: _ :: _ => simp
  | [x, y] => simp [payloadByte]

theorem Part.replyGood_seg (slot : SlotIx) (tag segment : Byte) :
    p.replyGood (.seg i slot tag segment) f = true ↔ p.answers f i ∧
      f.head.extractLsb' 0 7 = 0x28 ∧ f.payload = [tag, segment] := by
  unfold Part.replyGood
  simp only [Exchange.awaits, Frame.fromNode_eq, head_segAck, ← Frame.kind_eq_some f .segAck, pair_eq_iff]
  cases f.kind with
  | none => simp
  | some k => cases k <;> simp [Part.answers, Frame.wellFormedAs, Frame.flag, and_comm, and_assoc, and_left_comm]

theorem head?_and_second (l : List Byte) (tag : Byte) (P : Byte → Prop) (h : 4 ≤ l.length) :
    (l.head? = some tag ∧ ∃ b, l[1]? = some b ∧ P b) ↔ payloadByte l 0 = tag ∧ P (payloadByte l 1) := by
  match l with
  | [] | [_] => simp at h
  | x :: y :: _ => simp [payloadByte]

theorem Part.replyGood_next (slot : SlotIx) (tag segment : Byte) :
    p.replyGood (.next i slot tag segment) f = true ↔ p.answers f i ∧
      f.head.extractLsb' 1 6 = 0x18 ∧ 4 ≤ f.payload.length ∧ f.payload.length ≤ 52 ∧ f.payload.head? = some tag ∧
      ∃ b, f.payload[1]? = some b ∧ b.extractLsb' 0 3 = segment.extractLsb' 0 3 := by
  have htag : (4 ≤ f.payload.length ∧ f.payload.length ≤ 52 ∧ f.payload.head? = some tag ∧
        ∃ b, f.payload[1]? = some b ∧ b.extractLsb' 0 3 = segment.extractLsb' 0 3) ↔
      4 ≤ f.payload.length ∧ f.payload.length ≤ 52 ∧ payloadByte f.payload 0 = tag ∧
        (payloadByte f.payload 1).extractLsb' 0 3 = segment.extractLsb' 0 3 :=
    and_congr_right fun h => and_congr_right fun _ => head?_and_second f.payload tag _ h
  rw [htag]
  unfold Part.replyGood
  simp only [Exchange.awaits, Frame.fromNode_eq, head_segRep, ← Frame.kind_eq_some f .segRep]
  cases f.kind with
  | none => simp
  | some k => cases k <;> simp [Part.answers, Frame.wellFormedAs, Frame.flag, and_comm, and_assoc, and_left_comm]

end

/-! ## REPLY_TIMER_LIMIT, REPLY_FRAME_END and LINE_CLASH -/

section
variable {s : State}

theorem exec_replyTimerLimit (h : s.part.frames.state = .awaiting) :
    exec .replyTimerLimit s = .next { s with part := s.part.decideAttempt .timeout none } := by
  change execReplyTimerLimit s = _
  rw [execReplyTimerLimit, State.plainIf, if_pos (by rw [h]; rfl), State.plain, Part.replyTimerLimit, if_pos h]

theorem exec_replyFrameEnd (h : s.part.frames.takesReply = true) (items : List LineItem) :
    exec (.replyFrameEnd items) s = .next { s with part := s.part.replyFrameEnd items } := by
  change execReplyFrameEnd items s = _
  rw [execReplyFrameEnd, State.plainIf, if_pos h]
  rfl

theorem exec_lineClash (s : State) :
    exec .lineClash s = .next { s with part := if s.part.frames.seesClash then s.part.lineClash else s.part } := by
  change execLineClash s = _
  rw [execLineClash, State.plainIf]
  split <;> rfl

theorem Part.lineClash_of_takesReply {p : Part} (h : p.frames.state = .awaiting ∨ p.frames.state = .receiving) :
    p.lineClash = p.decideAttempt .damaged none := by
  unfold Part.lineClash
  rcases h with h | h <;> rw [h]

theorem Part.lineClash_of_guard {p : Part} (h : p.frames.state = .guarding) {a : Attempt} (ha : p.frames.outcome = some a) :
    p.lineClash = if a = .good then p.decideAttempt .damaged none else p := by
  unfold Part.lineClash Part.guardCarrier
  rw [h, ha]
  simp only [Option.some.injEq]

theorem Part.lineClash_of_stray {p : Part}
    (h : p.frames.state = .listening ∨ p.frames.state = .guarding ∧ p.frames.outcome = none) : p.lineClash = p.strayClash := by
  unfold Part.lineClash
  rcases h with h | ⟨h, ho⟩
  · rw [h]
  · rw [h, ho]

theorem Part.strayFrame_frames (p : Part) : p.strayFrame.frames = p.frames := by
  unfold Part.strayFrame
  split <;> rfl

theorem Part.strayClash_of_counted {p : Part} (h : p.frames.counted = true) : p.strayClash = p := by
  have hframes : { p.frames with counted := true } = p.frames := by rw [← h]
  rw [Part.strayClash, if_pos h, hframes]

theorem Part.strayClash_frames (p : Part) : p.strayClash.frames = { p.frames with counted := true } := by
  unfold Part.strayClash
  dsimp only
  split
  · rfl
  · rw [Part.strayFrame_frames]

/-- Table 3-5 on a reply's kind, flags and length, exchange by exchange. -/
def Part.repliesTo (p : Part) (f : Frame) (i : NodeIx) : Exchange → Prop
  | .poll _ _ => f.head.extractLsb' 3 4 = (if p.frames.toggles.get i then 2 else 1) ∧
      f.payload.length = (p.node i).applied.inLength
  | .probe _ => f.head.extractLsb' 0 7 = 0x18 ∧ f.payload.length = 4
  | .fetch _ _ => f.head.extractLsb' 3 4 = 4 ∧ f.head.getLsbD 2 = false ∧
      (f.head.getLsbD 0 = true ∧ f.head.getLsbD 1 = false ∧ f.payload.length = 0 ∨
        f.head.getLsbD 0 = false ∧ 3 ≤ f.payload.length ∧ f.payload.length ≤ 19)
  | .seg _ _ tag segment => f.head.extractLsb' 0 7 = 0x28 ∧ f.payload = [tag, segment]
  | .next _ _ tag segment => f.head.extractLsb' 1 6 = 0x18 ∧ 4 ≤ f.payload.length ∧ f.payload.length ≤ 52 ∧
      f.payload.head? = some tag ∧ ∃ b, f.payload[1]? = some b ∧ b.extractLsb' 0 3 = segment.extractLsb' 0 3
  | _ => False

theorem Part.replyGood_eq_true (p : Part) (ex : Exchange) (f : Frame) (i : NodeIx) (hi : ex.awaits = some i) :
    p.replyGood ex f = true ↔ f.head.getLsbD 7 = true ∧ f.address = (p.node i).applied.address ∧ p.repliesTo f i ex := by
  cases ex with
  | poll j ack => cases hi; exact (p.replyGood_poll f i ack).trans and_assoc
  | probe j => cases hi; exact (p.replyGood_probe f i).trans and_assoc
  | fetch j ack => cases hi; exact (p.replyGood_fetch f i ack).trans and_assoc
  | seg j slot tag segment => cases hi; exact (p.replyGood_seg f i slot tag segment).trans and_assoc
  | next j slot tag segment => cases hi; exact (p.replyGood_next f i slot tag segment).trans and_assoc
  | _ => cases hi

/-- Settles O49: the three ways an attempt is decided, and a clash by the frame engine's state. -/
theorem replyDecided : Obligations.ReplyDecided := by
  refine ⟨fun s hawaiting => ?timeout, fun s ex i items hstate hex hi => ?reply, fun s => ?clash⟩
  case timeout =>
    refine ⟨_, exec_replyTimerLimit hawaiting, ?_⟩
    dsimp only
    rw [Part.decideAttempt_frames, Part.decideAttempt_counter _ _ _ _ rfl]
    exact ⟨rfl, rfl, rfl, rfl⟩
  case reply =>
    have htakes : s.part.frames.takesReply = true := by
      rcases hstate with h | h <;> (rw [FrameEngine.takesReply, h]; rfl)
    obtain ⟨hguard, htimer⟩ := Part.replyFrameEnd_guards htakes hex items
    refine ⟨_, exec_replyFrameEnd htakes items, hguard, htimer, fun hnone => ?damaged, fun f hf hquiet => ?judged,
      fun f hf hcarrier => ?carrier⟩
    case damaged =>
      have hjudge : s.part.judgeReply ex items = s.part.decideAttempt .damaged none := by rw [Part.judgeReply, hnone]
      have hfailed : (s.part.decideAttempt .damaged none).frames.outcome ≠ some .good := by
        rw [Part.decideAttempt_frames]
        exact nofun
      dsimp only
      rw [Part.replyFrameEnd_of_exchange htakes hex, hjudge]
      split
      · rw [Part.carrierInGuard_of_failed hfailed]
        exact ⟨by rw [Part.decideAttempt_frames], s.part.decideAttempt_counter .damaged none _ rfl⟩
      · exact ⟨by rw [Part.decideAttempt_frames], s.part.decideAttempt_counter .damaged none _ rfl⟩
    case judged =>
      have hend : s.part.replyFrameEnd items =
          if s.part.replyGood ex f then s.part.decideAttempt .good (some f) else s.part.decideAttempt .unexpected none := by
        rw [Part.replyFrameEnd_of_exchange htakes hex, hquiet, Part.judgeReply, hf]
        rfl
      dsimp only
      rw [hend]
      have hgood := s.part.replyGood_eq_true ex f i hi
      cases hreply : s.part.replyGood ex f with
      | true =>
        rw [if_pos rfl, Part.decideAttempt_frames]
        exact ⟨.inl rfl, fun _ => ⟨rfl, rfl⟩, nofun, fun _ => hgood.mp hreply, fun _ => rfl⟩
      | false =>
        rw [if_neg (by decide), Part.decideAttempt_frames]
        refine ⟨.inr rfl, nofun, fun _ => s.part.decideAttempt_counter .unexpected none _ rfl, nofun, fun h => ?_⟩
        exact absurd (hgood.mpr h) (Bool.eq_false_iff.mp hreply)
    case carrier =>
      dsimp only
      rw [Part.replyFrameEnd_of_exchange htakes hex, hcarrier, if_pos rfl]
      by_cases hgood : (s.part.judgeReply ex items).frames.outcome = some .good
      · rw [Part.carrierInGuard_of_good hgood, Part.decideAttempt_frames]
        exact nofun
      · rw [Part.carrierInGuard_of_failed hgood]
        exact hgood
  case clash =>
    have damaged {p : Part} (h : p = s.part.decideAttempt .damaged none) : p.frames.state = .guarding ∧
        p.frames.outcome = some .damaged ∧ p.counter .damagedFrames = s.part.counter .damagedFrames + 1 := by
      rw [h, Part.decideAttempt_frames]
      exact ⟨rfl, rfl, s.part.decideAttempt_counter .damaged none _ rfl⟩
    have sees (h : s.part.frames.seesClash = true) :
        (if s.part.frames.seesClash then s.part.lineClash else s.part) = s.part.lineClash := if_pos h
    refine ⟨_, exec_lineClash s, fun h => ?_, fun h hgood hsome => ?_, fun h => ?_, fun h => ?_⟩
    · refine damaged ?_
      rcases h with h | h | ⟨h, ho⟩
      · rw [sees (by rw [FrameEngine.seesClash, h]), Part.lineClash_of_takesReply (.inl h)]
      · rw [sees (by rw [FrameEngine.seesClash, h]), Part.lineClash_of_takesReply (.inr h)]
      · rw [sees (by rw [FrameEngine.seesClash, h]), Part.lineClash_of_guard h ho, if_pos rfl]
    · obtain ⟨a, ha⟩ := Option.ne_none_iff_exists'.mp hsome
      rw [sees (by rw [FrameEngine.seesClash, h]), Part.lineClash_of_guard h ha, if_neg]
      rintro rfl
      exact hgood ha
    · rw [sees (by rw [FrameEngine.seesClash, h]), Part.lineClash, h]
    · have hstray : s.part.frames.seesClash = true := by
        rcases h with h | ⟨h, -⟩ <;> rw [FrameEngine.seesClash, h]
      rw [sees hstray, Part.lineClash_of_stray h]
      refine ⟨s.part.strayClash_frames, fun hrun hcounted => ?_, fun hcounted => ?_⟩
      · dsimp only
        rw [Part.strayClash, if_neg (by rw [hcounted]; decide), Part.strayFrame, if_pos (by rw [hrun]; rfl)]
        exact (Part.count_counter _ .strayFrames .strayFrames).trans (if_pos rfl)
      · rw [Part.strayClash_of_counted hcounted]

end

end Sys2Proof.Machine
end

section
/-!
SUPPORT. The optional phases of a cycle as they stand after `settle`, the poll list in its order, and the first entry of it.
-/
namespace Sys2Proof.Machine

/-! ## A phase that has begun stands after `settle` -/

/-- What the statements about a phase's beginning read of the part it is begun in: `t` shows it as `q` does. -/
structure Part.Shows (t q : Part) : Prop where
  frames : t.frames = q.frames
  schedState : t.sched.state = q.sched.state
  attempts : t.sched.attempts = q.sched.attempts
  fetchRead : t.sched.fetchRead = q.sched.fetchRead
  withdrawRead : t.sched.withdrawRead = q.sched.withdrawRead
  claimed : t.events.claimed = q.events.claimed
  windows : t.windows = q.windows
  takenRead : t.events.takenRead = q.events.takenRead
  asks : ∀ a, q.asks a → t.asks a

section
variable {p q t : Part} {dt : Nat}

theorem Part.gives.shown {ex : Exchange} {bytes : List Byte} (h : q.gives ex bytes) (hs : t.Shows q) : t.gives ex bytes := by
  unfold Part.gives at h ⊢
  rwa [hs.frames]

theorem Part.parcelGiven.shown {bt : Nat} {ex : Exchange} {bytes : List Byte} (h : p.parcelGiven q dt bt ex bytes)
    (hs : t.Shows q) : p.parcelGiven t dt bt ex bytes := by
  obtain ⟨hfits, hnot⟩ := h
  refine ⟨fun h => ?_, fun h => hs.schedState.trans (hnot h)⟩
  obtain ⟨hstate, hgives⟩ := hfits h
  exact ⟨hs.schedState.trans hstate, hgives.shown hs⟩

theorem Part.parcelServed.shown {e : Parcel} (h : p.parcelServed q dt e) (hs : t.Shows q) : p.parcelServed t dt e := by
  unfold Part.parcelServed at h ⊢
  split
  case h_3 n htransfer =>
    rw [htransfer] at h
    exact Part.parcelGiven.shown h hs
  case h_4 htransfer =>
    rw [htransfer] at h
    exact Part.parcelGiven.shown h hs
  all_goals
    next htransfer =>
      rw [htransfer] at h
      exact ⟨hs.withdrawRead.trans h.1, hs.asks _ h.2⟩

theorem Part.parcelPhaseBegins.shown (h : p.parcelPhaseBegins q dt) (hs : t.Shows q) : p.parcelPhaseBegins t dt := by
  unfold Part.parcelPhaseBegins at h ⊢
  split
  next e he =>
    rw [he] at h
    exact Part.parcelServed.shown h hs
  next he =>
    rw [he] at h
    exact hs.schedState.trans h

theorem Part.fetchAsked.shown {eligible : NodeIx → Bool} (h : p.fetchAsked q dt eligible) (hs : t.Shows q) :
    p.fetchAsked t dt eligible := by
  unfold Part.fetchAsked at h ⊢
  split
  next he =>
    rw [he] at h
    obtain ⟨hclaimed, hphase⟩ := h
    exact ⟨hs.claimed.trans hclaimed, hphase.shown hs⟩
  next i he =>
    rw [he] at h
    obtain ⟨hgiven, hnoFit, hnoPlace⟩ := h
    refine ⟨fun hplace hfits => ?_, fun hplace hfits => ?_, fun hplace => ?_⟩
    · obtain ⟨hstate, hattempts, hclaimed, hgives⟩ := hgiven hplace hfits
      exact ⟨hs.schedState.trans hstate, hs.attempts.trans hattempts, hs.claimed.trans hclaimed, hgives.shown hs⟩
    · obtain ⟨hclaimed, hphase⟩ := hnoFit hplace hfits
      exact ⟨hs.claimed.trans hclaimed, hphase.shown hs⟩
    · obtain ⟨hclaimed, hread, htaken, hasks⟩ := hnoPlace hplace
      exact ⟨hs.claimed.trans hclaimed, hs.fetchRead.trans hread, by rwa [hs.takenRead], fun h => hs.asks _ (hasks h)⟩

theorem Part.optionalPhasesBegin.shown (h : p.optionalPhasesBegin q dt) (hs : t.Shows q) : p.optionalPhasesBegin t dt := by
  unfold Part.optionalPhasesBegin at h ⊢
  dsimp only at h ⊢
  obtain ⟨hopened, hnoFit, hnotDue⟩ := h
  refine ⟨fun hdue hfits => ?_, fun hdue hfits => ?_, fun hdue => ?_⟩
  · obtain ⟨hstate, hclaimed, hgives, hwindows⟩ := hopened hdue hfits
    exact ⟨hs.schedState.trans hstate, hs.claimed.trans hclaimed, hgives.shown hs, hs.windows.trans hwindows⟩
  · obtain ⟨hbefore, hlate, hfetch⟩ := hnoFit hdue hfits
    rw [hs.windows]
    exact ⟨hbefore, hlate, Part.fetchAsked.shown hfetch hs⟩
  · obtain ⟨hwindows, hfetch⟩ := hnotDue hdue
    exact ⟨hs.windows.trans hwindows, Part.fetchAsked.shown hfetch hs⟩

end

section
variable (p : Part)

theorem Part.settleParcelOpen_takenRead : p.settleParcelOpen.events.takenRead = p.events.takenRead := by
  unfold Part.settleParcelOpen Part.openScan Part.openPatience Part.openRewrites
  (repeat' split) <;> simp

theorem Part.startAppend_takenRead : p.startAppend.events.takenRead = p.events.takenRead := by
  unfold Part.startAppend
  split <;> rfl

theorem Part.settle_takenRead (hstart : p.ladder.state ≠ .starting) (hservice : p.ladder.state ≠ .heldService) :
    p.settle.events.takenRead = p.events.takenRead := by
  have hopen : p.settleNodeOpen.events = p.events := by
    unfold Part.settleNodeOpen
    dsimp only
    (repeat' split) <;> simp
  have hladder : p.settleNodeOpen.settleCheck.ladder = p.ladder := by simp
  have hstartup : p.settleNodeOpen.settleCheck.settleStartup = p.settleNodeOpen.settleCheck :=
    Part.settleStartup_of_waits _ fun u _ h => hstart (by rw [← hladder]; exact h.1)
  unfold Part.settle
  rw [Part.settleService_of_works _ (fun h => absurd (by simpa using h) (by rw [hstartup, hladder]; exact hservice)), hstartup,
    Part.startAppend_takenRead]
  simp [Part.settleParcelOpen_takenRead, hopen]

end

theorem State.act_shows {s : State} {f : Part → Part} {q : Part} (hf : f s.part = q) (hstart : q.ladder.state ≠ .starting)
    (hservice : q.ladder.state ≠ .heldService) (hruns : q.ladder.state.pauses = false) : (s.act f).part.Shows q := by
  subst hf
  have hq := State.act_settled (s := s) (f := f) rfl hstart hservice
  obtain ⟨-, -, -, -, hattempts, -, -, hfetch, hwithdraw⟩ := s.act_keepsLine f hstart hservice
  refine ⟨hq.frames, hq.schedState, hattempts, hfetch, hwithdraw, hq.claimed, hq.windows, ?_,
    fun a ha => s.act_asks f (ha.2 hruns)⟩
  rw [State.act_events, Part.settle_takenRead _ hstart hservice]

/-! ## The poll list in its order (R33) -/

theorem allNodes_pairwise : allNodes.Pairwise (· < ·) := List.pairwise_lt_finRange 48

theorem NodeIx.sub_val_of_le {start i : NodeIx} (h : start ≤ i) : (i - start).val = i.val - start.val := Fin.sub_val_of_le h

theorem NodeIx.sub_val_of_lt {start i : NodeIx} (h : i < start) : (i - start).val = 48 + i.val - start.val := by
  rw [Fin.sub_def]
  have := start.isLt
  have hlt : i.val < start.val := h
  change (48 - start.val + i.val) % 48 = _
  omega

theorem le_of_mem_drop {start i : NodeIx} (h : i ∈ allNodes.drop start.val) : start ≤ i := by
  obtain ⟨k, hk, rfl⟩ := List.getElem_of_mem h
  rw [List.getElem_drop]
  simp [allNodes, Fin.le_def]

theorem lt_of_mem_take {start i : NodeIx} (h : i ∈ allNodes.take start.val) : i < start := by
  obtain ⟨k, hk, rfl⟩ := List.getElem_of_mem h
  rw [List.getElem_take]
  have hk' : k < start.val := (List.length_take ▸ hk).trans_le (Nat.min_le_left _ _)
  simpa [allNodes, Fin.lt_def] using hk'

/-- The cyclic order counts from `start`. -/
theorem cyclicFrom_pairwise (start : NodeIx) :
    (cyclicFrom start).Pairwise fun i j => (i - start).val < (j - start).val := by
  rw [cyclicFrom, List.pairwise_append]
  refine ⟨?_, ?_, fun i hi j hj => ?_⟩
  · refine List.Pairwise.imp_of_mem (fun hi hj hlt => ?_) (allNodes_pairwise.sublist (List.drop_sublist _ _))
    have hi' := le_of_mem_drop hi
    rw [NodeIx.sub_val_of_le hi', NodeIx.sub_val_of_le (le_of_mem_drop hj)]
    rw [Fin.lt_def] at hlt
    rw [Fin.le_def] at hi'
    omega
  · refine List.Pairwise.imp_of_mem (fun hi hj hlt => ?_) (allNodes_pairwise.sublist (List.take_sublist _ _))
    have hi' := lt_of_mem_take hi
    rw [NodeIx.sub_val_of_lt hi', NodeIx.sub_val_of_lt (lt_of_mem_take hj)]
    rw [Fin.lt_def] at hlt hi'
    have := start.isLt
    omega
  · have hi' := le_of_mem_drop hi
    rw [NodeIx.sub_val_of_le hi', NodeIx.sub_val_of_lt (lt_of_mem_take hj)]
    have := i.isLt
    have := start.isLt
    omega

section
variable (p : Part)

/-- The marked candidates come first, and the cyclic order decides among the rest. -/
theorem Part.probeRanking_pairwise : p.probeRanking.Pairwise fun i j =>
    if p.sched.passedOver.get i = p.sched.passedOver.get j then
      (i - p.sched.probeStart).val < (j - p.sched.probeStart).val
    else p.sched.passedOver.get i = true := by
  have hall := (cyclicFrom_pairwise p.sched.probeStart).filter p.candidate
  unfold Part.probeRanking
  dsimp only
  rw [List.pairwise_append]
  refine ⟨?_, ?_, fun i hi j hj => ?_⟩
  · refine List.Pairwise.imp_of_mem (fun hi hj hlt => ?_) (hall.filter _)
    rwa [if_pos ((List.mem_filter.mp hi).2.trans (List.mem_filter.mp hj).2.symm)]
  · refine List.Pairwise.imp_of_mem (fun hi hj hlt => ?_) (hall.filter _)
    have hi := (List.mem_filter.mp hi).2
    have hj := (List.mem_filter.mp hj).2
    simp only [Bool.not_eq_true'] at hi hj
    rwa [if_pos (hi.trans hj.symm)]
  · have hi := (List.mem_filter.mp hi).2
    have hj := (List.mem_filter.mp hj).2
    simp only [Bool.not_eq_true'] at hj
    rw [if_neg (by rw [hi, hj]; decide)]
    exact hi

/-- The record an entry of the poll list names. -/
def PollEntry.ix : PollEntry → NodeIx
  | .poll i | .probe i => i

theorem Part.pollListOf_ix {chosen : List NodeIx} {i : NodeIx} {e : PollEntry}
    (h : (if (p.node i).state.inService && (p.node i).applied.due p.sched.cycle then some (PollEntry.poll i)
      else if chosen.contains i then some (.probe i) else none) = some e) : e.ix = i := by
  split at h
  · cases h; rfl
  · split at h <;> cases h
    rfl

theorem Part.pollListOf_pairwise (chosen : List NodeIx) : (p.pollListOf chosen).Pairwise fun e e' => e.ix < e'.ix := by
  unfold Part.pollListOf
  rw [List.pairwise_filterMap]
  refine allNodes_pairwise.imp fun hlt e he e' he' => ?_
  rwa [p.pollListOf_ix he, p.pollListOf_ix he']

theorem Part.probe_mem_pollListOf {chosen : List NodeIx} {i : NodeIx} (h : i ∈ chosen)
    (hstate : (p.node i).state.inService = false) : .probe i ∈ p.pollListOf chosen := by
  refine List.mem_filterMap.mpr ⟨i, List.mem_finRange i, ?_⟩
  rw [hstate, Bool.false_and, if_neg (by decide), if_pos (List.contains_iff_mem.mpr h)]

theorem Part.probe_mem_enterPolling_iff (i : NodeIx) :
    .probe i ∈ p.enterPolling.sched.pollList ↔ i ∈ p.probeRanking.take 2 := by
  refine ⟨Part.mem_chosen_of_probe_mem_pollListOf, fun h => ?_⟩
  obtain ⟨hprobing, -⟩ := (p.candidate_iff i).mp ((p.mem_probeRanking_iff i).mp (List.mem_of_mem_take h))
  exact p.probe_mem_pollListOf h (by rw [hprobing]; rfl)

theorem Part.enterPolling_passedOver (i : NodeIx) :
    p.enterPolling.sched.passedOver.get i =
      if (p.node i).state ≠ .probing then false
      else if i ∈ p.probeRanking then !decide (i ∈ p.probeRanking.take 2) else p.sched.passedOver.get i := by
  have hmarks : p.enterPolling.sched.passedOver.get i =
      if p.candidate i then !(p.probeRanking.take 2).contains i
      else if (p.node i).state = .probing then p.sched.passedOver.get i else false := tabMap_get _ _ _
  rw [hmarks]
  by_cases hcandidate : p.candidate i = true
  · obtain ⟨hprobing, -⟩ := (p.candidate_iff i).mp hcandidate
    rw [if_pos hcandidate, if_neg (not_not.mpr hprobing), if_pos ((p.mem_probeRanking_iff i).mpr hcandidate),
      List.contains_eq_mem]
  · rw [if_neg hcandidate]
    by_cases hprobing : (p.node i).state = .probing
    · rw [if_pos hprobing, if_neg (not_not.mpr hprobing), if_neg (mt (p.mem_probeRanking_iff i).mp hcandidate)]
    · rw [if_neg hprobing, if_pos hprobing]

end

theorem State.act_pollList (s : State) (f : Part → Part) : (s.act f).part.sched.pollList = (f s.part).sched.pollList := by
  obtain ⟨-, -, -, -, -, -, -, hlist, -⟩ := s.act_keeps f
  exact hlist

/-! ## OPEN_READY (R31, R34, R35) -/

theorem exec_openReady {s : State} (h : s.part.openIsReady = true) (dt : Nat) :
    exec (.openReady dt) s = .next (s.act fun p => (p.passTime dt).enterPolling.pollNext) := by
  change State.actIf _ _ _ = _
  rw [State.actIf, if_pos h]

theorem Part.passTime_enterPolling (p : Part) (dt : Nat) :
    (p.passTime dt).enterPolling = (p.enterPolling).passTime dt := rfl

theorem Part.pollNext_nil {p : Part} (h : p.sched.pollList = []) : p.pollNext = p.windowPhase := by
  rw [Part.pollNext, h]

theorem Part.pollNext_poll {p : Part} {i : NodeIx} {rest : List PollEntry} (h : p.sched.pollList = .poll i :: rest) :
    p.pollNext.sched.state = p.sched.state ∧ p.pollNext.sched.pollList = rest ∧
      (p.pollNext.node i).pollTotal = (p.node i).pollTotal + 1 ∧
      p.pollNext.frames.toggles.get i = !(p.frames.toggles.get i) := by
  let q := ((p.modSched fun s => { s with pollList := rest, attempts := (p.node i).applied.retries }).modNode i fun r =>
    { r with pollTotal := r.pollTotal + 1 })
  let q' : Part := { q with frames := { q.frames with toggles := tabModify q.frames.toggles i not } }
  have hnext : p.pollNext = q'.pollAttempt i := by rw [Part.pollNext, h]
  obtain ⟨-, hstate, -⟩ := q'.pollAttempt_keepsClock i
  obtain ⟨-, -, htable, htoggles, -, -, -, -, hlist, -⟩ := q'.pollAttempt_keepsChoice i
  rw [hnext, hstate, hlist, htoggles, Part.node, htable]
  refine ⟨rfl, rfl, ?_, ?_⟩
  · change ((tabModify p.table.records i fun r => { r with pollTotal := r.pollTotal + 1 }).get i).pollTotal = _
    rw [tabModify_get, if_pos rfl]
    rfl
  · change (tabModify p.frames.toggles i not).get i = _
    rw [tabModify_get, if_pos rfl]

theorem Part.pollNext_probe {p : Part} {i : NodeIx} {rest : List PollEntry} (h : p.sched.pollList = .probe i :: rest) :
    p.pollNext = ((p.modSched fun s => { s with pollList := rest }).count .probesSent).give (.probe i)
      (encodeFrame .probe 0 (p.node i).applied.address []) := by
  rw [Part.pollNext, h]
  rfl

/-- Settles O46: the ranking and the list by the model's own order, and the list's head as it is begun. -/
theorem pollListBuilt : Obligations.PollListBuilt := by
  refine ⟨fun p => ?_, fun s dt hrun hready => ?_⟩
  · refine ⟨rfl, fun i => (p.mem_probeRanking_iff i).trans (p.candidate_iff i), p.probeRanking_pairwise,
      fun i => p.poll_mem_enterPolling_iff i, fun i => p.probe_mem_enterPolling_iff i, ?_, fun i => p.enterPolling_passedOver i,
      fun i hi => ?_, fun hnone => ?_⟩
    · rw [List.pairwise_map]
      refine (p.pollListOf_pairwise _).imp fun {e e'} hlt => ?_
      cases e <;> cases e' <;> exact hlt
    · simp only [Part.enterPolling, Part.modSched, hi]
    · simp only [Part.enterPolling, Part.modSched, hnone, List.getLast?_nil]
  · let p := (s.part.passTime dt).enterPolling
    have hladder : p.pollNext.ladder.state = .run := by rw [Part.pollNext_ladder]; exact hrun
    have hq := State.act_settled (s := s) (f := fun p => (p.passTime dt).enterPolling.pollNext) (q := p.pollNext) rfl
      (by rw [hladder]; decide) (by rw [hladder]; decide)
    have hlist := s.act_pollList fun p => (p.passTime dt).enterPolling.pollNext
    refine ⟨_, exec_openReady hready dt, ?_, fun i rest hpoll => ?_, fun i rest hprobe => ?_, fun hnil => ?_⟩
    · obtain ⟨-, -, -, -, hcycle, -⟩ := p.pollNext_keepsPoll
      exact hq.cycle.trans hcycle
    · obtain ⟨hstate, hrest, htotal, htoggle⟩ := Part.pollNext_poll (p := p) hpoll
      rw [hq.schedState, hlist, hq.node, hq.frames, hstate]
      exact ⟨rfl, hrest, htotal, htoggle⟩
    · have hnext := Part.pollNext_probe (p := p) hprobe
      rw [hq.schedState, hlist, hq.counter, hq.frames, show (s.part.passTime dt).enterPolling.pollNext = _ from hnext]
      exact ⟨rfl, rfl, (Part.count_counter _ .probesSent .probesSent).trans (if_pos rfl), rfl, rfl⟩
    · have hbegins : s.part.optionalPhasesBegin p.pollNext dt := by
        rw [Part.pollNext_nil (p := p) hnil, ← Part.passTime_optionalPhasesBegin]
        exact p.windowPhase_begins
      exact hbegins.shown (State.act_shows rfl (by rw [hladder]; decide) (by rw [hladder]; decide) (by rw [hladder]; rfl))

end Sys2Proof.Machine
end

section
/-!
SUPPORT. Frames on the line (R46, R48 to R50, R54): the bits of the bytes sent, and what the receiver makes of a frame whole or
cut short.
-/
namespace Sys2Proof.Machine

/-! ## The bits of a frame (R46) -/

/-- In stretches of one length `m`, place `m * n + j` is place `j` of the stretch `n`. -/
theorem getElem?_flatMap_const {α β : Type} {m : Nat} {g : α → List β} (hg : ∀ a, (g a).length = m) (l : List α) (n j : Nat)
    (hj : j < m) : (l.flatMap g)[m * n + j]? = l[n]?.bind fun a => (g a)[j]? := by
  induction l generalizing n with
  | nil => rfl
  | cons a l ih =>
    rw [List.flatMap_cons]
    cases n with
    | zero => rw [Nat.mul_zero, Nat.zero_add, List.getElem?_append_left (by rw [hg]; exact hj)]; rfl
    | succ n =>
      rw [List.getElem?_append_right (by rw [hg, Nat.mul_succ]; omega), hg,
        show m * (n + 1) + j - m = m * n + j by rw [Nat.mul_succ]; omega, ih n]
      rfl

theorem FrameEngine.transmits_getElem? {f : FrameEngine} (hsending : f.state = .sending) (hline : f.onLine = true) {n : Nat}
    {b : Byte} (hb : f.tx[n]? = some b) {j : Nat} (hj : j < 10) :
    f.transmits[10 * n + j]? = some ((serialBits b).getLsbD j) := by
  have hlength (b : Byte) : ((List.range Config.bitsPerByte).map (serialBits b).getLsbD).length = 10 := by simp [Config.bitsPerByte]
  rw [FrameEngine.transmits, if_pos ⟨hsending, hline⟩, getElem?_flatMap_const hlength _ _ _ hj, hb]
  simp [Config.bitsPerByte, hj]

/-! ## The receiver (R54) -/

theorem leadingBytes_cons_byte (b : Byte) (rest : List LineItem) : leadingBytes (.byte b :: rest) = b :: leadingBytes rest :=
  leadingBytes_append [b] rest

/-- Cut by what is no byte, the line has led with the bytes before it. -/
theorem leadingBytes_cut (bytes : List Byte) {item : LineItem} (h : item.byte? = none) (rest : List LineItem) :
    leadingBytes (bytes.map .byte ++ item :: rest) = bytes := by
  rw [leadingBytes_append, leadingBytes_of_none item rest h, List.append_nil]

theorem leadingBytes_bytes (bytes : List Byte) : leadingBytes (bytes.map .byte) = bytes := by
  have happend := leadingBytes_append bytes []
  rwa [List.append_nil, show leadingBytes [] = [] from rfl, List.append_nil] at happend

theorem receiveFrame_of_leadingBytes {items : List LineItem} {sync head address len : Byte} {rest : List Byte}
    (h : leadingBytes items = sync :: head :: address :: len :: rest) :
    receiveFrame items =
      if sync = Config.syncByte ∧ len.toNat ≤ 64 ∧ len.toNat + 2 ≤ rest.length then
        let payload := rest.take len.toNat
        let check := crc16 (head :: address :: len :: payload)
        if rest.getD len.toNat 0 = check.extractLsb' 8 8 ∧ rest.getD (len.toNat + 1) 0 = check.extractLsb' 0 8 then
          some { head := head, address := address, payload := payload }
        else none
      else none := by
  rw [receiveFrame, h]

theorem receiveFrame_of_short {items : List LineItem} (h : (leadingBytes items).length < 4) : receiveFrame items = none := by
  unfold receiveFrame
  split
  next heq =>
    rw [heq] at h
    simp only [List.length_cons] at h
    omega
  next => rfl

/-- A frame whose LEN calls for more than arrives is damaged. -/
theorem receiveFrame_of_long {items : List LineItem} {sync head address len : Byte} {rest : List Byte}
    (h : leadingBytes items = sync :: head :: address :: len :: rest)
    (hlong : ¬ (len.toNat ≤ 64 ∧ len.toNat + 2 ≤ rest.length)) :
    receiveFrame items = none := by
  rw [receiveFrame_of_leadingBytes h, if_neg fun hall => hlong hall.2]

theorem encodeFrame_eq (kind : PartKind) (flags : BitVec 3) (address : Byte) (payload : List Byte) :
    ∃ check : Half, check = crc16 ((0#1 ++ kind.code ++ flags) :: address :: BitVec.ofNat 8 payload.length :: payload) ∧
      encodeFrame kind flags address payload =
        Config.syncByte :: (0#1 ++ kind.code ++ flags) :: address :: BitVec.ofNat 8 payload.length ::
          (payload ++ [check.extractLsb' 8 8, check.extractLsb' 0 8]) := ⟨_, rfl, rfl⟩

theorem length_byte {payload : List Byte} (h : payload.length ≤ 64) : (BitVec.ofNat 8 payload.length).toNat = payload.length := by
  rw [BitVec.toNat_ofNat]
  exact Nat.mod_eq_of_lt (by omega)

theorem receiveFrame_encodeFrame (kind : PartKind) (flags : BitVec 3) (address : Byte) (payload : List Byte)
    (h : payload.length ≤ 64) : receiveFrame ((encodeFrame kind flags address payload).map .byte) =
      some { head := 0#1 ++ kind.code ++ flags, address := address, payload := payload } := by
  obtain ⟨check, hcheck, heq⟩ := encodeFrame_eq kind flags address payload
  rw [receiveFrame_of_leadingBytes ((leadingBytes_bytes _).trans heq), length_byte h]
  have htake : (payload ++ [check.extractLsb' 8 8, check.extractLsb' 0 8]).take payload.length = payload := List.take_left
  dsimp only
  rw [htake, if_pos ⟨rfl, h, by simp⟩, ← hcheck, if_pos]
  constructor <;> simp [List.getD_eq_getElem?_getD]

/-- Cut before its last CHECK byte a frame is damaged. -/
theorem receiveFrame_cut (kind : PartKind) (flags : BitVec 3) (address : Byte) (payload : List Byte) (h : payload.length ≤ 64)
    {k : Nat} (hk : k < (encodeFrame kind flags address payload).length) {item : LineItem} (hitem : item.byte? = none)
    (rest : List LineItem) :
    receiveFrame (((encodeFrame kind flags address payload).take k).map .byte ++ item :: rest) = none := by
  have hlead := leadingBytes_cut ((encodeFrame kind flags address payload).take k) hitem rest
  by_cases hshort : k < 4
  · refine receiveFrame_of_short ?_
    rw [hlead, List.length_take]
    omega
  · obtain ⟨check, -, heq⟩ := encodeFrame_eq kind flags address payload
    obtain ⟨n, rfl⟩ : ∃ n, k = n + 4 := ⟨k - 4, by omega⟩
    rw [encodeFrame_length] at hk
    refine receiveFrame_of_long (hlead.trans (congrArg (List.take (n + 4)) heq)) ?_
    rw [length_byte h, List.length_take]
    omega

/-- Settles O50: the bits of each byte, the receiver on whole frames and on frames cut short or too long. -/
theorem frameRoundTrip : Obligations.FrameRoundTrip := by
  refine ⟨fun b => ⟨_, rfl, ?_, fun k => ?_, ?_⟩, fun f hsending hline =>
    ⟨f.transmits_length hsending hline, fun n b hb => ?_⟩, fun f hidle => if_neg ?_, rfl, encodeFrame_length,
    receiveFrame_encodeFrame,
    fun kind flags address payload k rest h hk => ⟨?_, ?_, fun bits hstop => ?_⟩, fun sync head address len rest hlen => ?_,
    fun rest => rfl⟩
  · exact serialBits_getLsbD b 0
  · rw [serialBits_getLsbD, if_neg (by omega), if_pos (by omega), Nat.add_sub_cancel]
  · exact serialBits_getLsbD b 9
  · have bit {j : Nat} (hj : j < 10) := FrameEngine.transmits_getElem? hsending hline hb hj
    refine ⟨?_, fun k => ?_, ?_⟩
    · exact (bit (j := 0) (by decide)).trans (congrArg some (serialBits_getLsbD b 0))
    · rw [Nat.add_assoc, bit (by omega), serialBits_getLsbD, if_neg (by omega), if_pos (by omega), Nat.add_sub_cancel_left]
    · exact (bit (j := 9) (by decide)).trans (congrArg some (serialBits_getLsbD b 9))
  · rintro ⟨hsending, hline⟩
    rcases hidle with hidle | hidle
    · exact hidle hsending
    · rw [hidle] at hline
      cases hline
  · exact receiveFrame_cut kind flags address payload h hk rfl rest
  · exact receiveFrame_cut kind flags address payload h hk rfl rest
  · exact receiveFrame_cut kind flags address payload h hk (LineItem.byte?_noStop bits hstop) rest
  · have hlead : leadingBytes (.byte sync :: .byte head :: .byte address :: .byte len :: rest) =
        sync :: head :: address :: len :: leadingBytes rest := by
      simp only [leadingBytes_cons_byte]
    exact receiveFrame_of_long hlead (by omega)

end Sys2Proof.Machine
end

section
/-! SUPPORT. The eight checks of a directory (R137 to R140): what each finds, over the entries by their index,
    and the judgement that
comes of them (O59). -/

namespace Sys2Proof.Machine

/-! ## A check made over the entries in order -/

/-- A check's finding: the first entry that is bad, and none where no entry is. -/
structure Finds (found : Option NodeIx) (bad : NodeIx → Prop) : Prop where
  first : ∀ i, found = some i → bad i ∧ ∀ j, j < i → ¬ bad j
  clear : found = none → ∀ i, ¬ bad i

variable {found : Option NodeIx} {bad : NodeIx → Prop} {i : NodeIx} {d : Directory} {a : Option LineSettings}

theorem Finds.eq_none (h : Finds found bad) (hb : ∀ i, ¬ bad i) : found = none := by
  cases hf : found with
  | none => rfl
  | some i => exact absurd (h.first i hf).1 (hb i)

theorem Finds.eq_some (h : Finds found bad) (hi : bad i ∧ ∀ j, j < i → ¬ bad j) : found = some i := by
  cases hf : found with
  | none => exact absurd hi.1 (h.clear hf i)
  | some k =>
    obtain ⟨hk, hbelow⟩ := h.first k hf
    have hle : ¬ i < k := fun hlt => hbelow i hlt hi.1
    have hge : ¬ k < i := fun hlt => hi.2 k hlt hk
    rw [le_antisymm (not_lt.1 hge) (not_lt.1 hle)]

theorem Finds.congr {bad' : NodeIx → Prop} (h : Finds found bad) (hb : ∀ i, bad i ↔ bad' i) : Finds found bad' := by
  have : bad = bad' := funext fun i => propext (hb i)
  rwa [← this]

/-- The entry is enabled. -/
def Directory.isOn (d : Directory) (i : NodeIx) : Prop := (d.entries.get i).entry.enabled = true

/-- The enabled entries of a list of indices. -/
def Directory.enabledOf (d : Directory) (l : List NodeIx) : List (NodeIx × DirEntry) :=
  (l.map fun i => (i, d.entries.get i)).filter fun e => e.2.entry.enabled

theorem Directory.enabled_eq_enabledOf : d.enabled = d.enabledOf (List.finRange 48) := rfl

theorem Directory.enabledOf_cons_on (l : List NodeIx) (h : d.isOn i) :
    d.enabledOf (i :: l) = (i, d.entries.get i) :: d.enabledOf l := by
  have h' : (d.entries.get i).entry.enabled = true := h
  simp [enabledOf, h']

theorem Directory.enabledOf_cons_off (l : List NodeIx) (h : ¬ d.isOn i) : d.enabledOf (i :: l) = d.enabledOf l := by
  have h' : (d.entries.get i).entry.enabled = false := Bool.eq_false_iff.2 h
  simp [enabledOf, h']

/-- The entries met before an index: those of the enabled entries below it. -/
def Directory.metBefore (d : Directory) (met : List NodeEntry) (j : NodeIx) : Prop :=
  ∀ e, e ∈ met ↔ ∃ i, i < j ∧ d.isOn i ∧ (d.entries.get i).entry = e

/-- The rule of a check over what was met before an entry, as a property of the entry's index. -/
def Directory.decides (d : Directory) (rule : List NodeEntry → DirEntry → Bool) (bad : NodeIx → Prop) : Prop :=
  ∀ j met, d.metBefore met j → d.isOn j → (rule met (d.entries.get j) = true ↔ bad j)

/-- A check's finding in the indices from `base` on, where none below is bad. -/
theorem firstBad_finds_from {rule : List NodeEntry → DirEntry → Bool} (hrule : d.decides rule bad)
    (hon : ∀ i, bad i → d.isOn i) (l before : List NodeIx) (hl : before ++ l = List.finRange 48)
    (met : List NodeEntry) (hmet : ∀ e, e ∈ met ↔ ∃ i, i ∈ before ∧ d.isOn i ∧ (d.entries.get i).entry = e)
    (hclear : ∀ i ∈ before, ¬ bad i) : Finds (firstBad rule met (d.enabledOf l)) bad := by
  induction l generalizing before met with
  | nil =>
    have hall : ∀ i : NodeIx, i ∈ before := fun i => by
      rw [show before = List.finRange 48 by simpa using hl]
      exact List.mem_finRange i
    exact ⟨nofun, fun _ i => hclear i (hall i)⟩
  | cons j l ih =>
    have hsorted : (before ++ j :: l).Pairwise (· < ·) := hl ▸ List.pairwise_lt_finRange 48
    obtain ⟨-, htail, hbelow⟩ := List.pairwise_append.1 hsorted
    have habove : ∀ i ∈ l, j < i := (List.pairwise_cons.1 htail).1
    have hmem : ∀ i, i < j ↔ i ∈ before := fun i => by
      refine ⟨fun hlt => ?_, fun hi => hbelow i hi j (by simp)⟩
      have hin : i ∈ before ++ j :: l := hl ▸ List.mem_finRange i
      rcases List.mem_append.1 hin with hi | hi
      · exact hi
      · rcases List.mem_cons.1 hi with rfl | hi
        · exact absurd hlt (lt_irrefl _)
        · exact absurd (hlt.trans (habove i hi)) (lt_irrefl _)
    have hnext : (before ++ [j]) ++ l = List.finRange 48 := by simpa using hl
    by_cases hj : d.isOn j
    · have hmetj : d.metBefore met j := fun e => by simp only [hmet, hmem]
      rw [Directory.enabledOf_cons_on l hj]
      unfold firstBad
      split
      · next hbad =>
        refine ⟨fun i hi => ?_, nofun⟩
        obtain rfl : j = i := Option.some.inj hi
        exact ⟨(hrule j met hmetj hj).1 hbad, fun i hlt => hclear i ((hmem i).1 hlt)⟩
      · next hgood =>
        refine ih (before ++ [j]) hnext _ (fun e => ?_) (fun i hi => ?_)
        · simp only [List.mem_cons, hmet, List.mem_append, List.not_mem_nil, or_false]
          constructor
          · rintro (rfl | ⟨i, hi, hrest⟩)
            · exact ⟨j, Or.inr rfl, hj, rfl⟩
            · exact ⟨i, Or.inl hi, hrest⟩
          · rintro ⟨i, hi | rfl, hoi, rfl⟩
            · exact Or.inr ⟨i, hi, hoi, rfl⟩
            · exact Or.inl rfl
        · rcases List.mem_append.1 hi with hi | hi
          · exact hclear i hi
          · obtain rfl := List.mem_singleton.1 hi
            exact fun hb => hgood ((hrule i met hmetj hj).2 hb)
    · rw [Directory.enabledOf_cons_off l hj]
      refine ih (before ++ [j]) hnext met (fun e => ?_) (fun i hi => ?_)
      · rw [hmet]
        refine exists_congr fun i => ?_
        constructor
        · exact fun ⟨hi, hrest⟩ => ⟨List.mem_append_left _ hi, hrest⟩
        · rintro ⟨hi, hoi, he⟩
          rcases List.mem_append.1 hi with hi | hi
          · exact ⟨hi, hoi, he⟩
          · exact absurd (List.mem_singleton.1 hi ▸ hoi) hj
      · rcases List.mem_append.1 hi with hi | hi
        · exact hclear i hi
        · exact fun hb => hj (List.mem_singleton.1 hi ▸ hon i hb)

/-- A check's finding over the whole directory. -/
theorem firstBad_finds {rule : List NodeEntry → DirEntry → Bool} (hrule : d.decides rule bad) :
    Finds (firstBad rule [] d.enabled) (fun i => d.isOn i ∧ bad i) := by
  rw [Directory.enabled_eq_enabledOf]
  exact firstBad_finds_from (fun j met hmet hj => (hrule j met hmet hj).trans (iff_and_self.2 fun _ => hj))
    (fun _ h => h.1) (List.finRange 48) [] rfl [] (by simp) (by simp)

/-! ## The checks of one entry -/

theorem NodeEntry.addressValid_iff {e : NodeEntry} :
    e.addressValid = true ↔ 1 ≤ e.address.toNat ∧ e.address.toNat ≤ 250 := by
  rw [NodeEntry.addressValid, isLineAddress, Bool.and_eq_true, decide_eq_true_eq, decide_eq_true_eq]
  rfl

theorem DirEntry.timingValid_iff {e : DirEntry} : e.timingValid = true ↔
    e.entry.periodClass ∈ [1, 2, 4, 8] ∧ e.entry.phase < e.entry.periodClass ∧ e.entry.outLength ≤ 63 ∧
      e.entry.inLength ≤ 64 ∧ (e.entry.replyTimeout = 0 ∨ 4 ≤ e.entry.replyTimeout) ∧ e.entry.retries ≤ 3 ∧
      1 ≤ e.entry.missLimit ∧ e.entry.missLimit ≤ 15 ∧ e.lossValid = true := by
  simp [DirEntry.timingValid, and_assoc, or_assoc]

theorem sliceInside_iff {offset length size : Nat} :
    sliceInside offset length size = true ↔ length = 0 ∨ offset + length ≤ size := by
  simp [sliceInside]

theorem NodeEntry.slicesInside_iff {e : NodeEntry} {s : LineSettings} : e.slicesInside s = true ↔
    (e.outLength = 0 ∨ e.outOffset + e.outLength ≤ s.outBytes) ∧
      (e.inLength = 0 ∨ e.inOffset + e.inLength ≤ s.inBytes) := by
  simp [NodeEntry.slicesInside, sliceInside_iff]

/-- Two slices overlap exactly where they have a byte in common: the later of the two beginnings. -/
theorem slicesOverlap_iff {o1 l1 o2 l2 : Nat} : slicesOverlap o1 l1 o2 l2 = true ↔
    ∃ k, o1 ≤ k ∧ k < o1 + l1 ∧ o2 ≤ k ∧ k < o2 + l2 := by
  simp only [slicesOverlap, Bool.and_eq_true, bne_iff_ne, ne_eq, decide_eq_true_eq]
  constructor
  · intro h
    exact ⟨max o1 o2, by omega⟩
  · rintro ⟨k, h⟩
    omega

theorem NodeEntry.overlaps_iff {e f : NodeEntry} : e.overlaps f = true ↔ ∃ k,
    e.outOffset ≤ k ∧ k < e.outOffset + e.outLength ∧ f.outOffset ≤ k ∧ k < f.outOffset + f.outLength ∨
    e.inOffset ≤ k ∧ k < e.inOffset + e.inLength ∧ f.inOffset ≤ k ∧ k < f.inOffset + f.inLength := by
  simp only [NodeEntry.overlaps, Bool.or_eq_true, slicesOverlap_iff, exists_or]

theorem WindowSize.ofSlots_isSome {n : Nat} : (WindowSize.ofSlots n).isSome = true ↔ n ∈ [2, 4, 8, 16, 32] := by
  simp only [WindowSize.ofSlots, List.mem_cons, List.not_mem_nil, or_false]
  split_ifs <;> simp_all

theorem LineSettings.inRange_iff {s : LineSettings} : s.inRange = true ↔
    s.bitRate ≤ 3 ∧ 10 ≤ s.cyclePeriod ∧ s.cyclePeriod ≤ 10000 ∧ s.outBytes ≤ 3072 ∧ s.inBytes ≤ 3072 ∧
      s.initialWindow ∈ [2, 4, 8, 16, 32] ∧ 1 ≤ s.cycleDivisor ∧ 1 ≤ s.patience ∧ 1 ≤ s.rouseTime ∧
      4 ≤ s.defaultTimeout := by
  simp only [LineSettings.inRange, Bool.and_eq_true, decide_eq_true_eq, WindowSize.ofSlots_isSome, and_assoc]
  rfl

theorem LineSettings.lineChange_iff {l s : LineSettings} : l.lineChange s = true ↔
    ¬ (l.bitRate = s.bitRate ∧ l.cyclePeriod = s.cyclePeriod ∧ l.outBytes = s.outBytes ∧ l.inBytes = s.inBytes) := by
  simp only [LineSettings.lineChange, Bool.or_eq_true, bne_iff_ne, ne_eq]
  tauto

/-- A rule that asks the entry alone. -/
theorem Directory.decides_entry (rule : DirEntry → Bool) {p : NodeIx → Prop}
    (h : ∀ i, rule (d.entries.get i) = true ↔ p i) : d.decides (fun _ e => !rule e) (fun i => ¬ p i) := by
  intro j met _ _
  simp only [Bool.not_eq_true', ← h, Bool.not_eq_true]

/-- A rule that asks an entry and each one met before it. -/
theorem Directory.decides_pair (rule : NodeEntry → NodeEntry → Bool) {p : NodeIx → NodeIx → Prop}
    (h : ∀ i j, rule (d.entries.get i).entry (d.entries.get j).entry = true ↔ p i j) :
    d.decides (fun met e => met.any fun f => rule f e.entry) (fun j => ∃ i, i < j ∧ d.isOn i ∧ p i j) := by
  intro j met hmet _
  simp only [List.any_eq_true]
  constructor
  · rintro ⟨e, he, hr⟩
    obtain ⟨i, hlt, hi, rfl⟩ := (hmet e).1 he
    exact ⟨i, hlt, hi, (h i j).1 hr⟩
  · rintro ⟨i, hlt, hi, hp⟩
    exact ⟨_, (hmet _).2 ⟨i, hlt, hi, rfl⟩, (h i j).2 hp⟩

/-! ## The worst-case poll phase -/

theorem foldl_enabledOf (g : Nat → NodeEntry → Nat) (l : List NodeIx) (n : Nat) :
    ((d.enabledOf l).map (·.2.entry)).foldl g n =
      l.foldl (fun n i => if (d.entries.get i).entry.enabled = true then g n (d.entries.get i).entry else n) n := by
  induction l generalizing n with
  | nil => rfl
  | cons j l ih =>
    by_cases hj : d.isOn j
    · have hj' : (d.entries.get j).entry.enabled = true := hj
      rw [Directory.enabledOf_cons_on l hj, List.map_cons, List.foldl_cons, List.foldl_cons, ih, if_pos hj']
    · have hj' : ¬ (d.entries.get j).entry.enabled = true := hj
      rw [Directory.enabledOf_cons_off l hj, List.foldl_cons, ih, if_neg hj']

theorem foldl_add_eq_sum {α : Type} (t : α → Nat) (l : List α) (n : Nat) :
    l.foldl (fun n i => n + t i) n = n + (l.map t).sum := by
  induction l generalizing n with
  | nil => simp
  | cons j l ih => rw [List.foldl_cons, ih, List.map_cons, List.sum_cons, Nat.add_assoc]

theorem Directory.entries_isEmpty : (d.enabled.map (·.2.entry)).isEmpty = true ↔ ¬ ∃ i, d.isOn i := by
  rw [List.isEmpty_iff, List.map_eq_nil_iff, Directory.enabled, List.filter_eq_nil_iff]
  simp [allNodes, Directory.isOn]

/-- The POLL term of a residue, over the indices (R140). -/
def Directory.pollTime (d : Directory) (r : Nat) : Nat :=
  ((List.finRange 48).map fun i =>
    if (d.entries.get i).entry.enabled ∧ r % (d.entries.get i).entry.periodClass = (d.entries.get i).entry.phase then
      ((d.entries.get i).entry.retries + 1) * (19 + (d.entries.get i).entry.outLength + (d.entries.get i).entry.inLength +
        effectiveTimeout d.settings (d.entries.get i).entry) else 0).sum

theorem pollTerm_enabled (r : Nat) : pollTerm d.settings (d.enabled.map (·.2.entry)) r = d.pollTime r := by
  rw [pollTerm, Directory.enabled_eq_enabledOf, foldl_enabledOf, Directory.pollTime, ← Nat.zero_add (List.sum _),
    ← foldl_add_eq_sum]
  congr 1
  funext n i
  by_cases hi : (d.entries.get i).entry.enabled = true <;>
    by_cases hr : r % (d.entries.get i).entry.periodClass = (d.entries.get i).entry.phase <;>
    simp [hi, hr, pollWorst]

/-- The PROBE term, over the indices (R140). -/
def Directory.probeTime (d : Directory) : Nat :=
  22 + ((List.finRange 48).map fun i =>
    if (d.entries.get i).entry.enabled then effectiveTimeout d.settings (d.entries.get i).entry else 0).foldl max 0

theorem probeTerm_of_on (h : ∃ i, d.isOn i) : probeTerm d.settings (d.enabled.map (·.2.entry)) = 2 * d.probeTime := by
  rw [probeTerm, if_neg (fun he => Directory.entries_isEmpty.1 he h), Directory.enabled_eq_enabledOf, foldl_enabledOf,
    Directory.probeTime, List.foldl_map]
  congr 3
  funext n i
  split <;> simp

theorem probeTerm_of_off (h : ¬ ∃ i, d.isOn i) : probeTerm d.settings (d.enabled.map (·.2.entry)) = 0 := by
  rw [probeTerm, if_pos (Directory.entries_isEmpty.2 h)]

/-- Half microseconds of a byte, by the bit rate code (Table 0-4). -/
theorem byteTime_of_inRange {rate : Nat} (h : rate ≤ 3) :
    Config.byteTime rate = if rate = 0 then 40 else if rate = 1 then 20 else if rate = 2 then 10 else 5 := by
  interval_cases rate <;> rfl

/-! ## The findings of the five checks of entries -/

def Directory.badAddress (d : Directory) (i : NodeIx) : Prop :=
  d.isOn i ∧ ¬ (1 ≤ (d.entries.get i).entry.address.toNat ∧ (d.entries.get i).entry.address.toNat ≤ 250)

theorem addressCheck_finds :
    Finds (firstBad (fun _ e => !e.entry.addressValid) [] d.enabled) d.badAddress :=
  firstBad_finds (Directory.decides_entry (fun e => e.entry.addressValid) fun _ => NodeEntry.addressValid_iff)

def Directory.duplicate (d : Directory) (j : NodeIx) : Prop :=
  d.isOn j ∧ ∃ i, i < j ∧ d.isOn i ∧ (d.entries.get i).entry.address = (d.entries.get j).entry.address

theorem duplicateCheck_finds :
    Finds (firstBad (fun before e => before.any fun f => f.address == e.entry.address) [] d.enabled) d.duplicate :=
  firstBad_finds (Directory.decides_pair (fun f e => f.address == e.address) fun _ _ => beq_iff_eq)

def Directory.badTiming (d : Directory) (i : NodeIx) : Prop :=
  d.isOn i ∧ ¬ ((d.entries.get i).entry.periodClass ∈ [1, 2, 4, 8] ∧
    (d.entries.get i).entry.phase < (d.entries.get i).entry.periodClass ∧ (d.entries.get i).entry.outLength ≤ 63 ∧
    (d.entries.get i).entry.inLength ≤ 64 ∧
    ((d.entries.get i).entry.replyTimeout = 0 ∨ 4 ≤ (d.entries.get i).entry.replyTimeout) ∧
    (d.entries.get i).entry.retries ≤ 3 ∧ 1 ≤ (d.entries.get i).entry.missLimit ∧
    (d.entries.get i).entry.missLimit ≤ 15 ∧ (d.entries.get i).lossValid = true)

theorem timingCheck_finds : Finds (firstBad (fun _ e => !e.timingValid) [] d.enabled) d.badTiming :=
  firstBad_finds (Directory.decides_entry (fun e => e.timingValid) fun _ => DirEntry.timingValid_iff)

def Directory.outside (d : Directory) (i : NodeIx) : Prop :=
  d.isOn i ∧ ¬ (((d.entries.get i).entry.outLength = 0 ∨
      (d.entries.get i).entry.outOffset + (d.entries.get i).entry.outLength ≤ d.settings.outBytes) ∧
    ((d.entries.get i).entry.inLength = 0 ∨
      (d.entries.get i).entry.inOffset + (d.entries.get i).entry.inLength ≤ d.settings.inBytes))

theorem sliceCheck_finds :
    Finds (firstBad (fun _ e => !e.entry.slicesInside d.settings) [] d.enabled) d.outside :=
  firstBad_finds
    (Directory.decides_entry (fun e => e.entry.slicesInside d.settings) fun _ => NodeEntry.slicesInside_iff)

def Directory.overlaps (d : Directory) (j : NodeIx) : Prop :=
  d.isOn j ∧ ∃ i, i < j ∧ d.isOn i ∧ ∃ k,
    (d.entries.get i).entry.outOffset ≤ k ∧
        k < (d.entries.get i).entry.outOffset + (d.entries.get i).entry.outLength ∧
        (d.entries.get j).entry.outOffset ≤ k ∧
        k < (d.entries.get j).entry.outOffset + (d.entries.get j).entry.outLength ∨
      (d.entries.get i).entry.inOffset ≤ k ∧
        k < (d.entries.get i).entry.inOffset + (d.entries.get i).entry.inLength ∧
        (d.entries.get j).entry.inOffset ≤ k ∧
        k < (d.entries.get j).entry.inOffset + (d.entries.get j).entry.inLength

theorem overlapCheck_finds :
    Finds (firstBad (fun before e => before.any fun f => f.overlaps e.entry) [] d.enabled) d.overlaps :=
  firstBad_finds (Directory.decides_pair (fun f e => f.overlaps e) fun _ _ => NodeEntry.overlaps_iff)

/-! ## The checks of the whole -/

theorem lineChange_any_iff : (a.any (·.lineChange d.settings)) = true ↔
    ∃ l, a = some l ∧ ¬ (l.bitRate = d.settings.bitRate ∧ l.cyclePeriod = d.settings.cyclePeriod ∧
      l.outBytes = d.settings.outBytes ∧ l.inBytes = d.settings.inBytes) := by
  cases a with
  | none => simp
  | some l => simp [LineSettings.lineChange_iff]

/-- A residue's worst case is over the cycle period (R140). -/
def Directory.overBudget (d : Directory) (r : Nat) : Prop :=
  20 * d.settings.cyclePeriod <
    (d.pollTime r + probeTerm d.settings (d.enabled.map (·.2.entry))) *
      (if d.settings.bitRate = 0 then 40 else if d.settings.bitRate = 1 then 20 else if d.settings.bitRate = 2 then 10 else 5) + 80

theorem residueFits_iff (h : d.settings.inRange = true) (r : Nat) :
    (!residueFits d.settings (d.enabled.map (·.2.entry)) r) = true ↔ d.overBudget r := by
  rw [residueFits, budgetTime, pollTerm_enabled, byteTime_of_inRange (LineSettings.inRange_iff.1 h).1,
    Bool.not_eq_true', decide_eq_false_iff_not, Nat.not_le, Directory.overBudget, Nat.mul_comm 20]
  rfl

/-- The least number of a range at which a test holds is the one found. -/
theorem find?_range_eq_some {p : Nat → Bool} {n r : Nat} (hr : r < n) (h : p r = true) (hbelow : ∀ q, q < r → p q = false) :
    (List.range n).find? p = some r := by
  rw [List.find?_range_eq_some]
  exact ⟨h, List.mem_range.2 hr, fun q hq => by simp [hbelow q hq]⟩

/-! ## The judgement of each finding -/

theorem judge_of_badLine (h : d.settings.inRange = false) : judge d a = Judgement.whole .badLineSetting 0 := by
  simp [judge, h]

theorem judge_of_badAddress (h0 : d.settings.inRange = true)
    (hi : d.badAddress i ∧ ∀ j, j < i → ¬ d.badAddress j) : judge d a = Judgement.naming .badAddress i := by
  simp [judge, h0, addressCheck_finds.eq_some hi]

theorem judge_of_duplicate (h0 : d.settings.inRange = true) (h1 : ∀ i, ¬ d.badAddress i)
    (hi : d.duplicate i ∧ ∀ j, j < i → ¬ d.duplicate j) : judge d a = Judgement.naming .duplicateAddress i := by
  simp [judge, h0, addressCheck_finds.eq_none h1, duplicateCheck_finds.eq_some hi]

theorem judge_of_badTiming (h0 : d.settings.inRange = true) (h1 : ∀ i, ¬ d.badAddress i) (h2 : ∀ i, ¬ d.duplicate i)
    (hi : d.badTiming i ∧ ∀ j, j < i → ¬ d.badTiming j) : judge d a = Judgement.naming .badTiming i := by
  simp [judge, h0, addressCheck_finds.eq_none h1, duplicateCheck_finds.eq_none h2, timingCheck_finds.eq_some hi]

theorem judge_of_outside (h0 : d.settings.inRange = true) (h1 : ∀ i, ¬ d.badAddress i) (h2 : ∀ i, ¬ d.duplicate i)
    (h3 : ∀ i, ¬ d.badTiming i)
    (hi : d.outside i ∧ ∀ j, j < i → ¬ d.outside j) : judge d a = Judgement.naming .sliceOutside i := by
  simp [judge, h0, addressCheck_finds.eq_none h1, duplicateCheck_finds.eq_none h2, timingCheck_finds.eq_none h3,
    sliceCheck_finds.eq_some hi]

theorem judge_of_overlaps (h0 : d.settings.inRange = true) (h1 : ∀ i, ¬ d.badAddress i) (h2 : ∀ i, ¬ d.duplicate i)
    (h3 : ∀ i, ¬ d.badTiming i) (h4 : ∀ i, ¬ d.outside i)
    (hi : d.overlaps i ∧ ∀ j, j < i → ¬ d.overlaps j) : judge d a = Judgement.naming .sliceOverlap i := by
  simp [judge, h0, addressCheck_finds.eq_none h1, duplicateCheck_finds.eq_none h2, timingCheck_finds.eq_none h3,
    sliceCheck_finds.eq_none h4, overlapCheck_finds.eq_some hi]

theorem judge_of_lineChange (h0 : d.settings.inRange = true) (h1 : ∀ i, ¬ d.badAddress i) (h2 : ∀ i, ¬ d.duplicate i)
    (h3 : ∀ i, ¬ d.badTiming i) (h4 : ∀ i, ¬ d.outside i) (h5 : ∀ i, ¬ d.overlaps i)
    (h6 : a.any (·.lineChange d.settings) = true) : judge d a = Judgement.whole .lineChangeInRun 0 := by
  simp [judge, h0, addressCheck_finds.eq_none h1, duplicateCheck_finds.eq_none h2, timingCheck_finds.eq_none h3,
    sliceCheck_finds.eq_none h4, overlapCheck_finds.eq_none h5, h6]

/-- What has passed where each check of the list passed. -/
structure Directory.Passes (d : Directory) (a : Option LineSettings) : Prop where
  line : d.settings.inRange = true
  address : ∀ i, ¬ d.badAddress i
  alike : ∀ i, ¬ d.duplicate i
  timing : ∀ i, ¬ d.badTiming i
  inside : ∀ i, ¬ d.outside i
  apart : ∀ i, ¬ d.overlaps i
  change : a.any (·.lineChange d.settings) = false

theorem judge_of_passes (h : d.Passes a) : judge d a =
    match (List.range 8).find? fun r => !residueFits d.settings (d.enabled.map (·.2.entry)) r with
    | some r => Judgement.whole .pollBudget r
    | none => { code := .accepted, entry := 0, residue := 0 } := by
  obtain ⟨h0, h1, h2, h3, h4, h5, h6⟩ := h
  simp [judge, h0, addressCheck_finds.eq_none h1, duplicateCheck_finds.eq_none h2, timingCheck_finds.eq_none h3,
    sliceCheck_finds.eq_none h4, overlapCheck_finds.eq_none h5, h6] <;> rfl

/-- A passed directory's first residue over the budget is named. -/
theorem judge_of_overBudget (h : d.Passes a) {r : Nat} (hr : r < 8) (hover : d.overBudget r)
    (hbelow : ∀ q, q < r → ¬ d.overBudget q) : judge d a = Judgement.whole .pollBudget r := by
  rw [judge_of_passes h, find?_range_eq_some hr ((residueFits_iff h.line r).2 hover)
    fun q hq => Bool.eq_false_iff.2 fun hb => hbelow q hq ((residueFits_iff h.line q).1 hb)]

theorem judge_of_fits (h : d.Passes a) (hfits : ∀ r, r < 8 → ¬ d.overBudget r) :
    judge d a = { code := .accepted, entry := 0, residue := 0 } := by
  rw [judge_of_passes h, List.find?_eq_none.2 fun r hr hb =>
    hfits r (List.mem_range.1 hr) ((residueFits_iff h.line r).1 hb)]

/-- An accepted directory passed every check. -/
theorem judge_accepted_passes (h : (judge d a).code = .accepted) :
    d.Passes a ∧ ∀ r, r < 8 → ¬ d.overBudget r := by
  unfold judge at h
  dsimp only at h
  split at h
  · cases h
  next hline =>
  split at h
  · cases h
  next h1 =>
  split at h
  · cases h
  next h2 =>
  split at h
  · cases h
  next h3 =>
  split at h
  · cases h
  next h4 =>
  split at h
  · cases h
  next h5 =>
  split at h
  · cases h
  next h6 =>
  split at h
  · cases h
  next h7 =>
  have hin : d.settings.inRange = true := by simpa using hline
  refine ⟨⟨hin, addressCheck_finds.clear h1, duplicateCheck_finds.clear h2, timingCheck_finds.clear h3,
    sliceCheck_finds.clear h4, overlapCheck_finds.clear h5, by simpa using h6⟩, fun r hr hover => ?_⟩
  exact List.find?_eq_none.1 h7 r (List.mem_range.2 hr) ((residueFits_iff hin r).2 hover)

/-- Settles O59: each check's finding is the first bad entry (`firstBad_finds`), and the judgement the first finding. -/
theorem directoryAccepted : Obligations.DirectoryAccepted := by
  unfold Obligations.DirectoryAccepted
  intro d a
  have hline : ¬ (d.settings.inRange = true) ↔ _ := not_congr LineSettings.inRange_iff
  have hchange := lineChange_any_iff (a := a) (d := d)
  intro entry on badLine badAddress duplicate badTiming outside overlaps lineChange timeout polls probes halfMicroseconds
    overBudget first naming passes1 passes2 passes3 passes4 passes5 passes6 passes7
  have hpasses : passes7 ↔ d.Passes a := by
    constructor
    · rintro ⟨⟨⟨⟨⟨⟨h1, h2⟩, h3⟩, h4⟩, h5⟩, h6⟩, h7⟩
      exact ⟨not_not.1 fun h => h1 (hline.1 h), h2, h3, h4, h5, h6,
        Bool.eq_false_iff.2 fun h => h7 (hchange.1 h)⟩
    · rintro ⟨h1, h2, h3, h4, h5, h6, h7⟩
      exact ⟨⟨⟨⟨⟨⟨fun h => hline.2 h h1, h2⟩, h3⟩, h4⟩, h5⟩, h6⟩, fun h => Bool.eq_false_iff.1 h7 (hchange.2 h)⟩
  have hprobes : probeTerm d.settings (d.enabled.map (·.2.entry)) = probes := by
    show _ = ite _ _ _
    split
    · next hon => exact probeTerm_of_on hon
    · next hoff => exact probeTerm_of_off hoff
  have hover : ∀ r, overBudget r ↔ d.overBudget r := fun r => by
    unfold Directory.overBudget
    rw [hprobes]
    exact Iff.rfl
  have hin : passes1 → d.settings.inRange = true := fun h => not_not.1 fun hn => h (hline.1 hn)
  refine ⟨fun h => judge_of_badLine (Bool.eq_false_iff.2 (hline.2 h)), fun i h1 hi => judge_of_badAddress (hin h1) hi,
    ?_, ?_, ?_, ?_, ?_, ?_, ?_, ?_⟩
  · rintro i ⟨h1, h2⟩ hi
    exact judge_of_duplicate (hin h1) h2 hi
  · rintro i ⟨⟨h1, h2⟩, h3⟩ hi
    exact judge_of_badTiming (hin h1) h2 h3 hi
  · rintro i ⟨⟨⟨h1, h2⟩, h3⟩, h4⟩ hi
    exact judge_of_outside (hin h1) h2 h3 h4 hi
  · rintro i ⟨⟨⟨⟨h1, h2⟩, h3⟩, h4⟩, h5⟩ hi
    exact judge_of_overlaps (hin h1) h2 h3 h4 h5 hi
  · rintro ⟨⟨⟨⟨⟨h1, h2⟩, h3⟩, h4⟩, h5⟩, h6⟩ h7
    exact judge_of_lineChange (hin h1) h2 h3 h4 h5 h6 (hchange.2 h7)
  · exact fun r hr h7 hr' hbelow =>
      judge_of_overBudget (hpasses.1 h7) hr ((hover r).1 hr') fun q hq hb => hbelow q hq ((hover q).2 hb)
  · exact fun h7 hfits => judge_of_fits (hpasses.1 h7) fun r hr hb => hfits r hr ((hover r).2 hb)
  · intro h
    obtain ⟨h7, hfits⟩ := judge_accepted_passes h
    exact ⟨hpasses.2 h7, fun r hr hb => hfits r hr ((hover r).1 hb)⟩

end Sys2Proof.Machine
end

section
/-! SUPPORT. What a commit leaves as it is (R126, R142): its entries of the parcel queue go on or are finished, each by itself, and the
line, the registers and what waits stay. -/

namespace Sys2Proof.Machine

/-! ## Answers -/

/-- `v` holds what `u` holds, but for the answers. -/
abbrev ParcelUnit.KeepsButAnswers (v u : ParcelUnit) : Prop :=
  v = { u with answers := v.answers, answering := v.answering }

section
variable (p : Part)

theorem Part.writeAnswer_parcels (writes : List (Nat × Word)) :
    (p.writeAnswer writes).parcels = { p.parcels with answering := some (.writing writes) } := by
  unfold Part.writeAnswer
  split <;> rfl

theorem Part.startAnswer_keepsButAnswers : p.startAnswer.parcels.KeepsButAnswers p.parcels := by
  unfold Part.startAnswer
  split
  · split
    · split
      · rw [Part.writeAnswer_parcels]
      · rfl
    · rfl
  · rw [Part.writeAnswer_parcels]
  · split
    · rw [Part.writeAnswer_parcels]
    · rfl
  · rfl

theorem Part.readyAnswer_keepsButAnswers (a : AnswerFor) : (p.readyAnswer a).parcels.KeepsButAnswers p.parcels :=
  Part.startAnswer_keepsButAnswers _

theorem Part.nextAnswer_keepsButAnswers : p.nextAnswer.parcels.KeepsButAnswers p.parcels :=
  Part.startAnswer_keepsButAnswers _

end

/-! ## Entries finished -/

/-- An entry after: the same, or finished with the outcome of a node's change or a commit (R125, R126). -/
structure Parcel.FinishedFrom (f e : Parcel) : Prop where
  rest : f = { e with transfer := f.transfer, outcome := f.outcome, nodeStatus := f.nodeStatus, abandonOwed := f.abandonOwed }
  moved : f.transfer = .finishing ∨ f.transfer = e.transfer
  owed : f.abandonOwed = true → e.abandonOwed = true ∧ f.transfer = e.transfer

theorem Parcel.FinishedFrom.rfl {e : Parcel} : e.FinishedFrom e := ⟨by cases e; exact Eq.refl _, .inr (Eq.refl _), fun h => ⟨h, Eq.refl _⟩⟩

theorem Parcel.FinishedFrom.trans {e f g : Parcel} (h : g.FinishedFrom f) (k : f.FinishedFrom e) : g.FinishedFrom e := by
  obtain ⟨hrest, hmoved, howed⟩ := h
  obtain ⟨krest, kmoved, kowed⟩ := k
  refine ⟨by rw [hrest, krest], ?_, fun h => ?_⟩
  · rcases hmoved with h | h
    · exact .inl h
    · rw [h]
      exact kmoved
  · obtain ⟨h1, h2⟩ := howed h
    obtain ⟨h3, h4⟩ := kowed h1
    exact ⟨h3, h2.trans h4⟩

/-- The parcel unit after: its entries each by itself the same or finished, and all but the answers as before. -/
structure ParcelUnit.FinishedFrom (v u : ParcelUnit) : Prop where
  rest : v = { u with queue := v.queue, answers := v.answers, answering := v.answering }
  entries : List.Forall₂ Parcel.FinishedFrom v.queue u.queue

theorem forall₂_trans {α : Type} {R : α → α → Prop} (hR : ∀ {a b c}, R a b → R b c → R a c) {k l m : List α}
    (h : List.Forall₂ R k l) (h' : List.Forall₂ R l m) : List.Forall₂ R k m := by
  induction h generalizing m with
  | nil => exact h'
  | cons hab _ ih =>
    cases h' with
    | cons hbc hrest => exact .cons (hR hab hbc) (ih hrest)

theorem ParcelUnit.FinishedFrom.rfl {u : ParcelUnit} : u.FinishedFrom u :=
  ⟨Eq.refl _, List.forall₂_same.2 fun _ _ => .rfl⟩

theorem ParcelUnit.FinishedFrom.trans {u v w : ParcelUnit} (h : w.FinishedFrom v) (k : v.FinishedFrom u) : w.FinishedFrom u :=
  ⟨by rw [h.rest, k.rest], forall₂_trans (fun h k => h.trans k) h.entries k.entries⟩

theorem forall₂_mem_right {α : Type} {R : α → α → Prop} {l m : List α} (h : List.Forall₂ R l m) {b : α} (hb : b ∈ m) :
    ∃ a ∈ l, R a b := by
  induction h with
  | nil => cases hb
  | cons hab _ ih =>
    rcases List.mem_cons.1 hb with rfl | hb
    · exact ⟨_, List.mem_cons_self, hab⟩
    · obtain ⟨a, ha, hR⟩ := ih hb
      exact ⟨a, List.mem_cons_of_mem _ ha, hR⟩

theorem forall₂_mem_left {α : Type} {R : α → α → Prop} {l m : List α} (h : List.Forall₂ R l m) {a : α} (ha : a ∈ l) :
    ∃ b ∈ m, R a b :=
  forall₂_mem_right (R := fun x y => R y x) h.flip ha

theorem Parcel.FinishedFrom.slot {e f : Parcel} (h : f.FinishedFrom e) : f.slot = e.slot := by rw [h.rest]

theorem find?_finishedFrom {l m : List Parcel} (h : List.Forall₂ Parcel.FinishedFrom l m) (slot : SlotIx) :
    (m.find? (·.slot == slot) = none → l.find? (·.slot == slot) = none) ∧
      ∀ e, m.find? (·.slot == slot) = some e → ∃ f, l.find? (·.slot == slot) = some f ∧ f.FinishedFrom e := by
  induction h with
  | nil => exact ⟨id, fun e he => by cases he⟩
  | @cons a b _ _ hab _ ih =>
    by_cases hslot : b.slot = slot
    · have ha : (a.slot == slot) = true := by rw [hab.slot, hslot, beq_self_eq_true]
      have hb : (b.slot == slot) = true := by rw [hslot, beq_self_eq_true]
      rw [List.find?_cons_of_pos (p := fun e : Parcel => e.slot == slot) ha,
        List.find?_cons_of_pos (p := fun e : Parcel => e.slot == slot) hb]
      refine ⟨fun he => absurd he (by simp), fun e he => ⟨a, rfl, ?_⟩⟩
      rwa [← Option.some.inj he]
    · have hb : ¬ (b.slot == slot) = true := by simpa using hslot
      have ha : ¬ (a.slot == slot) = true := by rwa [hab.slot]
      rw [List.find?_cons_of_neg (p := fun e : Parcel => e.slot == slot) ha,
        List.find?_cons_of_neg (p := fun e : Parcel => e.slot == slot) hb]
      exact ih

theorem ParcelUnit.FinishedFrom.of_answers {v u : ParcelUnit} (h : v.KeepsButAnswers u) : v.FinishedFrom u := by
  rw [h]
  exact ⟨Eq.refl _, List.forall₂_same.2 fun _ _ => .rfl⟩

section
variable (p : Part)

theorem Part.modParcel_finishedFrom (slot : SlotIx) (f : Parcel → Parcel) (hf : ∀ e, (f e).FinishedFrom e) :
    (p.modParcel slot f).parcels.FinishedFrom p.parcels := by
  refine ⟨Eq.refl _, ?_⟩
  change List.Forall₂ _ (p.parcels.queue.map _) p.parcels.queue
  rw [List.forall₂_map_left_iff]
  refine List.forall₂_same.2 fun e _ => ?_
  split
  · exact hf e
  · exact .rfl

theorem Part.finishParcel_finishedFrom (slot : SlotIx) (outcome : ParcelOutcome) (status : Byte) :
    (p.finishParcel slot outcome status).parcels.FinishedFrom p.parcels :=
  (ParcelUnit.FinishedFrom.of_answers (Part.readyAnswer_keepsButAnswers _ _)).trans
    (p.modParcel_finishedFrom slot _ fun _ => ⟨Eq.refl _, .inl (Eq.refl _), nofun⟩)

theorem Part.abandonDone_finishedFrom (slot : SlotIx) : (p.abandonDone slot).parcels.FinishedFrom p.parcels :=
  (ParcelUnit.FinishedFrom.of_answers (Part.readyAnswer_keepsButAnswers _ _)).trans
    (p.modParcel_finishedFrom slot _ fun _ => ⟨Eq.refl _, .inr (Eq.refl _), nofun⟩)

theorem Part.parcelAtChange_finishedFrom (new : NodeState) (e : Parcel) :
    (p.parcelAtChange new e).parcels.FinishedFrom p.parcels := by
  unfold Part.parcelAtChange
  split
  all_goals try exact .rfl
  all_goals try exact p.finishParcel_finishedFrom _ _ _
  all_goals
    split
    · exact p.abandonDone_finishedFrom _
    · exact .rfl

/-- A fold finishes what each of its steps finishes. -/
theorem foldl_finishedFrom {β : Type} (f : Part → β → Part) (hf : ∀ q b, (f q b).parcels.FinishedFrom q.parcels) (l : List β) :
    (l.foldl f p).parcels.FinishedFrom p.parcels :=
  foldl_relates (fun q p => q.parcels.FinishedFrom p.parcels) .rfl (fun h k => h.trans k) f hf l p

theorem Part.parcelNodeChange_finishedFrom (i : NodeIx) (new : NodeState) :
    (p.parcelNodeChange i new).parcels.FinishedFrom p.parcels :=
  foldl_finishedFrom p _ (fun q e => q.parcelAtChange_finishedFrom new e) _

theorem Part.parcelCommit_finishedFrom (new : Vector NodeEntry 48) : (p.parcelCommit new).parcels.FinishedFrom p.parcels := by
  refine foldl_finishedFrom p _ (fun q e => ?_) _
  split
  · exact q.finishParcel_finishedFrom _ _ _
  · exact q.finishParcel_finishedFrom _ _ _
  · exact q.finishParcel_finishedFrom _ _ _
  · split
    · exact q.abandonDone_finishedFrom _
    · exact .rfl

/-! ## A record's change, and the commit -/

/-- The record moved, and the event unit's part of it: what the parcel unit's part of a change begins with (R5). -/
def Part.leftService (p : Part) (i : NodeIx) (f : NodeRecord → NodeRecord) (new : NodeState) : Part :=
  if (p.node i).state.inService && !new.inService then (p.modNode i fun r => r.moved f new).eventLeaves i
  else p.modNode i fun r => r.moved f new

theorem Part.moveNode_parcels (i : NodeIx) (f : NodeRecord → NodeRecord) (new : NodeState) :
    (p.moveNode i f new).parcels = ((p.leftService i f new).parcelNodeChange i new).parcels := by
  have hstatus (q : Part) : (if q.ladder.state = .starting then q else q.queueStatus i true).parcels = q.parcels := by
    split <;> simp
  have htoggle (q : Part) (c : Prop) [Decidable c] (g : FrameEngine → FrameEngine) :
      (if c then { q with frames := g q.frames } else q).parcels = q.parcels := by
    split <;> rfl
  exact (hstatus _).trans (htoggle _ _ fun e => { e with toggles := tabModify e.toggles i fun _ => true })

theorem Part.moveNode_finishedFrom (i : NodeIx) (f : NodeRecord → NodeRecord) (new : NodeState) :
    (p.moveNode i f new).parcels.FinishedFrom p.parcels := by
  rw [Part.moveNode_parcels]
  have hleft : (p.leftService i f new).parcels = p.parcels := by
    unfold Part.leftService
    split <;> rfl
  rw [← hleft]
  exact (p.leftService i f new).parcelNodeChange_finishedFrom i new

theorem Part.changeState_finishedFrom (i : NodeIx) (f : NodeRecord → NodeRecord) (new : NodeState) :
    (p.changeState i f new).parcels.FinishedFrom p.parcels := by
  unfold Part.changeState
  dsimp only
  split
  · exact p.moveNode_finishedFrom i f new
  · have h := (p.applyLoss (p.node i).applied p.loader.settings.inBytes).moveNode_finishedFrom i f new
    rwa [show (p.applyLoss _ _).parcels = p.parcels by simp] at h

/-- What relates a commit's result to the part before it: a relation that each of its operations on a record keeps. -/
structure Part.CommitSteps (R : Part → Part → Prop) : Prop where
  refl : ∀ {p}, R p p
  trans : ∀ {p q r}, R r q → R q p → R r p
  record : ∀ (p : Part) (i : NodeIx) (f : NodeRecord → NodeRecord), R (p.modNode i f) p
  status : ∀ (p : Part) (i : NodeIx), R (p.queueStatus i false) p
  leaves : ∀ (p : Part) (i : NodeIx), R (p.eventLeaves i) p
  cleared : ∀ (p : Part) (i : NodeIx), R (p.eventCleared i) p
  moves : ∀ (p : Part) (i : NodeIx) (f : NodeRecord → NodeRecord) (new : NodeState), R (p.moveNode i f new) p
  loss : ∀ (p : Part) (e : NodeEntry) (size : Nat), R (p.applyLoss e size) p

section
variable {R : Part → Part → Prop}

theorem Part.CommitSteps.commitNode (h : Part.CommitSteps R) (i : NodeIx) (new : NodeEntry) : R (p.commitNode i new) p := by
  have rewritten (q : Part) (due : Bool) (hq : R q p) :
      R (if due && q.ladder.state != .starting then q.queueStatus i false else q) p := by
    split
    · exact h.trans (h.status _ _) hq
    · exact hq
  unfold Part.commitNode
  dsimp only
  split
  · split
    · exact rewritten _ _ (h.record _ _ _)
    · exact h.moves _ _ _ _
  split
  · split
    · exact rewritten _ _ (h.trans (h.record _ _ _) (h.cleared _ _))
    · exact h.trans (h.moves _ _ _ _) (h.cleared _ _)
  have left : R (if (p.node i).applied.eventsEnabled && !new.eventsEnabled then p.eventLeaves i else p) p := by
    split
    · exact h.leaves _ _
    · exact h.refl
  split
  · exact h.trans (h.moves _ _ _ _) left
  split
  · exact rewritten _ _ (h.trans (h.record _ _ _) left)
  · exact rewritten _ _ (h.trans (h.record _ _ _) left)

theorem Part.CommitSteps.nodeCommit (h : Part.CommitSteps R) (new : Vector NodeEntry 48) (size : Nat) :
    R (p.nodeCommit new size) p := by
  have fold (f : Part → NodeIx → Part) (hf : ∀ q i, R (f q i) q) (q : Part) : R (allNodes.foldl f q) q :=
    foldl_relates R h.refl h.trans f hf allNodes q
  have before (q : Part) (i : NodeIx) : R (q.lossBefore i (new.get i) size) q := by
    unfold Part.lossBefore
    dsimp only
    split
    · exact h.loss _ _ _
    · exact h.refl
  have after (q : Part) (i : NodeIx) : R (q.lossAfter i (new.get i) size) q := by
    unfold Part.lossAfter
    dsimp only
    split
    · exact h.loss _ _ _
    · exact h.refl
  unfold Part.nodeCommit
  dsimp only
  refine h.trans (fold (fun q i => q.commitNode i (new.get i)) (fun q i => h.commitNode q i (new.get i)) _) ?_
  exact h.trans (fold (fun q i => q.lossAfter i (new.get i) size) after _)
    (fold (fun q i => q.lossBefore i (new.get i) size) before _)

/-- What a commit hands to the other units, in the order of R142. -/
structure Part.AcceptSteps (R : Part → Part → Prop) : Prop extends Part.CommitSteps R where
  parcels : ∀ (p : Part) (new : Vector NodeEntry 48), R (p.parcelCommit new) p
  shadow : ∀ (p : Part) (lo hi : Nat), R (p.clearShadow lo hi) p
  windows : ∀ (p : Part) (n : Nat), R (p.windowCommit n) p
  settings : ∀ (p : Part) (d : Directory) (g : Word) (v : Verdict),
    R (p.modLoader fun l => { l with settings := d.settings, accepted := g, refused := none, verdict := v }) p
  counted : ∀ p : Part, R (p.count .commitsAccepted) p
  opened : ∀ (p : Part) (exempt : NodeIx → Bool), R (p.nodeOpen exempt) p
  restored : ∀ p : Part, R p.restoreAccepted p
  checked : ∀ (p : Part) (c : Check), R (p.checkAt c) p

theorem Part.AcceptSteps.acceptCommit (h : Part.AcceptSteps R) (d : Directory) (c : Check) (v : Verdict) :
    R (p.acceptCommit d c v) p := by
  have units : R (((((((p.parcelCommit (tabMap (fun _ e => DirEntry.applied e) d.entries)).nodeCommit
      (tabMap (fun _ e => DirEntry.applied e) d.entries) d.settings.inBytes).clearShadow d.settings.inBytes
      p.loader.settings.inBytes).windowCommit d.settings.initialWindow).modLoader fun l =>
      { l with settings := d.settings, accepted := c.generation, refused := none, verdict := v }).count .commitsAccepted)) p :=
    h.trans (h.counted _) <| h.trans (h.settings _ _ _ _) <| h.trans (h.windows _ _) <| h.trans (h.shadow _ _ _) <|
      h.trans (h.nodeCommit _ _ _) (h.parcels _ _)
  unfold Part.acceptCommit
  dsimp only
  refine h.trans (h.checked _ _) ?_
  split
  · exact h.trans (h.opened _ _) units
  · exact h.trans (foldl_relates R h.refl h.trans _ (fun q i => h.status q i) allNodes _) (h.trans (h.restored _) units)
  · exact units
  · exact units

end

/-- A commit finishes entries of the parcel queue, and that is all it does there. -/
theorem finishes_acceptSteps : Part.AcceptSteps fun q p => q.parcels.FinishedFrom p.parcels where
  refl := .rfl
  trans h k := h.trans k
  record _ _ _ := .rfl
  status p i := by rw [show (p.queueStatus i false).parcels = p.parcels by simp]; exact .rfl
  leaves p i := by rw [show (p.eventLeaves i).parcels = p.parcels by simp]; exact .rfl
  cleared p i := by rw [show (p.eventCleared i).parcels = p.parcels by simp]; exact .rfl
  moves p i f new := p.moveNode_finishedFrom i f new
  loss p e size := by rw [show (p.applyLoss e size).parcels = p.parcels by simp]; exact .rfl
  parcels p new := p.parcelCommit_finishedFrom new
  shadow _ _ _ := .rfl
  windows _ _ := .rfl
  settings _ _ _ _ := .rfl
  counted _ := .rfl
  opened _ _ := .rfl
  restored p := by rw [show p.restoreAccepted.parcels = p.parcels by simp]; exact .rfl
  checked p c := by rw [show (p.checkAt c).parcels = p.parcels by simp]; exact .rfl

/-- What a commit leaves of the line and of the list, but for the toggles: the frame engine, what waits, and the accesses on the list. -/
structure Part.KeepsLineAndList (q p : Part) : Prop where
  frames : q.frames = { p.frames with toggles := q.frames.toggles }
  parked : q.parked = p.parked
  bus : p.bus <+: q.bus

theorem Part.KeepsLineAndList.of_eq {q p : Part} (hframes : q.frames = p.frames) (hparked : q.parked = p.parked)
    (hbus : p.bus <+: q.bus) : q.KeepsLineAndList p :=
  ⟨by rw [hframes], hparked, hbus⟩

theorem Part.finishParcel_extends (slot : SlotIx) (outcome : ParcelOutcome) (status : Byte) :
    (p.finishParcel slot outcome status).Extends p :=
  (Part.readyAnswer_extends _ _).of_bus rfl

theorem Part.abandonDone_extends (slot : SlotIx) : (p.abandonDone slot).Extends p :=
  (Part.readyAnswer_extends _ _).of_bus rfl

theorem foldl_extends {β : Type} (f : Part → β → Part) (hf : ∀ q b, (f q b).Extends q) (l : List β) :
    (l.foldl f p).Extends p :=
  foldl_relates Part.Extends .rfl (fun h k => List.IsPrefix.trans k h) f hf l p

theorem Part.parcelAtChange_extends (new : NodeState) (e : Parcel) : (p.parcelAtChange new e).Extends p := by
  unfold Part.parcelAtChange
  split
  all_goals try exact .rfl
  all_goals try exact p.finishParcel_extends _ _ _
  all_goals
    split
    · exact p.abandonDone_extends _
    · exact .rfl

theorem Part.parcelNodeChange_extends (i : NodeIx) (new : NodeState) : (p.parcelNodeChange i new).Extends p :=
  foldl_extends p _ (fun q e => q.parcelAtChange_extends new e) _

theorem Part.parcelCommit_extends (new : Vector NodeEntry 48) : (p.parcelCommit new).Extends p := by
  refine foldl_extends p _ (fun q e => ?_) _
  split
  · exact q.finishParcel_extends _ _ _
  · exact q.finishParcel_extends _ _ _
  · exact q.finishParcel_extends _ _ _
  · split
    · exact q.abandonDone_extends _
    · exact .rfl

@[simp] theorem Part.eventLeaves_bus (i : NodeIx) : (p.eventLeaves i).bus = p.bus := rfl

@[simp] theorem Part.eventCleared_bus (i : NodeIx) : (p.eventCleared i).bus = p.bus :=
  p.eventLeaves_bus i

theorem Part.leftService_eqs (i : NodeIx) (f : NodeRecord → NodeRecord) (new : NodeState) :
    (p.leftService i f new).frames = p.frames ∧ (p.leftService i f new).parked = p.parked ∧
      (p.leftService i f new).bus = p.bus := by
  unfold Part.leftService
  split <;> simp

theorem Part.moveNode_keepsLineAndList (i : NodeIx) (f : NodeRecord → NodeRecord) (new : NodeState) :
    (p.moveNode i f new).KeepsLineAndList p := by
  obtain ⟨hframes, hparked, hbus⟩ := p.leftService_eqs i f new
  have hchange : ((p.leftService i f new).parcelNodeChange i new).KeepsLineAndList p :=
    .of_eq (by simp [hframes]) (by simp [hparked]) ((Part.parcelNodeChange_extends _ i new).of_bus hbus)
  have hstatus (q : Part) (hq : q.KeepsLineAndList p) :
      (if q.ladder.state = .starting then q else q.queueStatus i true).KeepsLineAndList p := by
    split
    · exact hq
    · exact ⟨by simpa using hq.frames, by simpa using hq.parked, hq.bus.trans (q.queueStatus_extends i true)⟩
  have htoggle (q : Part) (c : Prop) [Decidable c] (hq : q.KeepsLineAndList p) :
      (if c then { q with frames := { q.frames with toggles := tabModify q.frames.toggles i fun _ => true } }
        else q).KeepsLineAndList p := by
    split
    · exact ⟨by rw [hq.frames], hq.parked, hq.bus⟩
    · exact hq
  exact hstatus _ (htoggle _ _ hchange)

theorem keepsLineAndList_acceptSteps : Part.AcceptSteps Part.KeepsLineAndList where
  refl := .of_eq rfl rfl (List.prefix_refl _)
  trans h k := ⟨by rw [h.frames, k.frames], h.parked.trans k.parked, k.bus.trans h.bus⟩
  record _ _ _ := .of_eq rfl rfl (List.prefix_refl _)
  status p i := .of_eq (by simp) (by simp) (p.queueStatus_extends i false)
  leaves p i := .of_eq (by simp) (by simp) (by rw [p.eventLeaves_bus i])
  cleared p i := .of_eq (by simp) (by simp) (by rw [p.eventCleared_bus i])
  moves p i f new := p.moveNode_keepsLineAndList i f new
  loss p e size := .of_eq (by simp) (by simp) (by unfold Part.applyLoss; split <;> exact List.prefix_refl _)
  parcels p new := .of_eq (by simp) (by simp) (p.parcelCommit_extends new)
  shadow _ _ _ := .of_eq rfl rfl (List.prefix_refl _)
  windows _ _ := .of_eq rfl rfl (List.prefix_refl _)
  settings _ _ _ _ := .of_eq rfl rfl (List.prefix_refl _)
  counted _ := .of_eq rfl rfl (List.prefix_refl _)
  opened _ _ := .of_eq rfl rfl (List.prefix_refl _)
  restored p := .of_eq (by simp) (by simp) (by unfold Part.restoreAccepted; split <;> exact List.prefix_refl _)
  checked p c := .of_eq (by simp) (by simp) (p.checkAt_extends c)

/-- The registers that a commit leaves: CAUSE, the captured fault, and every counter but that of commits. -/
structure Part.KeepsRegisters (q p : Part) : Prop where
  cause : q.faults.cause = p.faults.cause
  capture : q.faults.capture = p.faults.capture
  counters : ∀ c, c ≠ .commitsAccepted → q.counter c = p.counter c

theorem Part.KeepsRegisters.of_faults {q p : Part} (h : q.faults = p.faults) : q.KeepsRegisters p :=
  ⟨by rw [h], by rw [h], fun c _ => by rw [Part.counter, h, Part.counter]⟩

@[simp] theorem Part.checkAt_faults (c : Check) : (p.checkAt c).faults = p.faults := by
  unfold Part.checkAt
  dsimp only
  split <;> rfl

theorem keepsRegisters_acceptSteps : Part.AcceptSteps Part.KeepsRegisters where
  refl := .of_faults rfl
  trans h k := ⟨h.cause.trans k.cause, h.capture.trans k.capture, fun c hc => (h.counters c hc).trans (k.counters c hc)⟩
  record _ _ _ := .of_faults rfl
  status p i := .of_faults (by simp)
  leaves p i := .of_faults (by simp)
  cleared p i := .of_faults (by simp)
  moves p i f new := .of_faults (p.moveNode_keeps i f new).2.2.2.2.2.1
  loss p e size := .of_faults (p.applyLoss_keeps e size).2.2.2.2.1
  parcels p new := .of_faults (by simp)
  shadow _ _ _ := .of_faults rfl
  windows _ _ := .of_faults rfl
  settings _ _ _ _ := .of_faults rfl
  counted p := ⟨rfl, rfl, fun c hc => (p.count_counter .commitsAccepted c).trans (if_neg fun h => hc h.symm)⟩
  opened _ _ := .of_faults rfl
  restored p := .of_faults (by unfold Part.restoreAccepted; split <;> rfl)
  checked p c := .of_faults (by simp)

/-- A directory read at rest is judged as the line is held: nothing, a refusal, or a commit. -/
theorem Part.judgeKept_cases : p.judgeKept = p ∨ (∃ c v, p.judgeKept = p.refuseCommit c v) ∨
    ∃ d c v, p.judgeKept = p.acceptCommit d c v := by
  unfold Part.judgeKept
  split
  · next c _ =>
    split
    · unfold Part.judgeCopy
      dsimp only
      generalize judge _ _ = j
      by_cases hcode : j.code = .accepted
      · exact .inr (.inr ⟨_, _, _, if_pos hcode⟩)
      · exact .inr (.inl ⟨_, _, if_neg hcode⟩)
    · exact .inl rfl
  · exact .inl rfl

/-- A relation that a commit's steps keep, and a refusal, holds over the judgement. -/
theorem Part.AcceptSteps.judgeKept {R : Part → Part → Prop} (h : Part.AcceptSteps R)
    (hrefused : ∀ (p : Part) (c : Check) (v : Verdict), R (p.refuseCommit c v) p) : R p.judgeKept p := by
  rcases p.judgeKept_cases with heq | ⟨c, v, heq⟩ | ⟨d, c, v, heq⟩ <;> rw [heq]
  · exact h.refl
  · exact hrefused p c v
  · exact h.acceptCommit p d c v

theorem Part.judgeKept_finishedFrom : p.judgeKept.parcels.FinishedFrom p.parcels :=
  finishes_acceptSteps.judgeKept p fun p c v => by
    rw [show (p.refuseCommit c v).parcels = p.parcels by simp]
    exact .rfl

theorem Part.judgeKept_keepsLineAndList : p.judgeKept.KeepsLineAndList p :=
  keepsLineAndList_acceptSteps.judgeKept p fun p c v =>
    .of_eq (by simp) (by simp) (Part.checkAt_extends (p.modLoader fun l => { l with refused := some c.generation, verdict := v }) _)

theorem Part.judgeKept_keepsRegisters : p.judgeKept.KeepsRegisters p :=
  keepsRegisters_acceptSteps.judgeKept p fun _ _ _ => .of_faults (Part.checkAt_faults _ _)

end

end Sys2Proof.Machine
end

section
/-! SUPPORT. The way from rest back to the held line (R156, R129): what the parcel unit takes up there, and what a commit judged there leaves
(O33). -/

namespace Sys2Proof.Machine

section
variable (p : Part)

/-! ## What waits at rest stays parked while blocks act -/

theorem Part.settleNodeOpen_parked : p.settleNodeOpen.parked = p.parked := by
  unfold Part.settleNodeOpen
  dsimp only
  (repeat' split) <;> simp

theorem Part.settleCheck_parked : p.settleCheck.parked = p.parked := by
  unfold Part.settleCheck
  (repeat' split) <;> simp

theorem Part.settleStartup_parked : p.settleStartup.parked = p.parked := by
  unfold Part.settleStartup
  (repeat' split) <;> simp [Part.startupRead, Part.startupFail]

theorem Part.settleParcelOpen_parked : p.settleParcelOpen.parked = p.parked := by
  have hrewrites : p.openRewrites.parked = p.parked := by
    unfold Part.openRewrites
    split <;> simp
  have hpatience (q : Part) : q.openPatience.parked = q.parked := by
    unfold Part.openPatience
    split <;> simp
  have hscan (q : Part) : q.openScan.parked = q.parked := by
    unfold Part.openScan
    split <;> simp
  unfold Part.settleParcelOpen
  split
  · rw [hscan, hpatience, hrewrites]
  · rfl

theorem Part.serviceName_parked (i : NodeIx) : (p.serviceName i).parked = p.parked := by
  unfold Part.serviceName
  split <;> simp [Part.serveNode, Part.giveFetch]

theorem Part.endService_parked : p.endService.parked = p.parked := by
  unfold Part.endService
  dsimp only
  split <;> simp

theorem Part.serviceNext_parked : p.serviceNext.parked = p.parked := by
  unfold Part.serviceNext
  split
  · exact p.endService_parked
  split
  · exact p.serviceName_parked _
  split
  · exact p.endService_parked
  split
  · dsimp only
    split
    · exact p.newRound.serviceName_parked _
    · exact p.newRound.endService_parked
  · rfl

theorem Part.settleService_parked : p.settleService.parked = p.parked := by
  unfold Part.settleService
  split
  · split
    · exact p.endService_parked
    · split
      · exact Part.serviceNext_parked _
      · rfl
  · rfl

theorem Part.settle_parked : p.settle.parked = p.parked := by
  rw [Part.settle, Part.settleService_parked, show ∀ q : Part, q.startAppend.parked = q.parked from fun q => by simp,
    show ∀ q : Part, q.settleSnapshot.parked = q.parked from fun q => by simp, Part.settleParcelOpen_parked,
    Part.settleStartup_parked, Part.settleCheck_parked, Part.settleNodeOpen_parked]

/-! ## The parcel unit's work only adds to the request list -/

theorem Part.writeAnswer_extends (writes : List (Nat × Word)) : (p.writeAnswer writes).Extends p := by
  unfold Part.writeAnswer
  dsimp only
  split <;> simp [Part.Extends]

theorem Part.nextAnswer_extends : p.nextAnswer.Extends p :=
  (Part.startAnswer_extends _).of_bus rfl

theorem Part.walkOn_extends (slot : SlotIx) (left : Nat) : (p.walkOn slot left).Extends p := by
  unfold Part.walkOn Part.walkEnd Part.visitSlot
  split
  · dsimp only
    split
    · exact (Part.scanTrigger_extends _).of_bus rfl
    · exact .rfl
  · simp [Part.Extends]

theorem Part.totalRead_extends (total : Word) : (p.totalRead total).Extends p := by
  unfold Part.totalRead Part.visitSlot Part.readTotal
  dsimp only
  (repeat' split) <;> simp [Part.Extends]

theorem Part.judgeSlot_extends (slot : SlotIx) (left : Nat) (ask withdraw : Half) (target length : Word) :
    (p.judgeSlot slot left ask withdraw target length).Extends p := by
  have hanswer (o : ParcelOutcome) : (p.answerAtOnce slot left ask o).Extends p := (Part.readyAnswer_extends _ _).of_bus rfl
  have htake (hd : SlotHeader) : (p.beginTake slot left hd).Extends p := by
    unfold Part.beginTake Part.writeTaken
    split <;> simp [Part.Extends]
  unfold Part.judgeSlot
  dsimp only
  (repeat' split) <;> first | exact hanswer _ | exact htake _ | exact .rfl

theorem Part.visitRead_extends (slot : SlotIx) (left : Nat) (got : List Word) : (p.visitRead slot left got).Extends p := by
  unfold Part.visitRead
  split
  · split
    · exact (Part.readyAnswer_extends _ _).of_bus rfl
    split
    · exact p.walkOn_extends slot left
    · simp [Part.Extends]
  · exact p.judgeSlot_extends _ _ _ _ _ _
  · simp [Part.Extends]

/-- The entry of a take, before what a commit applied since the visit makes of it (R115). -/
def Part.enqueueParcel (p : Part) (e : Parcel) : Part :=
  ({ p with parcels := { p.parcels with queue := p.parcels.queue ++ [e] } } : Part).count .parcelsTaken

theorem Part.parcelTaken_eq (slot : SlotIx) (left : Nat) (hd : SlotHeader) (request : List Byte) :
    ∃ q : Part, p.parcelTaken slot left hd request = q.walkOn slot left ∧ q.ladder = p.ladder ∧
      q.faults = (p.count .parcelsTaken).faults ∧ q.Extends p ∧
      q.parcels.FinishedFrom (p.enqueueParcel
        (takenParcel slot hd request p.loader.settings.patience p.sched.cycle)).parcels := by
  let created := p.enqueueParcel (takenParcel slot hd request p.loader.settings.patience p.sched.cycle)
  let applied := (created.node hd.node).applied
  refine ⟨if applied.enabled && applied.address == hd.target then created else created.finishParcel slot .nodeUnavailable 0,
    rfl, ?_, ?_, ?_, ?_⟩
  · split
    · rfl
    · exact (created.finishParcel_keepsOffParcels slot _ _).1
  · split
    · rfl
    · rw [(created.finishParcel_keepsUnits slot _ _).2.2.2.2.2.2.2]
      rfl
  · split
    · exact .rfl
    · exact (created.finishParcel_extends slot _ _).of_bus rfl
  · split
    · exact .rfl
    · exact created.finishParcel_finishedFrom slot _ _

theorem Part.parcelTaken_extends (slot : SlotIx) (left : Nat) (hd : SlotHeader) (request : List Byte) :
    (p.parcelTaken slot left hd request).Extends p := by
  obtain ⟨q, heq, -, -, hq, -⟩ := p.parcelTaken_eq slot left hd request
  rw [heq]
  exact List.IsPrefix.trans hq (q.walkOn_extends slot left)

theorem Part.continueWalk_extends (w : Word) : (p.continueWalk w).Extends p := by
  unfold Part.continueWalk Part.writeTaken
  split
  · exact p.totalRead_extends w
  · exact p.visitRead_extends _ _ _
  · dsimp only
    split <;> simp [Part.Extends]
  · exact p.parcelTaken_extends _ _ _ _
  · exact .rfl
  · exact .rfl

theorem Part.walkFailed_extends : p.walkFailed.Extends p := by
  unfold Part.walkFailed Part.readTotal
  dsimp only
  (repeat' split) <;> simp [Part.Extends, Part.walkStop]

theorem Part.answerComplete_extends : p.answerComplete.Extends p := by
  have next (q : Part) (hq : q.bus = p.bus) : q.nextAnswer.Extends p := q.nextAnswer_extends.of_bus hq
  have walked (q : Part) (hq : q.bus = p.bus) (slot : SlotIx) (left : Nat) : (q.nextAnswer.walkOn slot left).Extends p :=
    List.IsPrefix.trans (next q hq) (Part.walkOn_extends _ _ _)
  unfold Part.answerComplete
  split
  · split <;> exact next _ rfl
  · dsimp only
    split
    · refine walked _ ?_ _ _
      rfl
    · exact next _ rfl
  · split
    · dsimp only
      split
      · refine walked _ ?_ _ _
        rfl
      · exact next _ rfl
    · exact next _ rfl
  · exact .rfl

theorem Part.continueAnswer_extends (w : Word) : (p.continueAnswer w).Extends p := by
  unfold Part.continueAnswer
  split
  · split
    · dsimp only
      split
      · exact (Part.writeAnswer_extends _ _).of_bus rfl
      · exact (Part.nextAnswer_extends _).of_bus rfl
    · exact .rfl
  · exact p.writeAnswer_extends _
  · exact p.answerComplete_extends
  · exact .rfl

theorem Part.answerFailed_extends : p.answerFailed.Extends p := by
  unfold Part.answerFailed
  split
  · exact (Part.nextAnswer_extends _).of_bus rfl
  · dsimp only
    split <;> exact (Part.nextAnswer_extends _).of_bus rfl
  · split <;> exact (Part.nextAnswer_extends _).of_bus rfl
  · exact .rfl

theorem Part.parcelEnd_extends (e : ParcelEnd) : (p.parcelEnd e).Extends p := by
  unfold Part.parcelEnd
  split
  · exact p.continueWalk_extends _
  · exact p.walkFailed_extends
  · exact p.continueAnswer_extends _
  · exact p.answerFailed_extends

theorem Part.resumeParcels_extends : p.resumeParcels.Extends p := by
  have hend : p.takeKeptEnd.Extends p := by
    unfold Part.takeKeptEnd
    split
    · exact (Part.parcelEnd_extends _ _).of_bus rfl
    · exact .rfl
  unfold Part.resumeParcels
  dsimp only
  split
  · exact List.IsPrefix.trans hend ((Part.scanTrigger_extends _).of_bus rfl)
  · exact hend

/-! ## What the parcel unit keeps of the time at rest -/

/-- `q` has taken no end of an access and no trigger to be kept at rest. -/
abbrev Part.KeepsKept (q p : Part) : Prop :=
  q.parcels.keptEnd = p.parcels.keptEnd ∧ q.parcels.keptTrigger = p.parcels.keptTrigger

variable {p}

section
variable (h : p.ladder.state.pauses = false)
include h

/-- Where memory work goes on, a trigger is taken at once: by the walk's state (R113). -/
theorem Part.scanTrigger_works : p.scanTrigger =
    if p.parcels.walk = .idle then p.readTotal
    else if p.parcels.walk = .total then { p with parcels := { p.parcels with triggerAgain := true } }
    else { p with parcels := { p.parcels with scanOwed := true } } := by
  unfold Part.scanTrigger
  rw [h]
  cases p.parcels.walk <;> rfl

theorem Part.scanTrigger_walk : p.scanTrigger.parcels.walk = if p.parcels.walk = .idle then .total else p.parcels.walk := by
  rw [Part.scanTrigger_works h]
  split
  · rfl
  · split <;> rfl

theorem Part.scanTrigger_walk_ne_idle : p.scanTrigger.parcels.walk ≠ .idle := by
  rw [Part.scanTrigger_walk h]
  split
  · decide
  · assumption

theorem Part.scanTrigger_keepsKept : p.scanTrigger.KeepsKept p := by
  rw [Part.scanTrigger_works h]
  split
  · exact ⟨rfl, rfl⟩
  · split <;> exact ⟨rfl, rfl⟩

end

section
variable (p)

theorem Part.scanTrigger_queue : p.scanTrigger.parcels.queue = p.parcels.queue := by
  unfold Part.scanTrigger
  split
  · rfl
  · split <;> rfl

theorem Part.walkOn_queue (slot : SlotIx) (left : Nat) : (p.walkOn slot left).parcels.queue = p.parcels.queue := by
  unfold Part.walkOn Part.walkEnd
  split
  · dsimp only
    split
    · exact Part.scanTrigger_queue _
    · rfl
  · rfl

theorem Part.walkOn_faults (slot : SlotIx) (left : Nat) : (p.walkOn slot left).faults = p.faults := by
  unfold Part.walkOn Part.walkEnd
  split
  · dsimp only
    split
    · exact (Part.scanTrigger_keepsUnits _).2.2.2.2.2.2.2
    · rfl
  · rfl

theorem Part.nextAnswer_queue : p.nextAnswer.parcels.queue = p.parcels.queue := by
  rw [Part.nextAnswer_keepsButAnswers p]

theorem Part.keepsKept_of_finishedFrom {q p : Part} (h : q.parcels.FinishedFrom p.parcels) : q.KeepsKept p := by
  rw [Part.KeepsKept, h.rest]
  exact ⟨rfl, rfl⟩

theorem Part.nextAnswer_keepsKept : p.nextAnswer.KeepsKept p := by
  rw [Part.KeepsKept, Part.nextAnswer_keepsButAnswers p]
  exact ⟨rfl, rfl⟩

theorem Part.readyAnswer_keepsKept (a : AnswerFor) : (p.readyAnswer a).KeepsKept p := by
  rw [Part.KeepsKept, Part.readyAnswer_keepsButAnswers p]
  exact ⟨rfl, rfl⟩

end

section
variable (h : p.ladder.state.pauses = false)
include h

theorem Part.walkOn_keepsKept (slot : SlotIx) (left : Nat) : (p.walkOn slot left).KeepsKept p := by
  unfold Part.walkOn Part.walkEnd
  split
  · dsimp only
    split
    · exact Part.scanTrigger_keepsKept h
    · exact ⟨rfl, rfl⟩
  · exact ⟨rfl, rfl⟩

theorem Part.totalRead_keepsKept (total : Word) : (p.totalRead total).KeepsKept p := by
  unfold Part.totalRead
  dsimp only
  (repeat' split) <;> exact ⟨rfl, rfl⟩

theorem Part.judgeSlot_keepsKept (slot : SlotIx) (left : Nat) (ask withdraw : Half) (target length : Word) :
    (p.judgeSlot slot left ask withdraw target length).KeepsKept p := by
  have hanswer (o : ParcelOutcome) : (p.answerAtOnce slot left ask o).KeepsKept p := Part.readyAnswer_keepsKept _ _
  have htake (hd : SlotHeader) : (p.beginTake slot left hd).KeepsKept p := by
    unfold Part.beginTake
    split <;> exact ⟨rfl, rfl⟩
  unfold Part.judgeSlot
  dsimp only
  split
  · exact hanswer _
  split
  · exact hanswer _
  split
  · exact hanswer _
  split
  · exact hanswer _
  split
  · exact hanswer _
  split
  · exact htake _
  · exact ⟨rfl, rfl⟩

theorem Part.visitRead_keepsKept (slot : SlotIx) (left : Nat) (got : List Word) :
    (p.visitRead slot left got).KeepsKept p := by
  unfold Part.visitRead
  split
  · split
    · exact Part.readyAnswer_keepsKept _ _
    split
    · exact Part.walkOn_keepsKept h slot left
    · exact ⟨rfl, rfl⟩
  · exact Part.judgeSlot_keepsKept h _ _ _ _ _ _
  · exact ⟨rfl, rfl⟩

theorem Part.parcelTaken_keepsKept (slot : SlotIx) (left : Nat) (hd : SlotHeader) (request : List Byte) :
    (p.parcelTaken slot left hd request).KeepsKept p := by
  obtain ⟨q, heq, hladder, -, -, hfinished⟩ := p.parcelTaken_eq slot left hd request
  have hwalk : (q.walkOn slot left).KeepsKept q := Part.walkOn_keepsKept (by rwa [hladder]) slot left
  rw [Part.KeepsKept, heq, hwalk.1, hwalk.2, hfinished.rest]
  exact ⟨rfl, rfl⟩

theorem Part.continueWalk_keepsKept (w : Word) : (p.continueWalk w).KeepsKept p := by
  unfold Part.continueWalk
  split
  · exact Part.totalRead_keepsKept h w
  · exact Part.visitRead_keepsKept h _ _ _
  · dsimp only
    split <;> exact ⟨rfl, rfl⟩
  · exact Part.parcelTaken_keepsKept h _ _ _ _
  · exact ⟨rfl, rfl⟩
  · exact ⟨rfl, rfl⟩

theorem Part.walkFailed_keepsKept : p.walkFailed.KeepsKept p := by
  unfold Part.walkFailed
  split
  · dsimp only
    split <;> exact ⟨rfl, rfl⟩
  all_goals exact ⟨rfl, rfl⟩

theorem Part.answerComplete_keepsKept : p.answerComplete.KeepsKept p := by
  have next (q : Part) (hq : q.KeepsKept p) : q.nextAnswer.KeepsKept p := by
    have hnext := q.nextAnswer_keepsKept
    exact ⟨hnext.1.trans hq.1, hnext.2.trans hq.2⟩
  have walked (q : Part) (hladder : q.ladder = p.ladder) (hq : q.KeepsKept p) (slot : SlotIx) (left : Nat) :
      (q.walkOn slot left).KeepsKept p := by
    have hwalk : (q.walkOn slot left).KeepsKept q := Part.walkOn_keepsKept (by rwa [hladder]) slot left
    exact ⟨hwalk.1.trans hq.1, hwalk.2.trans hq.2⟩
  unfold Part.answerComplete
  split
  · split
    · exact next _ ⟨rfl, rfl⟩
    · exact next _ ⟨rfl, rfl⟩
  · have hq (o : ParcelOutcome) : ((p.count .parcelsTaken).countAnswer o).nextAnswer.KeepsKept p := next _ ⟨rfl, rfl⟩
    dsimp only
    split
    · exact walked _ (by simp) (hq _) _ _
    · exact hq _
  · split
    · next d _ =>
      have hq : ((({ p with parcels := { p.parcels with deferred := none } } : Part).count .parcelsTaken).countAnswer
          d.outcome).nextAnswer.KeepsKept p := next _ ⟨rfl, rfl⟩
      dsimp only
      split
      · exact walked _ (by simp) hq _ _
      · exact hq
    · exact next _ ⟨rfl, rfl⟩
  · exact ⟨rfl, rfl⟩

theorem Part.continueAnswer_keepsKept (w : Word) : (p.continueAnswer w).KeepsKept p := by
  have written (q : Part) (writes : List (Nat × Word)) (hq : q.KeepsKept p) : (q.writeAnswer writes).KeepsKept p := by
    rw [Part.KeepsKept, q.writeAnswer_parcels]
    exact hq
  unfold Part.continueAnswer
  split
  · split
    · dsimp only
      split
      · exact written _ _ ⟨rfl, rfl⟩
      · exact ⟨(Part.nextAnswer_keepsKept _).1, (Part.nextAnswer_keepsKept _).2⟩
    · exact ⟨rfl, rfl⟩
  · exact written _ _ ⟨rfl, rfl⟩
  · exact Part.answerComplete_keepsKept h
  · exact ⟨rfl, rfl⟩

omit h in
theorem Part.answerFailed_keepsKept : p.answerFailed.KeepsKept p := by
  have next (q : Part) (hq : q.KeepsKept p) : q.nextAnswer.KeepsKept p := by
    have hnext := q.nextAnswer_keepsKept
    exact ⟨hnext.1.trans hq.1, hnext.2.trans hq.2⟩
  unfold Part.answerFailed
  split
  · exact next _ ⟨rfl, rfl⟩
  · dsimp only
    split <;> exact next _ ⟨rfl, rfl⟩
  · split <;> exact next _ ⟨rfl, rfl⟩
  · exact ⟨rfl, rfl⟩

theorem Part.parcelEnd_keepsKept (e : ParcelEnd) : (p.parcelEnd e).KeepsKept p := by
  unfold Part.parcelEnd
  split
  · exact Part.continueWalk_keepsKept h _
  · exact Part.walkFailed_keepsKept h
  · exact Part.continueAnswer_keepsKept h _
  · exact Part.answerFailed_keepsKept

/-- The line held again, nothing is kept any more (R129). -/
theorem Part.resumeParcels_kept : p.resumeParcels.parcels.keptEnd = none ∧ p.resumeParcels.parcels.keptTrigger = false := by
  have hend : p.takeKeptEnd.parcels.keptEnd = none := by
    unfold Part.takeKeptEnd
    split
    · exact (Part.parcelEnd_keepsKept (p := { p with parcels := { p.parcels with keptEnd := none } }) h _).1
    · assumption
  have hladder : p.takeKeptEnd.ladder = p.ladder := by simp
  unfold Part.resumeParcels
  dsimp only
  split
  · have hkept := Part.scanTrigger_keepsKept
      (p := { p.takeKeptEnd with parcels := { p.takeKeptEnd.parcels with keptTrigger := false } })
      (show p.takeKeptEnd.ladder.state.pauses = false by rw [hladder, h])
    rw [hkept.1, hkept.2]
    exact ⟨hend, rfl⟩
  · next hclear => exact ⟨hend, by simpa using hclear⟩

omit h in
theorem Part.resumeParcels_queue : p.resumeParcels.parcels.queue = p.takeKeptEnd.parcels.queue := by
  unfold Part.resumeParcels
  dsimp only
  split
  · exact Part.scanTrigger_queue _
  · rfl

omit h in
theorem Part.resumeParcels_faults : p.resumeParcels.faults = p.takeKeptEnd.faults := by
  unfold Part.resumeParcels
  dsimp only
  split
  · rw [(Part.scanTrigger_keepsUnits _).2.2.2.2.2.2.2]
  · rfl

omit h in
/-- The answer whose number was being written as RESTING was entered frees its entry (R127). -/
theorem Part.takeKeptEnd_of_answer {word : Word} {last : Nat × Word} {slot : SlotIx} {e : Parcel} {rest : List AnswerFor}
    (hkept : p.parcels.keptEnd = some (.answer (some word))) (hwriting : p.parcels.answering = some (.writing [last]))
    (hanswers : p.parcels.answers = .entry slot :: rest) (hentry : p.parcelOf slot = some e) :
    p.takeKeptEnd.parcels.queue = p.parcels.queue.filter (·.slot != slot) ∧ p.takeKeptEnd.hasCause .parcel = true := by
  let q : Part := { p with parcels := { p.parcels with keptEnd := none } }
  have heq : p.takeKeptEnd = ((q.countAnswer e.outcome).freeParcel slot).nextAnswer := by
    have hq : q.parcelOf slot = some e := hentry
    rw [Part.takeKeptEnd, hkept]
    change q.continueAnswer word = _
    rw [Part.continueAnswer, show q.parcels.answering = some (.writing [last]) from hwriting]
    change q.answerComplete = _
    rw [Part.answerComplete, show q.parcels.answers = .entry slot :: rest from hanswers]
    dsimp only
    rw [hq]
  rw [heq]
  refine ⟨(Part.nextAnswer_queue _).trans rfl, ?_⟩
  have hfaults : (((q.countAnswer e.outcome).freeParcel slot).nextAnswer).faults = (q.countAnswer e.outcome).faults := by
    rw [(Part.nextAnswer_keepsUnits _).2.2.2.2.2.2.2]
    rfl
  rw [Part.hasCause, hfaults]
  change (q.countAnswer e.outcome).hasCause .parcel = true
  simp [Part.countAnswer]

omit h in
/-- The take whose number was being written creates its entry (R115). -/
theorem Part.takeKeptEnd_of_take {word : Word} {slot : SlotIx} {left : Nat} {hd : SlotHeader} {request : List Byte}
    (hkept : p.parcels.keptEnd = some (.walk (some word))) (hwalk : p.parcels.walk = .taking slot left hd request) :
    p.takeKeptEnd.counter .parcelsTaken = p.counter .parcelsTaken + 1 ∧
      ∃ e ∈ p.takeKeptEnd.parcels.queue, e.slot = slot ∧ e.ask = hd.ask ∧ e.node = hd.node := by
  let q : Part := { p with parcels := { p.parcels with keptEnd := none } }
  have heq : p.takeKeptEnd = q.parcelTaken slot left hd request := by
    rw [Part.takeKeptEnd, hkept]
    change q.continueWalk word = _
    rw [Part.continueWalk, show q.parcels.walk = .taking slot left hd request from hwalk]
  obtain ⟨r, htaken, -, hfaults, -, hfinished⟩ := q.parcelTaken_eq slot left hd request
  rw [heq, htaken]
  refine ⟨?_, ?_⟩
  · rw [Part.counter, r.walkOn_faults, hfaults]
    exact (q.count_counter .parcelsTaken .parcelsTaken).trans (if_pos rfl)
  · rw [r.walkOn_queue]
    obtain ⟨e, hmem, he⟩ := forall₂_mem_right hfinished.entries
      (List.mem_append_right q.parcels.queue (List.mem_singleton_self
        (takenParcel slot hd request q.loader.settings.patience q.sched.cycle)))
    refine ⟨e, hmem, ?_⟩
    rw [he.rest]
    exact ⟨rfl, rfl, rfl⟩

end

end

/-! ## The rouse timer's expiry -/

section
variable {s : State} {p : Part}

/-- HELD entered on the rouse timer's expiry, before the parcel unit and the loader take up what waited. -/
def Part.roused (p : Part) : Part := ((p.modLadder fun l => { l with rouse := none }).enterHeld true).writeState .held

theorem Part.rouseExpired_eq (p : Part) : p.rouseExpired = p.roused.resumeParcels.judgeKept := rfl

theorem Part.roused_ladder (p : Part) :
    p.roused.ladder = { p.ladder with rouse := none, state := .held, holdSent := false, heldNamed := true } := by
  simp [Part.roused, Part.enterHeld, Part.writeState]

theorem Part.resumeParcels_frames (p : Part) : p.resumeParcels.frames = p.frames := p.resumeParcels_keepsOffParcels.2.2.1

/-- What HELD, entered so, shows once everything that follows at once has come about. -/
theorem State.act_rouseExpired (s : State) (hrouse : s.part.ladder.state = .rousing) :
    (s.act Part.rouseExpired).part.Settled s.part.rouseExpired ∧
      s.part.rouseExpired.ladder =
        { s.part.ladder with rouse := none, state := .held, holdSent := false, heldNamed := true } ∧
      (s.act Part.rouseExpired).part.parcels = s.part.rouseExpired.parcels ∧
      (s.act Part.rouseExpired).part.parked = s.part.rouseExpired.parked ∧
      s.part.rouseExpired.bus ⊆ (s.act Part.rouseExpired).part.bus := by
  have hladder : s.part.rouseExpired.ladder = s.part.roused.ladder := by
    rw [Part.rouseExpired_eq, Part.judgeKept_ladder, s.part.roused.resumeParcels_keepsOffParcels.1]
  have hstate : s.part.rouseExpired.ladder.state = .held := by rw [hladder, Part.roused_ladder]
  have hsettle : s.part.rouseExpired.settle.ladder.state = .held := by
    rw [Part.settle_ladder_of_works, hstate]
    · exact fun u _ h => by rw [hstate] at h; cases h.1
    · exact fun h => by rw [hstate] at h; cases h
  refine ⟨State.act_settled rfl (by rw [hstate]; decide) (by rw [hstate]; decide), hladder.trans s.part.roused_ladder,
    ?_, ?_, fun a ha => ?_⟩
  · rw [State.act_parcels, Part.settle_parcels _ (by rw [hstate]; decide)]
  · exact (Part.arbitrate_parked _ _ (by rw [hsettle]; rfl)).trans (Part.settle_parked _)
  · exact s.act_admitted _ ha (Part.admits_of_running (by rw [hsettle]; rfl) a)

/-- Settles O33: each step of the way, and at HELD the parcel unit's kept end and trigger taken before a directory is judged. -/
theorem holdFromResting : Obligations.HoldFromResting := by
  refine ⟨fun s nudge hc hrest => ?taken, fun s hrouse hguard hexchange => ?sent, fun s hrouse htimer => ?expired⟩
  case taken =>
    obtain ⟨f, hexec, hf⟩ := exec_request_of_takes hc (by rw [Part.takesAtOnce, hrest]) (by rw [hrest]; rfl) .hold nudge
    have hf := hf.trans (Part.takeRequest_hold_of_resting _ hrest)
    have hstate : s.part.emptySlot.enterRousing.ladder.state = .rousing := rfl
    have hq := State.act_settled hf (by rw [hstate]; decide) (by rw [hstate]; decide)
    refine ⟨_, hexec, ?_⟩
    rw [hq.ladder, hq.frames]
    exact ⟨rfl, rfl, rfl, rfl⟩
  case sent =>
    refine ⟨s.plain Part.rouseFrameSent, ?_, hrouse, rfl, rfl⟩
    change execRouseFrameSent s = _
    rw [execRouseFrameSent, State.plainIf, if_pos]
    rw [hrouse, FrameEngine.hasSent, hguard, hexchange]
    rfl
  case expired =>
    have hexec : exec .rouseTimerExpiry s = .next (s.act Part.rouseExpired) := by
      change execRouseTimerExpiry s = _
      rw [execRouseTimerExpiry, State.actIf, if_pos (by rw [hrouse, htimer]; rfl)]
    obtain ⟨hq, hladder, hparcels, hparked, hbus⟩ := s.act_rouseExpired hrouse
    let held := s.part.roused
    let resumed := held.resumeParcels
    have hworks : held.ladder.state.pauses = false := by rw [s.part.roused_ladder]; rfl
    have hline : s.part.rouseExpired.KeepsLineAndList resumed := resumed.judgeKept_keepsLineAndList
    have hfinished : s.part.rouseExpired.parcels.FinishedFrom resumed.parcels := resumed.judgeKept_finishedFrom
    have hregisters : s.part.rouseExpired.KeepsRegisters resumed := resumed.judgeKept_keepsRegisters
    have hkept := Part.resumeParcels_kept hworks
    refine ⟨_, hexec, ?_⟩
    rw [hq.ladder, hq.frames, hparcels, hparked, hladder, hline.frames, Part.resumeParcels_frames]
    refine ⟨rfl, rfl, rfl, rfl, rfl, rfl, ?parked, ?bus, ?keptEnd, ?keptTrigger, ?trigger, ?answer, ?take⟩
    case parked =>
      rw [hline.parked, held.resumeParcels_keepsOffParcels.2.2.2.2.2.2.2.2]
      rfl
    case keptEnd =>
      rw [hfinished.rest]
      exact hkept.1
    case keptTrigger =>
      rw [hfinished.rest]
      exact hkept.2
    case bus =>
      have hresumed : held.bus <+: resumed.bus := held.resumeParcels_extends
      have hlist : held.bus = (s.part.bus ++ s.part.parked) ++
          [{ offset := 0x40, write := some (stateWord .held s.part.ladder.startCount), source := .stateWord }] := rfl
      refine fun x hx => hbus (hline.bus.subset (hresumed.subset ?_))
      rw [hlist]
      exact List.mem_append_left _ (List.mem_append.2 hx)
    case trigger =>
      intro hnone htrigger
      have hresume : resumed = ({ held with parcels := { held.parcels with keptTrigger := false } } : Part).scanTrigger := by
        have htake : held.takeKeptEnd = held := by
          rw [Part.takeKeptEnd, show held.parcels.keptEnd = none from hnone]
        change held.resumeParcels = _
        rw [Part.resumeParcels, htake]
        exact if_pos htrigger
      have hwalk : s.part.rouseExpired.parcels.walk = resumed.parcels.walk := by rw [hfinished.rest]
      rw [hwalk, hresume]
      refine ⟨Part.scanTrigger_walk_ne_idle hworks, fun hidle => ?_⟩
      let ready : Part := { held with parcels := { held.parcels with keptTrigger := false } }
      have hread : ready.scanTrigger = ready.readTotal := by
        rw [Part.scanTrigger_works (p := ready) hworks]
        exact if_pos hidle
      change ready.scanTrigger.parcels.walk = _ ∧ _
      rw [hread]
      refine ⟨rfl, State.act_asks s Part.rouseExpired (hline.bus.subset ?_)⟩
      rw [hresume]
      change _ ∈ ready.scanTrigger.bus
      rw [hread]
      exact List.mem_append_right _ (List.mem_singleton_self _)
    case answer =>
      intro word last slot e rest hend hwriting hanswers hentry
      obtain ⟨hqueue, hcause⟩ := held.takeKeptEnd_of_answer hend hwriting hanswers hentry
      have hfree : resumed.parcels.queue.find? (·.slot == slot) = none := by
        rw [held.resumeParcels_queue, hqueue, List.find?_eq_none]
        intro o ho
        simpa using (List.mem_filter.1 ho).2
      rw [Part.parcelOf, hparcels, hq.hasCause, Part.hasCause, hregisters.cause, held.resumeParcels_faults]
      exact ⟨(find?_finishedFrom hfinished.entries slot).1 hfree, hcause⟩
    case take =>
      intro word slot left h request hend hwalk
      obtain ⟨hcount, e, hmem, he⟩ := held.takeKeptEnd_of_take hend hwalk
      rw [Part.counter, hq.counters]
      refine ⟨(hregisters.counters .parcelsTaken (by decide)).trans ?_, ?_⟩
      · rw [Part.counter, held.resumeParcels_faults]
        exact hcount
      · have hmem : e ∈ resumed.parcels.queue := by rwa [held.resumeParcels_queue]
        obtain ⟨f, hf, hfe⟩ := forall₂_mem_right hfinished.entries hmem
        refine ⟨f, hf, ?_⟩
        rw [hfe.rest]
        exact he

end

end Sys2Proof.Machine
end

section
/-! SUPPORT. The parcel unit at rest (R129): no operation at rest changes its entries, or puts a word of it on the request list (O32). -/

namespace Sys2Proof.Machine

/-! ## The sources that are not the parcel unit's -/

@[simp] theorem Source.stateWord_isParcels : (Source.stateWord).isParcels = false := rfl
@[simp] theorem Source.startup_isParcels : (Source.startup).isParcels = false := rfl
@[simp] theorem Source.loader_isParcels : (Source.loader).isParcels = false := rfl
@[simp] theorem Source.status_isParcels (k : Fin 4) : (Source.status k).isParcels = false := rfl
@[simp] theorem Source.outTake_isParcels : (Source.outTake).isParcels = false := rfl
@[simp] theorem Source.outInUse_isParcels : (Source.outInUse).isParcels = false := rfl
@[simp] theorem Source.slice_isParcels : (Source.slice).isParcels = false := rfl
@[simp] theorem Source.close_isParcels : (Source.close).isParcels = false := rfl
@[simp] theorem Source.cycleWord_isParcels : (Source.cycleWord).isParcels = false := rfl
@[simp] theorem Source.eventsTaken_isParcels : (Source.eventsTaken).isParcels = false := rfl
@[simp] theorem Source.append_isParcels : (Source.append).isParcels = false := rfl
@[simp] theorem Source.statAsk_isParcels : (Source.statAsk).isParcels = false := rfl
@[simp] theorem Source.snapshot_isParcels : (Source.snapshot).isParcels = false := rfl
@[simp] theorem Source.cut_isParcels : (Source.cut).isParcels = false := rfl

/-- The words of the parcel unit on the request list. -/
abbrev Part.parcelWords (p : Part) : List Access := p.bus.filter (·.source.isParcels)

section
variable (p : Part)

@[simp] theorem Part.startStatus_parcelWords : p.startStatus.parcelWords = p.parcelWords := by
  unfold Part.startStatus Part.issueStatus
  split <;> simp [Part.parcelWords]
@[simp] theorem Part.queueStatus_parcelWords (i : NodeIx) (cause : Bool) : (p.queueStatus i cause).parcelWords = p.parcelWords := by
  unfold Part.queueStatus
  dsimp only
  split <;> simp [Part.parcelWords]
@[simp] theorem Part.nextStatus_parcelWords (w : StatusWrite) : (p.nextStatus w).parcelWords = p.parcelWords := by
  unfold Part.nextStatus
  dsimp only
  split <;> simp [Part.parcelWords]
@[simp] theorem Part.statusStep_parcelWords (k : Fin 4) : (p.statusStep k).parcelWords = p.parcelWords := by
  unfold Part.statusStep Part.issueStatus
  dsimp only
  (repeat' split) <;> simp [Part.parcelWords]
@[simp] theorem Part.statusFailed_parcelWords : p.statusFailed.parcelWords = p.parcelWords := by
  unfold Part.statusFailed Part.oweStatus
  (repeat' split) <;> simp [Part.parcelWords]
@[simp] theorem Part.writeOwed_parcelWords : p.writeOwed.parcelWords = p.parcelWords := by
  simp [Part.parcelWords, Part.writeOwed, foldl_keeps (fun q : Part => q.parcelWords)]
@[simp] theorem Part.startAppend_parcelWords : p.startAppend.parcelWords = p.parcelWords := by
  unfold Part.startAppend
  split <;> simp [Part.parcelWords]
@[simp] theorem Part.nextAppend_parcelWords : p.nextAppend.parcelWords = p.parcelWords := by
  simp [Part.parcelWords, Part.nextAppend]
@[simp] theorem Part.offerNote_parcelWords : p.offerNote.parcelWords = p.parcelWords := by
  unfold Part.offerNote Part.enqueueAppend
  dsimp only
  (repeat' split) <;> simp [Part.parcelWords]
@[simp] theorem Part.toTail_parcelWords (i : NodeIx) : (p.toTail i).parcelWords = p.parcelWords := by
  unfold Part.toTail
  split <;> simp [Part.parcelWords]
@[simp] theorem Part.eventAccepted_parcelWords (a : Append) (i : NodeIx) (seq : Byte) (more : Bool) :
    (p.eventAccepted a i seq more).parcelWords = p.parcelWords := by
  unfold Part.eventAccepted Part.unqueue
  dsimp only
  (repeat' split) <;> simp [Part.parcelWords]
@[simp] theorem Part.appendPublished_parcelWords (a : Append) : (p.appendPublished a).parcelWords = p.parcelWords := by
  unfold Part.appendPublished Part.noteAppended
  dsimp only
  (repeat' split) <;> simp [Part.parcelWords]
@[simp] theorem Part.continueAppend_parcelWords : p.continueAppend.parcelWords = p.parcelWords := by
  unfold Part.continueAppend
  dsimp only
  (repeat' split) <;> simp [Part.parcelWords]
@[simp] theorem Part.appendFailed_parcelWords : p.appendFailed.parcelWords = p.parcelWords := by
  unfold Part.appendFailed Part.appendAborted
  dsimp only
  (repeat' split) <;> simp [Part.parcelWords]
@[simp] theorem Part.takenValue_parcelWords (t : Word) (onFetch : Bool) : (p.takenValue t onFetch).parcelWords = p.parcelWords := by
  unfold Part.takenValue
  dsimp only
  (repeat' split) <;> simp [Part.parcelWords]
@[simp] theorem Part.outputTake_parcelWords (w : Word) : (p.outputTake w).parcelWords = p.parcelWords := by
  unfold Part.outputTake
  dsimp only
  (repeat' split) <;> simp [Part.parcelWords]
@[simp] theorem Part.continueSlice_parcelWords (w : Word) : (p.continueSlice w).parcelWords = p.parcelWords := by
  unfold Part.continueSlice Part.issueSlice Part.givePoll
  dsimp only
  (repeat' split) <;> simp [Part.parcelWords]
@[simp] theorem Part.sliceFailed_parcelWords : p.sliceFailed.parcelWords = p.parcelWords := by
  unfold Part.sliceFailed Part.givePoll
  split <;> simp [Part.parcelWords]
@[simp] theorem Part.writeCycleWord_parcelWords : p.writeCycleWord.parcelWords = p.parcelWords := by
  simp [Part.parcelWords, Part.writeCycleWord]
@[simp] theorem Part.endClose_parcelWords : p.endClose.parcelWords = p.parcelWords := by
  simp [Part.parcelWords, Part.endClose]
@[simp] theorem Part.continueClose_parcelWords (w : Word) : (p.continueClose w).parcelWords = p.parcelWords := by
  unfold Part.continueClose Part.holdWordTaken Part.issueClose Part.published
  dsimp only
  (repeat' split) <;> simp [Part.parcelWords]
@[simp] theorem Part.divisorReached_parcelWords : p.divisorReached.parcelWords = p.parcelWords := by
  unfold Part.divisorReached
  split <;> simp [Part.parcelWords]
@[simp] theorem Part.snapshotAt_parcelWords (n : Snapshot) : (p.snapshotAt n).parcelWords = p.parcelWords := by
  simp [Part.parcelWords, Part.snapshotAt]
@[simp] theorem Part.beginSnapshot_parcelWords : p.beginSnapshot.parcelWords = p.parcelWords := by
  simp [Part.parcelWords, Part.beginSnapshot]
@[simp] theorem Part.endSnapshot_parcelWords : p.endSnapshot.parcelWords = p.parcelWords := by
  unfold Part.endSnapshot
  dsimp only
  (repeat' split) <;> simp [Part.parcelWords]
@[simp] theorem Part.continueSnapshot_parcelWords : p.continueSnapshot.parcelWords = p.parcelWords := by
  unfold Part.continueSnapshot
  (repeat' split) <;> simp [Part.parcelWords]
@[simp] theorem Part.settleSnapshot_parcelWords : p.settleSnapshot.parcelWords = p.parcelWords := by
  unfold Part.settleSnapshot Part.triggerSnapshot
  (repeat' split) <;> simp [Part.parcelWords]
@[simp] theorem Part.checkAt_parcelWords (c : Check) : (p.checkAt c).parcelWords = p.parcelWords := by
  unfold Part.checkAt
  dsimp only
  split <;> simp [Part.parcelWords]
@[simp] theorem Part.beginCheck_parcelWords (origin : CheckFrom) : (p.beginCheck origin).parcelWords = p.parcelWords :=
  p.checkAt_parcelWords _
@[simp] theorem Part.statOpen_parcelWords : p.statOpen.parcelWords = p.parcelWords := by
  simp [Part.parcelWords, Part.statOpen]
@[simp] theorem Part.verdictFailed_parcelWords : p.verdictFailed.parcelWords = p.parcelWords := by
  unfold Part.verdictFailed Part.reportRefused
  (repeat' split) <;> simp [Part.parcelWords]
@[simp] theorem Part.settleNodeOpen_parcelWords : p.settleNodeOpen.parcelWords = p.parcelWords := by
  unfold Part.settleNodeOpen
  dsimp only
  (repeat' split) <;> simp [Part.parcelWords]
@[simp] theorem Part.settleCheck_parcelWords : p.settleCheck.parcelWords = p.parcelWords := by
  unfold Part.settleCheck
  (repeat' split) <;> simp [Part.parcelWords]
@[simp] theorem Part.stateWordEnded_parcelWords : p.stateWordEnded.parcelWords = p.parcelWords := by
  unfold Part.stateWordEnded Part.enterStill
  split <;> simp [Part.parcelWords]

end

/-! ## What stays at rest -/

/-- `v` holds what `u` holds, but for what is kept until the line is held again. -/
abbrev ParcelUnit.SameButKept (v u : ParcelUnit) : Prop :=
  v = { u with keptEnd := v.keptEnd, keptTrigger := v.keptTrigger }

/-- The parcel unit stays as it is but for what is kept, and puts no word on the request list. -/
structure Part.StaysAtRest (q p : Part) : Prop where
  parcels : q.parcels.SameButKept p.parcels
  words : q.parcelWords ⊆ p.parcelWords

theorem Part.StaysAtRest.of_eq {q p : Part} (hparcels : q.parcels = p.parcels) (hwords : q.parcelWords = p.parcelWords) :
    q.StaysAtRest p :=
  ⟨by rw [ParcelUnit.SameButKept, hparcels], by rw [hwords]; exact List.Subset.refl _⟩

theorem Part.StaysAtRest.rfl {p : Part} : p.StaysAtRest p := .of_eq (Eq.refl _) (Eq.refl _)

theorem Part.StaysAtRest.trans {p q r : Part} (h : r.StaysAtRest q) (k : q.StaysAtRest p) : r.StaysAtRest p :=
  ⟨by rw [ParcelUnit.SameButKept, h.parcels, k.parcels], List.Subset.trans h.words k.words⟩

theorem LadderState.notRun_of_pauses {l : LadderState} (hl : l.pauses = true) : l ≠ .run := by
  rintro rfl
  cases hl

theorem LadderLeads.notRun_of_pauses {a b : LadderState} (h : LadderLeads False a b) (ha : a.pauses = true) : b ≠ .run := by
  rcases h with rfl | h | ⟨h, -⟩
  · exact LadderState.notRun_of_pauses ha
  · rintro rfl
    revert ha h
    cases a <;> decide
  · exact h.elim

@[simp] theorem Part.outputTake_parcels (p : Part) (w : Word) : (p.outputTake w).parcels = p.parcels := by
  unfold Part.outputTake
  dsimp only
  (repeat' split) <;> simp

@[simp] theorem Part.continueSlice_parcels (p : Part) (w : Word) : (p.continueSlice w).parcels = p.parcels := by
  unfold Part.continueSlice Part.issueSlice Part.givePoll
  dsimp only
  (repeat' split) <;> simp

@[simp] theorem Part.sliceFailed_parcels (p : Part) : p.sliceFailed.parcels = p.parcels := by
  unfold Part.sliceFailed Part.givePoll
  split <;> simp

section
variable {p : Part} (h : p.ladder.state.pauses = true)
include h

theorem Part.scanTrigger_staysAtRest : p.scanTrigger.StaysAtRest p := by
  rw [Part.scanTrigger_rests p h]
  exact ⟨Eq.refl _, List.Subset.refl _⟩

theorem Part.takeParcelEnd_staysAtRest (e : ParcelEnd) : (p.takeParcelEnd e).StaysAtRest p := by
  rw [Part.takeParcelEnd_rests p h]
  exact ⟨Eq.refl _, List.Subset.refl _⟩

theorem Part.checkEnd_staysAtRest (origin : CheckFrom) : (p.checkEnd origin).StaysAtRest p := by
  have again (q : Part) (o : CheckFrom) (hq : q.StaysAtRest p) :
      (if q.loader.checkOwed then (q.modLoader fun l => { l with checkOwed := false }).beginCheck o else q).StaysAtRest p := by
    split
    · refine Part.StaysAtRest.trans ?_ hq
      exact .of_eq (by simp) (by simp [Part.parcelWords])
    · exact hq
  unfold Part.checkEnd
  cases origin with
  | opening =>
    refine .of_eq ?_ ?_
    · dsimp only
      split <;> simp [Part.nodeOpen]
    · dsimp only
      split <;> simp [Part.nodeOpen, Part.parcelWords]
  | nudge =>
    refine again _ _ ?_
    let ended := (p.modLoader fun l => { l with check := none }).writeOwed
    have hended : ended.ladder = p.ladder := by simp [ended]
    refine (Part.scanTrigger_staysAtRest (p := ended) (by rwa [hended])).trans ?_
    exact .of_eq (by simp [ended]) (by simp [ended, Part.parcelWords])
  | owed => exact again _ _ (.of_eq (Eq.refl _) (Eq.refl _))
  | startup => exact .of_eq (Eq.refl _) (Eq.refl _)

omit h in
theorem Part.checkAt_staysAtRest {q : Part} (hq : q.StaysAtRest p) (c : Check) : (q.checkAt c).StaysAtRest p :=
  Part.StaysAtRest.trans (.of_eq (by simp) (by simp)) hq

theorem Part.generationRead_staysAtRest (c : Check) (g : Word) : (p.generationRead c g).StaysAtRest p := by
  have go : (p.checkAt { c with pos := .readDirectory, generation := g, words := [] }).StaysAtRest p :=
    Part.checkAt_staysAtRest .rfl _
  unfold Part.generationRead
  dsimp only
  split
  · exact go
  split
  · exact (Part.checkEnd_staysAtRest (p := p.modLoader fun l => { l with refused := none }) h c.origin).trans
      (.of_eq (Eq.refl _) (Eq.refl _))
  split
  · exact Part.checkEnd_staysAtRest h c.origin
  · exact go

theorem Part.continueCheck_staysAtRest (w : Word) : (p.continueCheck w).StaysAtRest p := by
  have ended (q : Part) (hladder : q.ladder.state = p.ladder.state) (hq : q.StaysAtRest p) (o : CheckFrom) :
      (q.checkEnd o).StaysAtRest p :=
    (Part.checkEnd_staysAtRest (by rwa [hladder]) o).trans hq
  unfold Part.continueCheck
  split
  · exact .rfl
  split
  · split
    · exact Part.checkAt_staysAtRest .rfl _
    · refine Part.checkAt_staysAtRest ?_ _
      exact .of_eq (Eq.refl _) (Eq.refl _)
  · refine Part.checkAt_staysAtRest ?_ _
    split <;> exact .of_eq (Eq.refl _) (Eq.refl _)
  · exact Part.generationRead_staysAtRest h _ _
  · dsimp only
    split <;> exact Part.checkAt_staysAtRest .rfl _
  · split
    · unfold Part.copyRead
      rw [if_pos h]
      exact Part.checkAt_staysAtRest .rfl _
    split
    · exact Part.checkAt_staysAtRest .rfl _
    · exact Part.checkEnd_staysAtRest h _
  · exact .rfl
  · exact .rfl
  · split
    · exact Part.checkAt_staysAtRest .rfl _
    · refine ended _ ?_ (.of_eq ?_ ?_) _ <;> simp [Part.reportRefused, Part.parcelWords]
  · refine ended _ ?_ ?_ _
    · exact Eq.refl _
    · exact .of_eq (Eq.refl _) (Eq.refl _)

theorem Part.checkFailed_staysAtRest : p.checkFailed.StaysAtRest p := by
  unfold Part.checkFailed
  split
  · exact .rfl
  split
  any_goals exact Part.checkAt_staysAtRest .rfl _
  any_goals exact Part.checkEnd_staysAtRest h _
  any_goals exact .rfl
  all_goals
    exact (Part.checkEnd_staysAtRest (p := p.verdictFailed) (by simpa using h) _).trans (.of_eq (by simp) (by simp))

/-- At rest no FETCH and no service waits for the events-taken word, and no note is asked for. -/
theorem Part.afterTaken_of_pauses : p.afterTaken = p := by
  unfold Part.afterTaken
  revert h
  cases p.ladder.state <;> first | exact fun _ => Eq.refl _ | exact fun h => by cases h

theorem Part.takenEnded_staysAtRest (w : Word) : (p.takenEnded w).StaysAtRest p := by
  have value (onFetch : Bool) : (p.takenValue w onFetch).afterTaken = p.takenValue w onFetch :=
    Part.afterTaken_of_pauses (by simpa using h)
  unfold Part.takenEnded
  split
  · dsimp only
    rw [value]
    split <;> exact .of_eq (by simp) (by simp [Part.parcelWords])
  · exact .rfl

theorem Part.withdrawWaits_of_pauses : p.withdrawWaits = none := if_neg (LadderState.notRun_of_pauses h)

/-- The end of an access at rest. -/
theorem Part.accessDone_staysAtRest (source : Source) (w : Word) : (p.accessDone source w).StaysAtRest p := by
  have hstart : p.ladder.state ≠ .starting := fun hs => by rw [hs] at h; cases h
  cases source with
  | startup =>
    unfold Part.accessDone
    exact (if_neg hstart) ▸ .rfl
  | loader => exact Part.continueCheck_staysAtRest h w
  | eventsTaken => exact Part.takenEnded_staysAtRest h w
  | walk => exact Part.takeParcelEnd_staysAtRest h _
  | answer => exact Part.takeParcelEnd_staysAtRest h _
  | withdraw =>
    unfold Part.accessDone Part.withdrawEnded
    rw [Part.withdrawWaits_of_pauses h]
    exact .rfl
  | cycleWord =>
    unfold Part.accessDone Part.closeComplete
    exact (if_neg (LadderState.notRun_of_pauses h)) ▸ .rfl
  | stateWord =>
    refine .of_eq ?_ (by simp [Part.accessDone, Part.parcelWords])
    unfold Part.accessDone Part.stateWordEnded Part.enterStill
    dsimp only
    split <;> simp
  | _ =>
    exact .of_eq (by simp [Part.accessDone, Part.imageIsReady])
      (by simp [Part.accessDone, Part.imageIsReady, Part.statAskRead, Part.parcelWords])

theorem Part.blockFailed_staysAtRest (source : Source) : (p.blockFailed source).StaysAtRest p := by
  cases source with
  | loader => exact Part.checkFailed_staysAtRest h
  | eventsTaken =>
    unfold Part.blockFailed
    dsimp only
    rw [Part.afterTaken_of_pauses (p := p.takenLost) h]
    exact .of_eq (Eq.refl _) (Eq.refl _)
  | walk => exact Part.takeParcelEnd_staysAtRest h _
  | answer => exact Part.takeParcelEnd_staysAtRest h _
  | withdraw =>
    unfold Part.blockFailed
    rw [Part.withdrawWaits_of_pauses h]
    exact .rfl
  | cycleWord =>
    unfold Part.blockFailed Part.closeComplete
    exact (if_neg (LadderState.notRun_of_pauses h)) ▸ .rfl
  | stateWord =>
    refine .of_eq ?_ (by simp [Part.blockFailed, Part.parcelWords])
    unfold Part.blockFailed Part.stateWordEnded Part.enterStill
    dsimp only
    split <;> simp
  | _ =>
    exact .of_eq (by simp [Part.blockFailed, Part.imageIsReady])
      (by simp [Part.blockFailed, Part.imageIsReady, Part.statAskFailed, Part.parcelWords])

theorem Part.accessFailed_staysAtRest (a : Access) : (p.accessFailed a).StaysAtRest p := by
  let reported := p.report .memory (BitVec.ofNat 16 a.offset)
  have hladder : reported.ladder.state = p.ladder.state := by simp [reported, Part.report_memory_ladder]
  have hreported : reported.StaysAtRest p := .of_eq (by simp [reported]) (by simp [reported, Part.parcelWords])
  have hblock : (reported.blockFailed a.source).StaysAtRest p :=
    (Part.blockFailed_staysAtRest (by rwa [hladder]) a.source).trans hreported
  have hstart : ¬ reported.ladder.state = .starting := fun hs => by
    rw [hladder] at hs
    rw [hs] at h
    cases h
  have heq : p.accessFailed a = (reported.blockFailed a.source).holdCheckStopped := if_neg hstart
  rw [heq]
  have hleads := Part.blockFailed_leads (p := reported) a.source
  rw [hladder] at hleads
  have hrun : ¬ ((reported.blockFailed a.source).ladder.state = .run ∧
      (reported.blockFailed a.source).sched.state = .stopped ∧ (reported.blockFailed a.source).ladder.faultHold) :=
    fun hcheck => hleads.notRun_of_pauses h hcheck.1
  rw [Part.holdCheckStopped, if_neg hrun]
  exact hblock

end

section
variable (p : Part)

theorem Part.unsolicitedFrame_of_notHeld (h : p.ladder.state.isHeld = false) (frame : Option Frame) :
    p.unsolicitedFrame frame = p.strayFrame := by
  unfold Part.unsolicitedFrame
  cases frame with
  | none => rfl
  | some f =>
    dsimp only
    rw [h, Bool.and_false]
    rfl

theorem Part.unsolicitedItems_staysAtRest (h : p.ladder.state.isHeld = false) (items : List LineItem) :
    (p.unsolicitedItems items).StaysAtRest p := by
  have fold (l : List (Option Frame)) (q : Part) (hq : q.ladder.state.isHeld = false) :
      (l.foldl Part.unsolicitedFrame q).StaysAtRest q := by
    induction l generalizing q with
    | nil => exact .rfl
    | cons f l ih =>
      rw [List.foldl_cons, q.unsolicitedFrame_of_notHeld hq]
      exact (ih _ (by simpa using hq)).trans (.of_eq (by simp) (by simp [Part.parcelWords]))
  have hfold := fold (framesHeard (p.frames.uncounted items)) p h
  exact ⟨hfold.parcels, hfold.words⟩

theorem Part.carrier_staysAtRest (h : p.ladder.state.pauses = true) (items : List LineItem) :
    (p.carrier items).StaysAtRest p := by
  have hheld : p.ladder.state.isHeld = false := by
    revert h
    cases p.ladder.state <;> first | exact fun _ => rfl | exact fun h => by cases h
  unfold Part.carrier
  split
  · exact p.unsolicitedItems_staysAtRest hheld items
  split
  · exact .of_eq (by simp) (by simp [Part.parcelWords])
  · exact .of_eq (by simp) (by simp [Part.parcelWords])
  · exact .of_eq (by simp) (by simp [Part.parcelWords])
  · refine .of_eq ?_ ?_ <;> unfold Part.lineActivity <;> split <;> simp [Part.parcelWords]
  · exact p.unsolicitedItems_staysAtRest hheld _
  all_goals exact .rfl

/-- The request list as RESTING is entered, but for the state word behind it (R168, R129). -/
def restingList (l : List Access) : List Access :=
  (cutAccesses l).take 1 ++ ((cutAccesses l).drop 1).filter (!·.source.isParcels)

theorem Part.enterResting_bus : p.enterResting.bus = restingList p.bus ++
    [{ offset := 0x40, write := some (stateWord .resting p.ladder.startCount), source := .stateWord }] := rfl

theorem restingList_cons (a : Access) (l : List Access) :
    restingList (a :: l) = (if a.source = .snapshot then { a with source := .cut } else a) ::
      (l.filter (·.source != .snapshot)).filter (!·.source.isParcels) := rfl

/-- RESTING entered: the parcel unit's words behind the one in progress leave the list. -/
theorem Part.enterResting_staysAtRest : p.enterResting.StaysAtRest p := by
  refine ⟨rfl, fun a ha => ?_⟩
  obtain ⟨hmem, hparcels⟩ := List.mem_filter.1 ha
  refine List.mem_filter.2 ⟨?_, hparcels⟩
  rw [Part.enterResting_bus] at hmem
  rcases List.mem_append.1 hmem with hmem | hmem
  · cases hbus : p.bus with
    | nil => rw [hbus] at hmem; cases hmem
    | cons b l =>
      rw [hbus, restingList_cons] at hmem
      rcases List.mem_cons.1 hmem with rfl | hmem
      · by_cases hsource : b.source = .snapshot
        · rw [if_pos hsource] at hparcels
          cases hparcels
        · rw [if_neg hsource]
          exact List.mem_cons_self
      · exact absurd (List.mem_filter.1 hmem).2 (by simp [hparcels])
  · rw [List.mem_singleton.1 hmem] at hparcels
    cases hparcels

variable {p}

theorem Taken.staysAtRest {area : Word} {r : Request} {q : Part} (h : Taken p area r q)
    (hrest : p.ladder.state.pauses = true) : q.StaysAtRest p := by
  cases h with
  | starts idle => rw [idle] at hrest; cases hrest
  | runs held => rw [held] at hrest; cases hrest
  | rests held => rw [held] at hrest; cases hrest
  | rouses => exact .of_eq rfl (by simp [Part.enterRousing, Part.writeState, Part.parcelWords, Part.giveBroadcast, Part.emptySlot])
  | stills => exact .of_eq rfl (by simp [Part.beginStill, Part.writeState, Part.parcelWords, Part.emptySlot])
  | skips => exact .of_eq (by simp [Part.skipRequest, Part.emptySlot]) (by simp [Part.skipRequest, Part.emptySlot, Part.parcelWords])
  | _ => exact .of_eq rfl rfl

theorem Part.takePending_staysAtRest (hrest : p.ladder.state.pauses = true) (area : Word) :
    (p.takePending area).StaysAtRest p := by
  rcases p.takePending_cases area with h | ⟨r, -, -, h⟩
  · rw [h]
    exact .rfl
  · exact h.staysAtRest hrest

theorem Part.requestWritten_staysAtRest (hrest : p.ladder.state.pauses = true) (area : Word) (r : Request) :
    (p.requestWritten area r).StaysAtRest p := by
  rcases p.requestWritten_cases area r with h | ⟨-, h⟩
  · rw [h]
    exact .of_eq rfl rfl
  · exact h.staysAtRest hrest

theorem Part.writeCause_staysAtRest (hrest : p.ladder.state.pauses = true) (area : Word) (v : Byte) :
    (p.writeCause area v).StaysAtRest p := by
  have hcleared : (p.causeCleared v).StaysAtRest p := .of_eq rfl rfl
  rw [Part.writeCause_eq]
  split
  · exact (Part.takePending_staysAtRest (p := p.causeCleared v) hrest area).trans hcleared
  · exact hcleared

theorem Part.returnOutcome_staysAtRest (hrest : p.ladder.state.pauses = true) : p.returnOutcome.StaysAtRest p := by
  unfold Part.returnOutcome
  split
  · exact .rfl
  · next ex _ =>
    have hheard : (p.frameState .listening).StaysAtRest p := .of_eq rfl rfl
    have hstate : (p.frameState .listening).ladder.state = p.ladder.state := rfl
    dsimp only
    split
    · next h => rw [hstate] at h; rw [h] at hrest; cases hrest
    · next h => rw [hstate] at h; rw [h] at hrest; cases hrest
    all_goals exact hheard

variable {c : Instr} {s : State} {f : Part → Part}

theorem Plain.staysAtRest (h : Plain c s f) (hrest : s.part.ladder.state.pauses = true) : (f s.part).StaysAtRest s.part := by
  cases h with
  | cause v => exact Part.writeCause_staysAtRest hrest _ _
  | activity => refine .of_eq ?_ ?_ <;> unfold Part.lineActivity <;> split <;> simp [Part.parcelWords]
  | _ => exact .of_eq (by simp [Part.rouseFrameSent]) (by simp [Part.parcelWords, Part.rouseFrameSent])

/-- Every event at rest leaves the parcel unit so, or leads back to the held line. -/
theorem Acts.staysAtRest (h : Acts c s f) (hrest : s.part.ladder.state.pauses = true)
    (hstopped : s.part.sched.state = .stopped) : (f s.part).StaysAtRest s.part ∨ (f s.part).ladder.state = .held := by
  have notRun := LadderState.notRun_of_pauses hrest
  have notHeld : s.part.ladder.state ≠ .held := fun h => by rw [h] at hrest; cases hrest
  have idle : s.part.ladder.state.worksMemory = false := by
    revert hrest
    cases s.part.ladder.state <;> first | exact fun _ => rfl | exact fun h => by cases h
  cases h with
  | request r nudge =>
    refine .inl ?_
    dsimp only
    rw [Part.nudge_of_idle idle, ite_self]
    exact Part.requestWritten_staysAtRest hrest _ _
  | nudge => exact .inl (by rw [Part.nudge_of_idle idle]; exact .rfl)
  | cause v => exact .inl (Part.writeCause_staysAtRest hrest _ _)
  | cycleExpiry run => exact absurd run notRun
  | reprobe i run => exact absurd run notRun
  | patience slot run => exact absurd run notRun
  | period => exact .inl (.of_eq rfl rfl)
  | openReady dt ready => simp [Part.openIsReady, hstopped] at ready
  | guardEnd dt => exact .inl ((Part.returnOutcome_staysAtRest (p := s.part.passTime dt) hrest).trans (.of_eq rfl rfl))
  | slotEnd heard dt run => exact absurd run notRun
  | abandonSent dt slot run => exact absurd run notRun
  | holdSent held => exact absurd held notHeld
  | restSent held => exact absurd held notHeld
  | heldQuiet held => exact absurd held notHeld
  | service allowed =>
    simp only [Part.serviceAllowed, Bool.and_eq_true, beq_iff_eq] at allowed
    exact absurd allowed.1.1.1.1.1.1 notHeld
  | rouse => exact .inr s.part.rouseExpired_ladderState
  | settle =>
    refine .inl ?_
    let rested := (s.part.modLadder fun l => { l with settle := none }).enterResting
    have hrested : rested.StaysAtRest s.part := (Part.enterResting_staysAtRest _).trans (.of_eq rfl rfl)
    exact (Part.takePending_staysAtRest (p := rested) rfl s.port.area).trans hrested
  | alert address =>
    exact .inl ((s.part.quietPassed.carrier_staysAtRest hrest _).trans (.of_eq rfl rfl))
  | unsolicited items => exact .inl (s.part.carrier_staysAtRest hrest items)

theorem Ends.staysAtRest {x : Access} (h : Ends x f) {p : Part} (hrest : p.ladder.state.pauses = true) :
    (f p).StaysAtRest p := by
  cases h with
  | done dt w => exact (Part.accessDone_staysAtRest (p := p.passTime dt) hrest _ _).trans (.of_eq rfl rfl)
  | failed dt => exact (Part.accessFailed_staysAtRest (p := p.passTime dt) hrest _).trans (.of_eq rfl rfl)

end

/-! ## What comes about of itself at rest -/

/-- Neither a state word, nor a snapshot's word, nor the parcel unit's. -/
def Access.isWork (a : Access) : Prop := a.source ≠ .stateWord ∧ a.source ≠ .snapshot ∧ a.source.isParcels = false

/-- Blocks have put such accesses behind the request list, and no others. -/
def Part.AddsWork (q p : Part) : Prop := ∃ new, q.bus = p.bus ++ new ∧ ∀ a ∈ new, a.isWork

theorem Part.AddsWork.of_bus {q p : Part} (h : q.bus = p.bus) : q.AddsWork p := ⟨[], by rw [h, List.append_nil], nofun⟩

theorem Part.AddsWork.of_access {q p : Part} {a : Access} (h : q.bus = p.bus ++ [a]) (ha : a.isWork) : q.AddsWork p :=
  ⟨[a], h, fun b hb => List.mem_singleton.1 hb ▸ ha⟩

theorem Part.AddsWork.trans {p q r : Part} (h : r.AddsWork q) (k : q.AddsWork p) : r.AddsWork p := by
  obtain ⟨new, hbus, hwork⟩ := h
  obtain ⟨old, kbus, kwork⟩ := k
  refine ⟨old ++ new, by rw [hbus, kbus, List.append_assoc], fun a ha => ?_⟩
  rcases List.mem_append.1 ha with ha | ha
  · exact kwork a ha
  · exact hwork a ha

theorem Source.status_isWork {a : Access} {k : Fin 4} (h : a.source = .status k) : a.isWork := by
  rw [Access.isWork, h]
  exact ⟨nofun, nofun, rfl⟩

section
variable (p : Part)

theorem Part.queueStatus_addsWork (i : NodeIx) (cause : Bool) : (p.queueStatus i cause).AddsWork p := by
  unfold Part.queueStatus Part.startStatus Part.issueStatus
  dsimp only
  split
  · split
    · exact .of_access rfl (Source.status_isWork rfl)
    · exact .of_bus rfl
  · exact .of_bus rfl

theorem Part.writeOwed_addsWork : p.writeOwed.AddsWork p :=
  foldl_relates Part.AddsWork (.of_bus rfl) (fun h k => h.trans k) _ (fun q i => q.queueStatus_addsWork i false) _ _

theorem Part.settleNodeOpen_addsWork : p.settleNodeOpen.AddsWork p := by
  unfold Part.settleNodeOpen
  dsimp only
  (repeat' split) <;> first | exact .of_bus rfl | exact p.writeOwed_addsWork

theorem Part.checkAt_addsWork (c : Check) : (p.checkAt c).AddsWork p := by
  unfold Part.checkAt
  dsimp only
  split <;> first | exact .of_bus rfl | exact .of_access rfl ⟨nofun, nofun, rfl⟩

theorem Part.settleCheck_addsWork : p.settleCheck.AddsWork p := by
  unfold Part.settleCheck
  split
  · split
    · refine (Part.checkAt_addsWork _ _).trans (.of_bus ?_)
      split <;> rfl
    · exact .of_bus rfl
  · exact .of_bus rfl

theorem Part.startAppend_addsWork : p.startAppend.AddsWork p := by
  unfold Part.startAppend
  split
  · exact .of_access rfl ⟨nofun, nofun, rfl⟩
  · exact .of_bus rfl

variable {p}

theorem LadderState.worksMemory_of_pauses {l : LadderState} (h : l.pauses = true) : l.worksMemory = false := by
  revert h
  cases l <;> decide

theorem Part.settleSnapshot_bus_of_pauses (h : p.ladder.state.pauses = true) : p.settleSnapshot.bus = p.bus := by
  have hworks := LadderState.worksMemory_of_pauses h
  unfold Part.settleSnapshot Part.triggerSnapshot
  split
  · split
    · rfl
    · rfl
    · rw [if_neg (by simp [hworks])]
      rfl
    · rfl
  · rfl

theorem Part.settle_addsWork (h : p.ladder.state.pauses = true) : p.settle.AddsWork p := by
  let checked := p.settleNodeOpen.settleCheck
  have hladder : checked.ladder = p.ladder := by simp [checked]
  have hstart : checked.settleStartup = checked :=
    Part.settleStartup_of_waits _ fun u _ hs => by rw [hladder] at hs; rw [hs.1] at h; cases h
  have hopen : checked.settleParcelOpen = checked := if_neg (by rw [hladder]; exact LadderState.notRun_of_pauses h)
  have hservice : ∀ q : Part, q.ladder = p.ladder → q.settleService = q := fun q hq =>
    q.settleService_of_works fun hs => by rw [hq] at hs; rw [hs] at h; cases h
  have hsettle : p.settle = checked.settleSnapshot.startAppend := by
    change (checked.settleStartup.settleParcelOpen.settleSnapshot.startAppend).settleService = _
    rw [hstart, hopen, hservice _ (by simp [hladder])]
  rw [hsettle]
  exact (Part.startAppend_addsWork _).trans <| (Part.AddsWork.of_bus
    (Part.settleSnapshot_bus_of_pauses (by rwa [hladder]))).trans <| (Part.settleCheck_addsWork _).trans p.settleNodeOpen_addsWork

/-- At rest the list takes state words only; what else blocks ask for waits. -/
theorem Part.arbitrate_of_pauses (h : p.ladder.state.pauses = true) (old : Nat) :
    ∃ placed : List Access, placed.Perm (p.bus.drop old) ∧
      (p.arbitrate old).bus = p.bus.take old ++ placed.filter (·.source == .stateWord) ∧
      (p.arbitrate old).parked = p.parked ++ placed.filter (·.source != .stateWord) := by
  have hadmits : p.admits = fun a => a.source == .stateWord := by
    funext a
    rw [Part.admits, h]
    rfl
  refine ⟨(placeTogether [] (p.bus.drop old) p.arb).1, placeTogether_perm _ _ _, ?_, ?_⟩
  · rw [Part.arbitrate, hadmits]
  · rw [Part.arbitrate, hadmits]
    rfl

end

section
variable {s : State} {f : Part → Part}

theorem Part.pauses_of_settle {p : Part} (h : p.settle.ladder.state.pauses = true) : p.settle.ladder.state = p.ladder.state := by
  rcases p.settle_leads with hs | hs | hs
  · exact hs
  · rw [(Prod.mk.inj hs).2] at h
    cases h
  · rw [(Prod.mk.inj hs).2] at h
    cases h

/-- An event at rest, with all that follows, leaves the parcel unit what its own operation leaves it. -/
theorem State.act_staysAtRest (hq : (f s.part).StaysAtRest s.part) (ht : (s.act f).part.ladder.state.pauses = true) :
    (s.act f).part.StaysAtRest s.part := by
  rw [State.act_ladder] at ht
  have hstate := Part.pauses_of_settle ht
  have hrest : (f s.part).ladder.state.pauses = true := by rwa [← hstate]
  obtain ⟨new, hbus, hwork⟩ := Part.settle_addsWork hrest
  obtain ⟨placed, -, harb, -⟩ := Part.arbitrate_of_pauses ht (min s.part.bus.length (f s.part).bus.length)
  refine Part.StaysAtRest.trans ⟨?_, fun a ha => ?_⟩ hq
  · rw [State.act_parcels, Part.settle_parcels _ (LadderState.notRun_of_pauses hrest)]
  · obtain ⟨hmem, hparcels⟩ := List.mem_filter.1 ha
    refine List.mem_filter.2 ⟨?_, hparcels⟩
    change a ∈ ((f s.part).settle.arbitrate _).bus at hmem
    rw [harb, hbus, List.take_append_of_le_length (min_le_right _ _)] at hmem
    rcases List.mem_append.1 hmem with hmem | hmem
    · exact List.mem_of_mem_take hmem
    · have hsource := (List.mem_filter.1 hmem).2
      rw [beq_iff_eq] at hsource
      rw [hsource] at hparcels
      cases hparcels

theorem isParcels_eq (a : Access) :
    a.source.isParcels = (a.source == .walk || a.source == .withdraw || a.source == .answer) := by
  cases a.source <;> rfl

/-- R129: at rest no command changes the parcel unit's entries or puts a word of it on the list. -/
theorem Reaction.staysAtRest {c : Instr} {q : Part} (h : Reaction c s q) (hrest : s.part.ladder.state.pauses = true)
    (hstopped : s.part.sched.state = .stopped) (hq : q.ladder.state.pauses = true) : q.StaysAtRest s.part := by
  cases h with
  | same => exact .rfl
  | reset => cases hq
  | plain event => exact event.staysAtRest hrest
  | acts event =>
    rcases event.staysAtRest hrest hstopped with h | h
    · exact State.act_staysAtRest h hq
    · have hstate := Part.pauses_of_settle (by rwa [State.act_ladder] at hq)
      rw [State.act_ladder, hstate, h] at hq
      cases hq
  | @word f x mem current ends =>
    have hoff : (s.offList mem).part.StaysAtRest s.part := by
      refine ⟨rfl, fun a ha => ?_⟩
      obtain ⟨hmem, hparcels⟩ := List.mem_filter.1 ha
      exact List.mem_filter.2 ⟨List.mem_of_mem_tail hmem, hparcels⟩
    exact (State.act_staysAtRest (s := s.offList mem) (ends.staysAtRest (p := (s.offList mem).part) hrest) hq).trans hoff

end

/-! ## The way to rest -/

section
variable {s : State}

theorem LadderState.pauses_iff {l : LadderState} : l.pauses = true ↔ l ∈ [.resting, .rousing, .still, .settling] := by
  cases l <;> decide

section
variable (a : Access) (l : List Access)

theorem restingList_notSnapshot : ∀ x ∈ restingList l, x.source ≠ .snapshot := by
  cases l with
  | nil => exact nofun
  | cons b l =>
    rw [restingList_cons]
    intro x hx
    rcases List.mem_cons.1 hx with rfl | hx
    · split
      · exact nofun
      · assumption
    · simpa using (List.mem_filter.1 (List.mem_filter.1 hx).1).2

theorem restingList_notCut : (restingList l).filter (·.source != .cut) =
    (l.take 1 ++ (l.drop 1).filter (!·.source.isParcels)).filter (fun x => x.source != .cut && x.source != .snapshot) := by
  cases l with
  | nil => rfl
  | cons b l =>
    have hrest : ((l.filter (·.source != .snapshot)).filter (!·.source.isParcels)).filter (·.source != .cut) =
        (l.filter (!·.source.isParcels)).filter (fun x => x.source != .cut && x.source != .snapshot) := by
      rw [List.filter_filter, List.filter_filter, List.filter_filter]
      refine List.filter_congr fun x _ => ?_
      cases x.source <;> rfl
    rw [restingList_cons, List.filter_cons, hrest]
    change _ = (b :: l.filter (!·.source.isParcels)).filter _
    rw [List.filter_cons]
    by_cases hsource : b.source = .snapshot
    · rw [if_pos hsource, hsource]
      rfl
    · rw [if_neg hsource]
      have hkeep : (b.source != .cut) = (b.source != .cut && b.source != .snapshot) := by
        rw [show (b.source != .snapshot) = true by simpa using hsource, Bool.and_true]
      conv_lhs => rw [hkeep]

theorem restingList_keepsCut : ∀ x ∈ l, x.source = .cut → x ∈ restingList l := by
  cases l with
  | nil => exact nofun
  | cons b l =>
    intro x hx hcut
    rw [restingList_cons]
    rcases List.mem_cons.1 hx with rfl | hx
    · rw [if_neg (by rw [hcut]; decide)]
      exact List.mem_cons_self
    · refine List.mem_cons_of_mem _ (List.mem_filter.2 ⟨List.mem_filter.2 ⟨hx, ?_⟩, ?_⟩) <;> rw [hcut] <;> rfl

theorem restingList_head : ∀ y, l.head? = some y → y.source = .snapshot →
    (restingList l).head? = some { y with source := .cut } := by
  cases l with
  | nil => exact nofun
  | cons b l =>
    intro y hy hsource
    obtain rfl := Option.some.inj hy
    rw [restingList_cons, if_pos hsource]
    rfl

theorem restingList_cut : ∀ x ∈ restingList l, x.source = .cut →
    x ∈ l ∨ ∃ y, l.head? = some y ∧ y.source = .snapshot ∧ x = { y with source := .cut } := by
  cases l with
  | nil => exact nofun
  | cons b l =>
    intro x hx hcut
    rw [restingList_cons] at hx
    rcases List.mem_cons.1 hx with rfl | hx
    · by_cases hsource : b.source = .snapshot
      · exact .inr ⟨b, rfl, hsource, if_pos hsource⟩
      · rw [if_neg hsource]
        exact .inl List.mem_cons_self
    · exact .inl (List.mem_cons_of_mem _ (List.mem_filter.1 (List.mem_filter.1 hx).1).1)

theorem cutAccesses_parcels : ((cutAccesses l).drop 1).filter (·.source.isParcels) = (l.drop 1).filter (·.source.isParcels) := by
  cases l with
  | nil => rfl
  | cons b l =>
    change (l.filter _).filter _ = l.filter _
    rw [List.filter_filter]
    refine List.filter_congr fun x _ => ?_
    cases x.source <;> rfl

theorem restingList_length : (restingList l).length ≤ l.length := by
  cases l with
  | nil => exact Nat.le_refl _
  | cons b l =>
    rw [restingList_cons, List.length_cons, List.length_cons]
    exact Nat.succ_le_succ ((List.length_filter_le _ _).trans (List.length_filter_le _ _))

end

theorem Part.enterResting_parked (p : Part) :
    p.enterResting.parked = p.parked ++ ((cutAccesses p.bus).drop 1).filter (·.source.isParcels) := rfl

/-- No snapshot goes on at rest, and none begins there (R168). -/
theorem Part.settle_enterResting_snapshot (p : Part) :
    p.enterResting.settle.faults.snapshot = none ∧ p.enterResting.settle.faults.snapState ≠ .writing := by
  have hcut : p.enterResting.faults.snapshot = none ∧ p.enterResting.faults.snapState ≠ .writing := by
    refine ⟨rfl, ?_⟩
    change (if p.faults.snapState = .writing then SnapState.idle else p.faults.snapState) ≠ .writing
    split
    · decide
    · assumption
  obtain ⟨q, hq, hsettle, hstate⟩ := p.enterResting.settle_snapshot
  have hworks : q.ladder.state.worksMemory = false := by
    rw [hstate (by rw [p.enterResting_ladderState]; decide), p.enterResting_ladderState]
    rfl
  have hnone : q.faults.snapshot = none := hq.2.1.trans hcut.1
  have hkept : q.faults.snapState ≠ .writing := by
    rw [hq.1]
    exact hcut.2
  rw [hsettle.1, hsettle.2.1]
  unfold Part.settleSnapshot Part.triggerSnapshot
  split
  · split
    · next hsome => rw [show (q.modFaults _).faults.snapshot = q.faults.snapshot from rfl, hnone] at hsome; cases hsome
    · next hsome => rw [show (q.modFaults _).faults.snapshot = q.faults.snapshot from rfl, hnone] at hsome; cases hsome
    · rw [if_neg (by simp [hworks])]
      exact ⟨hnone, nofun⟩
    · exact ⟨hnone, hkept⟩
  · exact ⟨hnone, hkept⟩

/-- The request list and what waits, once RESTING is entered and everything that follows at once has come about. -/
theorem State.act_enterResting {f : Part → Part} (hf : f s.part = s.part.enterResting) :
    (s.act f).part.bus = s.part.enterResting.bus ∧
      ∃ waits : List Access, (s.act f).part.parked = s.part.enterResting.parked ++ waits ∧
        ∀ a ∈ waits, a.source ≠ .snapshot := by
  let q := s.part.enterResting
  let word : Access := { offset := 0x40, write := some (stateWord .resting s.part.ladder.startCount), source := .stateWord }
  have hrest : q.ladder.state.pauses = true := rfl
  obtain ⟨new, hbus, hwork⟩ := Part.settle_addsWork hrest
  have hsettle : q.settle.ladder.state.pauses = true := by
    have hworks := Part.settle_ladder_of_works (p := q) (fun u _ h => by cases h.1) (fun h => by cases h)
    rw [hworks]
    rfl
  obtain ⟨placed, hperm, harb, hparked⟩ :=
    Part.arbitrate_of_pauses hsettle (min s.part.bus.length q.bus.length)
  have hact : (s.act f).part = q.settle.arbitrate (min s.part.bus.length q.bus.length) := by
    change (f s.part).settle.arbitrate (min s.part.bus.length (f s.part).bus.length) = _
    rw [hf]
  have hlist : q.bus = restingList s.part.bus ++ [word] := s.part.enterResting_bus
  have hnew : new.filter (·.source == .stateWord) = [] :=
    List.filter_eq_nil_iff.2 fun a ha => by simpa using (hwork a ha).1
  rw [hact, harb, hparked, hbus, List.take_append_of_le_length (min_le_right _ _), Part.settle_parked]
  rw [hbus, List.drop_append_of_le_length (min_le_right _ _)] at hperm
  have hlength : q.bus.length = (restingList s.part.bus).length + 1 := by rw [hlist]; simp
  have hle := restingList_length s.part.bus
  have hdrop : q.bus.drop (min s.part.bus.length q.bus.length) = [] ∨
      q.bus.drop (min s.part.bus.length q.bus.length) = [word] := by
    by_cases hfull : s.part.bus.length < q.bus.length
    · have heq : min s.part.bus.length q.bus.length = (restingList s.part.bus).length := by omega
      rw [heq, hlist, List.drop_left]
      exact .inr rfl
    · rw [min_eq_right (by omega), List.drop_length]
      exact .inl rfl
  have hwords : placed.filter (·.source == .stateWord) = q.bus.drop (min s.part.bus.length q.bus.length) := by
    have hfilter := hperm.filter (·.source == .stateWord)
    rw [List.filter_append, hnew, List.append_nil] at hfilter
    rcases hdrop with h | h <;> rw [h] at hfilter ⊢
    · exact hfilter.eq_nil
    · exact List.perm_singleton.1 hfilter
  refine ⟨by rw [hwords, List.take_append_drop], _, rfl, fun a ha => ?_⟩
  have hmem := hperm.subset (List.mem_filter.1 ha).1
  rcases List.mem_append.1 hmem with hmem | hmem
  · rcases hdrop with h | h <;> rw [h] at hmem
    · cases hmem
    · rw [List.mem_singleton.1 hmem]
      exact nofun
  · exact (hwork a hmem).2.1

/-- Settles O32: the REST frame, RESTING as `enterResting` makes it, and the rest kept by every command. -/
theorem restFromHeld : Obligations.RestFromHeld := by
  refine ⟨fun s hc hheld hquiet => ?given, fun s hheld hguard hexchange hpending => ?entered,
    fun c s t hrest hstopped hexec ht => ?kept⟩
  case given =>
    obtain ⟨f, hexec, hf⟩ := exec_request_of_heldQuiet hc hheld hquiet .rest
    have hf := hf.trans (Part.takeRequest_rest_of_held _ hheld)
    have hstate : (s.part.emptySlot.giveBroadcast .rest .rest).ladder.state = .held := hheld
    have hq := State.act_settled hf (by rw [hstate]; decide) (by rw [hstate]; decide)
    refine ⟨_, hexec, ?_⟩
    rw [hq.ladder, hq.frames]
    exact ⟨hheld, rfl, rfl, rfl, rfl⟩
  case kept =>
    have hstays := (exec_reaction hexec).staysAtRest (LadderState.pauses_iff.2 hrest) hstopped (LadderState.pauses_iff.2 ht)
    refine ⟨hstays.parcels, fun a ha hparcels => ?_⟩
    have hword : a ∈ t.part.parcelWords := List.mem_filter.2 ⟨ha, by rw [isParcels_eq]; exact hparcels⟩
    exact (List.mem_filter.1 (hstays.words hword)).1
  case entered =>
    let q := s.part.enterResting
    have hf : s.part.restFrameSent s.port.area = q := by
      change q.takePending s.port.area = q
      rw [Part.takePending, show q.ladder.pending = none from hpending]
    have hexec : exec .restFrameSent s = .next (s.act fun p => p.restFrameSent s.port.area) := by
      change execRestFrameSent s = _
      rw [execRestFrameSent, State.actIf, if_pos]
      rw [hheld, FrameEngine.hasSent, hguard, hexchange]
      rfl
    have hstate : q.ladder.state = .resting := rfl
    have hq := State.act_settled (s := s) (f := fun p => p.restFrameSent s.port.area) hf
      (by rw [hstate]; decide) (by rw [hstate]; decide)
    obtain ⟨hbus, waits, hparked, hwaits⟩ := State.act_enterResting (f := fun p => p.restFrameSent s.port.area) hf
    have hlist : q.bus = restingList s.part.bus ++
        [{ offset := 0x40, write := some (stateWord .resting s.part.ladder.startCount), source := .stateWord }] :=
      s.part.enterResting_bus
    have hkept : q.parked = s.part.parked ++ (s.part.bus.drop 1).filter (·.source.isParcels) := by
      rw [← cutAccesses_parcels]
      rfl
    simp only [← isParcels_eq]
    refine ⟨_, hexec, ?_⟩
    rw [hq.ladder, hq.frames, hq.hasCause, hq.capture, hbus, hparked, hlist, hkept]
    refine ⟨rfl, rfl, rfl, rfl, Part.enterResting_hasCause _, ?capture, ?snapshot, ?state, ?bus, ?parked,
      ⟨restingList s.part.bus, rfl, restingList_notCut _, restingList_keepsCut _, restingList_head _, restingList_cut _⟩,
      List.prefix_append _ _, ?parcels⟩
    case capture => rfl
    case bus =>
      intro x hx
      rcases List.mem_append.1 hx with hx | hx
      · exact restingList_notSnapshot _ x hx
      · rw [List.mem_singleton.1 hx]
        exact nofun
    case parked =>
      intro x hx
      rcases List.mem_append.1 hx with hx | hx
      · rcases List.mem_append.1 hx with hx | hx
        · exact .inl hx
        · refine .inr fun hsource => ?_
          have hparcels := (List.mem_filter.1 hx).2
          rw [hsource] at hparcels
          cases hparcels
      · exact .inr (hwaits x hx)
    case parcels =>
      rw [State.act_parcels, hf, Part.settle_parcels _ (by rw [hstate]; decide)]
      rfl
    case snapshot =>
      rw [State.act_faults, hf]
      exact (s.part.settle_enterResting_snapshot).1
    case state =>
      rw [State.act_faults, hf]
      exact (s.part.settle_enterResting_snapshot).2

end

end Sys2Proof.Machine
end

section
/-! SUPPORT. What comes about of itself while a service works, HELD-SERVICE entered (O39), and NUDGE by the rung (O38). -/

namespace Sys2Proof.Machine

/-! ## What an event of a service at work leads to -/

section
variable {p : Part}

/-- A service neither waits nor awaits its read. -/
def Ladder.serviceWorks (l : Ladder) : Prop := l.state = .heldService → l.serviceWait = false ∧ l.serviceRead = false

theorem Part.settle_keepsLine_of_works (hstart : p.ladder.state ≠ .starting) (hworks : p.ladder.serviceWorks) :
    p.settle.KeepsLine p := by
  have startup (q : Part) (hq : q.ladder = p.ladder) : q.settleStartup = q :=
    q.settleStartup_of_waits fun u _ h => hstart (by rw [← hq]; exact h.1)
  have service (q : Part) (hq : q.ladder = p.ladder) : q.settleService = q :=
    q.settleService_of_works (by rw [hq]; exact hworks)
  unfold Part.settle
  rw [startup _ (by simp), service _ (by simp)]
  simp [Part.KeepsLine]

variable {s : State} {f : Part → Part} {q : Part}

theorem State.act_settled_of_works (hf : f s.part = q) (hstart : q.ladder.state ≠ .starting) (hworks : q.ladder.serviceWorks) :
    (s.act f).part.Settled q := by
  subst hf
  obtain ⟨hladder, hframes, hnodes, hclaimed, -⟩ := Part.settle_keepsLine_of_works hstart hworks
  obtain ⟨hrecords, -, hwindows, hsched, hcycle, -, -, -, hcapture, hcounters, hrest⟩ := s.act_keeps f
  have hcause : (s.act f).part.faults.cause = (f s.part).faults.cause := by
    rw [State.act_faults, Part.settle_cause_of_notStarting _ hstart]
  refine ⟨hladder, hframes, hcause, hcapture, hcounters, hrecords, hwindows, hsched, hcycle, ?_, hnodes, hclaimed⟩
  obtain ⟨-, -, -, -, -, -, -, -, -, -, -, -, -, -, -, hqueue, -⟩ := hrest
  exact hqueue

end

/-! ## HELD-SERVICE entered -/

section
variable {p : Part}

theorem Part.newRound_firstEligible : p.newRound.firstEligible = p.events.queue.find? fun i => !(p.nodeEvents i).intake := by
  have heligible : (fun i => (p.newRound.nodeEvents i).eligible) = fun i => !(p.nodeEvents i).intake := by
    funext i
    simp [Part.newRound, Part.nodeEvents, NodeEvents.eligible]
  rw [Part.firstEligible, heligible]
  rfl

theorem Part.newRound_ackOf (i : NodeIx) : p.newRound.ackOf i = p.ackOf i := by
  simp [Part.ackOf, Part.newRound, Part.nodeEvents] <;> rfl

theorem Part.nameNode_ackOf (i : NodeIx) : (p.nameNode i).ackOf i = p.ackOf i := by
  simp [Part.ackOf, Part.nameNode, Part.nodeEvents, Part.modEvents] <;> rfl

theorem Part.giveFetch_frames (i : NodeIx) :
    (p.giveFetch i).frames.state = .sending ∧ (p.giveFetch i).frames.exchange = some (.fetch i (p.ackOf i)) := ⟨rfl, rfl⟩

theorem Part.serviceAllowed_iff : p.serviceAllowed = true ↔
    p.ladder.state = .held ∧ p.ladder.holdSent = true ∧ p.ladder.faultHold = false ∧ p.ladder.pending = none ∧
      p.canName = true ∧ p.frames.exchange = none ∧ p.loader.check = none := by
  simp [Part.serviceAllowed, and_assoc]

/-- Settles O39: the new round makes the queue's first node without an intake eligible, and a place is free for it. -/
theorem serviceEntered : Obligations.ServiceEntered := by
  intro s hallowed
  obtain ⟨hheld, -, hhold, hpending, hname, -, -⟩ := Part.serviceAllowed_iff.1 hallowed
  obtain ⟨hany, hfree⟩ := (Bool.and_eq_true _ _).mp hname
  let entered := s.part.modLadder fun l => { l with state := .heldService, serviceWait := false, serviceRead := false }
  obtain ⟨i, hi⟩ : ∃ i, s.part.events.queue.find? (fun j => !(s.part.nodeEvents j).intake) = some i := by
    rw [← Option.isSome_iff_exists, List.find?_isSome]
    exact List.any_eq_true.1 hany
  have hserved : s.part.enterService = entered.newRound.serveNode i := by
    change entered.newRound.serviceNext = _
    have hstays : ¬ (entered.newRound.ladder.pending.isSome || entered.newRound.ladder.faultHold) = true := by
      change ¬ (s.part.ladder.pending.isSome || s.part.ladder.faultHold) = true
      rw [hpending, hhold]
      decide
    have heligible : entered.newRound.firstEligible = some i := Part.newRound_firstEligible.trans hi
    rw [Part.serviceNext, if_neg hstays, heligible]
    exact if_pos (of_decide_eq_true hfree)
  have hladder : (entered.newRound.serveNode i).ladder =
      { s.part.ladder with state := .heldService, serviceWait := false, serviceRead := false } := Part.serveNode_ladder _ _
  have hq := State.act_settled_of_works (s := s) hserved (by rw [hladder]; exact nofun) (by rw [hladder]; exact fun _ => ⟨rfl, rfl⟩)
  have hexec : exec .heldServiceEntry s = .next (s.act Part.enterService) := by
    change execHeldServiceEntry s = _
    rw [execHeldServiceEntry, State.actIf, if_pos hallowed]
  refine ⟨_, i, hexec, hi, ?_⟩
  rw [hq.ladder, hq.frames, hq.claimed, hq.queue, hladder]
  refine ⟨rfl, rfl, ?_, rfl, rfl⟩
  change some (Exchange.fetch i (((entered.newRound.nameNode i).modSched _).ackOf i)) = _
  rw [show (((entered.newRound.nameNode i).modSched _).ackOf i) = (entered.newRound.nameNode i).ackOf i from rfl,
    Part.nameNode_ackOf, Part.newRound_ackOf]
  rfl

end

/-! ## What comes about of itself but for a service's next step -/

/-- `settle` up to the step of a waiting service. -/
def Part.settleMost (p : Part) : Part :=
  p.settleNodeOpen.settleCheck.settleStartup.settleParcelOpen.settleSnapshot.startAppend

theorem Part.settle_eq_settleMost (p : Part) : p.settle = p.settleMost.settleService := rfl

/-- No start-up commit has just ended. -/
def Part.startupWaits (p : Part) : Prop :=
  ∀ u, p.ladder.startup = some u → ¬ (p.ladder.state = .starting ∧ u.pos = .commit ∧ p.loader.check = none)

/-- What `settleMost` leaves where no start-up commit has just ended. -/
structure Part.MostlySettled (r p : Part) : Prop where
  ladder : r.ladder = p.ladder
  frames : r.frames = p.frames
  nodes : r.events.nodes = p.events.nodes
  takenRead : r.events.takenRead = p.events.takenRead
  loader : r.loader = { p.loader with check := r.loader.check }
  check : r.loader.check.isSome = p.loader.check.isSome
  writes : p.table.writes <+: r.table.writes
  walk : p.parcels.walk ≠ .idle → r.parcels.walk ≠ .idle

section
variable (p : Part)

theorem Part.writeOwed_writes : p.writeOwed.table.writes =
    p.table.writes ++ (allNodes.filter fun i => (p.node i).statusOwed).map fun i => { node := i, cause := false } := by
  unfold Part.writeOwed
  generalize allNodes.filter _ = l
  induction l generalizing p with
  | nil => simp
  | cons i l ih => simp [ih]

theorem Part.settleNodeOpen_writes : p.table.writes <+: p.settleNodeOpen.table.writes := by
  have howed : p.table.writes <+: p.writeOwed.table.writes := by
    rw [Part.writeOwed_writes]
    exact List.prefix_append _ _
  unfold Part.settleNodeOpen
  dsimp only
  (repeat' split) <;> first | exact howed | exact List.prefix_refl _

theorem Part.checkAt_loader (c : Check) : (p.checkAt c).loader = { p.loader with check := some c } := by
  unfold Part.checkAt
  dsimp only
  split <;> rfl

theorem Part.settleCheck_loader : p.settleCheck.loader = { p.loader with check := p.settleCheck.loader.check } := by
  unfold Part.settleCheck
  split
  · dsimp only
    split
    · split <;> simp [Part.checkAt_loader]
    · rfl
  · rfl

theorem Part.settleCheck_writes : p.settleCheck.table.writes = p.table.writes := by
  unfold Part.settleCheck
  (repeat' split) <;> simp

theorem Part.startAnswer_walk : p.startAnswer.parcels.walk = p.parcels.walk := by
  rw [Part.startAnswer_keepsButAnswers p]

theorem Part.settleParcelOpen_walk (h : p.parcels.walk ≠ .idle) : p.settleParcelOpen.parcels.walk ≠ .idle := by
  have hrewrites : p.openRewrites.parcels.walk = p.parcels.walk := by
    unfold Part.openRewrites
    split
    · change p.retryAnswers.parcels.walk = _
      unfold Part.retryAnswers
      dsimp only
      split
      · rfl
      · exact foldl_relates (fun q p => q.parcels.walk = p.parcels.walk) rfl (fun h k => h.trans k) _
          (fun q e => by rw [show (q.readyAnswer _).parcels.walk = _ from Part.startAnswer_walk _]) _ _
    · rfl
  have hpatience (q : Part) : q.openPatience.parcels.walk = q.parcels.walk := by
    unfold Part.openPatience
    split <;> rfl
  have hscan (q : Part) (hq : q.ladder.state.pauses = false) (hw : q.parcels.walk ≠ .idle) :
      q.openScan.parcels.walk ≠ .idle := by
    unfold Part.openScan
    split
    · exact Part.scanTrigger_walk_ne_idle hq
    · exact hw
  unfold Part.settleParcelOpen
  split
  · next hrun =>
    refine hscan _ ?_ ?_
    · rw [show p.openRewrites.openPatience.ladder = p.ladder by simp, hrun]
      rfl
    · rwa [hpatience, hrewrites]
  · exact h

theorem Part.settleParcelOpen_units :
    p.settleParcelOpen.loader = p.loader ∧ p.settleParcelOpen.table = p.table ∧ p.settleParcelOpen.frames = p.frames := by
  unfold Part.settleParcelOpen Part.openScan Part.openPatience Part.openRewrites
  (repeat' split) <;> simp

theorem Part.startAppend_table : p.startAppend.table = p.table := by
  unfold Part.startAppend
  split <;> rfl

theorem Part.settleNodeOpen_units : p.settleNodeOpen.events = p.events ∧ p.settleNodeOpen.parcels = p.parcels := by
  unfold Part.settleNodeOpen
  dsimp only
  (repeat' split) <;> simp

variable {p}

theorem Part.startupWaits_of_notStarting (h : p.ladder.state ≠ .starting) : p.startupWaits := fun _ _ hs => h hs.1

theorem Part.startupWaits_of_checks (h : p.loader.check.isSome = true) : p.startupWaits := by
  rintro u - ⟨-, -, hnone⟩
  rw [hnone] at h
  cases h

theorem Part.settleMost_settles_of_waits (h : p.startupWaits) : p.settleMost.MostlySettled p := by
  let checked := p.settleNodeOpen.settleCheck
  have hladder : checked.ladder = p.ladder := by simp [checked]
  have hcheck : checked.loader.check.isSome = p.loader.check.isSome := by
    rw [Part.settleCheck_check_isSome, Part.settleNodeOpen_loader]
  have hstart : checked.settleStartup = checked := by
    refine checked.settleStartup_of_waits fun u hu hs => ?_
    rw [hladder] at hu hs
    refine h u hu ⟨hs.1, hs.2.1, ?_⟩
    rw [hs.2.2] at hcheck
    simpa using hcheck.symm
  have hmost : p.settleMost = checked.settleParcelOpen.settleSnapshot.startAppend := by
    change checked.settleStartup.settleParcelOpen.settleSnapshot.startAppend = _
    rw [hstart]
  have hparcels : checked.parcels = p.parcels := by simp [checked, p.settleNodeOpen_units]
  have hloader : p.settleMost.loader = checked.loader := by rw [hmost]; simp [checked.settleParcelOpen_units]
  rw [show p.settleMost = _ from hmost] at *
  refine ⟨by simp [hladder], by simp [checked], by simp [checked], ?_, ?_, ?_, ?_, fun hw => ?_⟩
  · simp [checked, Part.startAppend_takenRead, Part.settleParcelOpen_takenRead, p.settleNodeOpen_units]
  · rw [hloader, ← p.settleNodeOpen_loader]
    exact Part.settleCheck_loader _
  · rw [hloader, ← p.settleNodeOpen_loader]
    exact Part.settleCheck_check_isSome _
  · have htable : checked.settleParcelOpen.settleSnapshot.startAppend.table = checked.table := by
      rw [Part.startAppend_table]
      simp [checked.settleParcelOpen_units]
    rw [htable, Part.settleCheck_writes]
    exact p.settleNodeOpen_writes
  · have hwalk : checked.settleParcelOpen.settleSnapshot.startAppend.parcels = checked.settleParcelOpen.parcels := by simp
    rw [hwalk]
    exact Part.settleParcelOpen_walk _ (by rwa [hparcels])

theorem Part.settleMost_settles (h : p.ladder.state ≠ .starting) : p.settleMost.MostlySettled p :=
  Part.settleMost_settles_of_waits (Part.startupWaits_of_notStarting h)

end

/-! ## NUDGE by the rung -/

/-- Where a service's next step leads: it goes on, the loader as it stood, or ends, the check owed begun. -/
structure Part.ServiceStep (r q : Part) : Prop where
  goes : r.ladder.state = q.ladder.state ∧ r.loader = q.loader ∨
    r.ladder.state = .held ∧ (q.loader.checkOwed = true → r.loader.check.isSome = true)
  taken : q.events.takenRead.isSome = true → r.events.takenRead.isSome = true

section
variable (p : Part)

theorem Part.endService_serviceStep : p.endService.ServiceStep p := by
  refine ⟨.inr ⟨p.endService_ladderState, fun h => ?_⟩, fun h => ?_⟩
  · simp [Part.endService, h, Part.beginCheck, Part.checkAt_loader]
  · unfold Part.endService
    dsimp only
    split <;> simpa using h

theorem Part.serviceName_serviceStep (i : NodeIx) : (p.serviceName i).ServiceStep p := by
  refine ⟨.inl ⟨p.serviceName_ladderState i, ?_⟩, fun h => ?_⟩
  · unfold Part.serviceName
    split
    · rfl
    · simp
  · unfold Part.serviceName
    split
    · exact h
    · exact Part.requestTaken_isSome _ _

theorem Part.serviceNext_serviceStep : p.serviceNext.ServiceStep p := by
  unfold Part.serviceNext
  split
  · exact p.endService_serviceStep
  split
  next i _ => exact p.serviceName_serviceStep i
  next =>
    split
    · exact p.endService_serviceStep
    split
    · dsimp only
      have round {r : Part} (h : r.ServiceStep p.newRound) : r.ServiceStep p := ⟨h.goes, h.taken⟩
      split
      next i _ => exact round (p.newRound.serviceName_serviceStep i)
      next => exact round p.newRound.endService_serviceStep
    · exact ⟨.inl ⟨rfl, rfl⟩, fun h => h⟩

theorem Part.settleService_serviceStep : p.settleService.ServiceStep p := by
  unfold Part.settleService
  split
  · split
    · exact p.endService_serviceStep
    split
    · have h := Part.serviceNext_serviceStep (p.modLadder fun l => { l with serviceWait := false })
      exact ⟨h.goes, h.taken⟩
    · exact ⟨.inl ⟨rfl, rfl⟩, fun h => h⟩
  · exact ⟨.inl ⟨rfl, rfl⟩, fun h => h⟩

end

section
variable {p : Part}

theorem Part.settle_serviceStep (h : p.ladder.state ≠ .starting) : p.settle.ServiceStep p.settleMost := by
  rw [Part.settle_eq_settleMost]
  exact p.settleMost.settleService_serviceStep

theorem Part.settle_eq_settleMost_of_works (hstart : p.ladder.state ≠ .starting) (hworks : p.ladder.serviceWorks) :
    p.settle = p.settleMost := by
  rw [Part.settle_eq_settleMost, Part.settleService_of_works]
  rw [(Part.settleMost_settles hstart).ladder]
  exact hworks

theorem Part.beginCheck_loader (origin : CheckFrom) :
    (p.beginCheck origin).loader = { p.loader with check := (p.beginCheck origin).loader.check } ∧
      (p.beginCheck origin).loader.check.isSome = true := by
  simp [Part.beginCheck, Part.checkAt_loader]

/-- A generation word that asks for nothing new ends the check (R135). -/
theorem Part.generationRead_of_known {c : Check} {g : Word} (hstartup : c.origin ≠ .startup)
    (hg : g = p.loader.accepted ∨ p.loader.refused = some g) :
    ∃ q : Part, p.generationRead c g = q.checkEnd c.origin ∧ q = { p with loader := q.loader } ∧
      q.loader = { p.loader with refused := if g = p.loader.accepted then none else some g } := by
  by_cases haccepted : g = p.loader.accepted
  · refine ⟨p.modLoader fun l => { l with refused := none }, ?_, rfl, ?_⟩
    · rw [Part.generationRead, if_neg hstartup, if_pos haccepted]
    · rw [if_pos haccepted]
      rfl
  · have hrefused := hg.resolve_left haccepted
    refine ⟨p, ?_, rfl, ?_⟩
    · rw [Part.generationRead, if_neg hstartup, if_neg haccepted, if_pos hrefused]
    · rw [if_neg haccepted, ← hrefused]

/-- The end of a NUDGE's check: the status records owed are asked for and a scan triggered; a check owed begins. -/
structure Part.NudgeChecked (r p : Part) : Prop where
  ladder : r.ladder = p.ladder
  refused : r.loader.refused = p.loader.refused
  parcels : ∃ q : Part, q.ladder = p.ladder ∧ q.parcels = p.parcels ∧ r.parcels = q.scanTrigger.parcels
  writes : ∀ i, (p.node i).statusOwed = true → ∃ w ∈ r.table.writes, w.node = i

theorem Part.mem_writeOwed {i : NodeIx} (h : (p.node i).statusOwed = true) : ∃ w ∈ p.writeOwed.table.writes, w.node = i := by
  refine ⟨{ node := i, cause := false }, ?_, rfl⟩
  rw [Part.writeOwed_writes]
  refine List.mem_append_right _ (List.mem_map.2 ⟨i, List.mem_filter.2 ⟨?_, h⟩, rfl⟩)
  exact List.mem_finRange i

theorem Part.checkEnd_nudgeChecked : (p.checkEnd .nudge).NudgeChecked p := by
  let ended := p.modLoader fun l => { l with check := none }
  let scanned := ended.writeOwed.scanTrigger
  have hscanned : scanned.NudgeChecked p := by
    refine ⟨by simp [scanned, ended], by simp [scanned, ended], ⟨ended.writeOwed, by simp [ended], by simp [ended], rfl⟩, ?_⟩
    intro i hi
    rw [show scanned.table = ended.writeOwed.table by simp [scanned]]
    exact Part.mem_writeOwed hi
  change (if scanned.loader.checkOwed then (scanned.modLoader fun l => { l with checkOwed := false }).beginCheck .nudge
    else scanned).NudgeChecked p
  split
  · obtain ⟨hladder, hrefused, ⟨q, hq, hp, hparcels⟩, hwrites⟩ := hscanned
    refine ⟨by simpa using hladder, ?_, ⟨q, hq, hp, by simpa using hparcels⟩, by simpa using hwrites⟩
    rw [(Part.beginCheck_loader _).1]
    exact hrefused
  · exact hscanned

end

section
variable {s : State} {x : Access} {c : Check} {host : Option Word} {dt : Nat} {g : Word}

/-- The generation word of a NUDGE's check is read and asks for nothing new. -/
theorem exec_nudgeChecked (hx : s.current = some x) (hsource : x.source = .loader) (hp : s.part.ladder.softPending = false)
    (hcheck : s.part.loader.check = some c) (horigin : c.origin = .nudge) (hpos : c.pos = .readGeneration)
    (hg : g = s.wordOf x host) (hknown : g = s.part.loader.accepted ∨ s.part.loader.refused = some g) :
    ∃ (f : Part → Part) (q : Part), exec (.memoryAccessComplete host dt) s = .next ((s.afterWord x host).act f) ∧
      f (s.afterWord x host).part = q.checkEnd .nudge ∧ q.ladder = s.part.ladder ∧ q.parcels = s.part.parcels ∧
      q.table = s.part.table ∧ q.loader.refused = if g = s.part.loader.accepted then none else some g := by
  obtain ⟨q, hread, hq, hloader⟩ := Part.generationRead_of_known (p := (s.afterWord x host).part.passTime dt) (c := c)
    (by rw [horigin]; decide) hknown
  rw [horigin] at hread
  have hdone : ((s.afterWord x host).part.passTime dt).accessDone .loader g = q.checkEnd .nudge := by
    change ((s.afterWord x host).part.passTime dt).continueCheck g = _
    rw [Part.continueCheck, show ((s.afterWord x host).part.passTime dt).loader.check = some c from hcheck]
    dsimp only
    rw [hpos]
    exact hread
  refine ⟨_, q, exec_memoryAccessComplete_of_current hx hp host dt, ?_, by rw [hq]; rfl, by rw [hq]; rfl, by rw [hq]; rfl, ?_⟩
  · rw [hsource]
    rw [hg] at hdone
    exact hdone
  · rw [hloader]
    rfl

theorem exec_nudge_of_takesControl (h : s.takesControl) :
    exec .nudge s = .next (if s.part.ladder.state.worksMemory then s.act Part.nudge else s) := by
  rw [exec_nudge, State.writeControl]
  obtain ⟨hpin, hreset⟩ := h
  simp only [hpin, hreset, Bool.false_eq_true, if_false]
  rfl

end

section
variable {p : Part}

theorem Part.nudge_inRun (hrun : p.ladder.state = .run) :
    p.nudge.settle.events.takenRead.isSome = true ∧ p.nudge.settle.parcels.walk ≠ .idle := by
  have hnudge : p.nudge = (p.requestTaken false).scanTrigger := by rw [Part.nudge, hrun]
  have hladder : p.nudge.ladder.state = .run := by rw [Part.nudge_ladder, hrun]
  have hstart : p.nudge.ladder.state ≠ .starting := by rw [hladder]; decide
  have hservice : p.nudge.ladder.state ≠ .heldService := by rw [hladder]; decide
  rw [Part.settle_takenRead _ hstart hservice, Part.settle_eq_settleMost_of_works hstart fun h => absurd h hservice]
  refine ⟨?_, (Part.settleMost_settles hstart).walk ?_⟩
  · rw [hnudge, show (p.requestTaken false).scanTrigger.events = (p.requestTaken false).events by simp]
    exact Part.requestTaken_isSome _ _
  · rw [hnudge]
    refine Part.scanTrigger_walk_ne_idle ?_
    rw [show (p.requestTaken false).ladder = p.ladder by simp, hrun]
    rfl

theorem Part.nudge_inHeld (hheld : p.ladder.state = .held) :
    p.nudge.settle.events.takenRead.isSome = true ∧ p.nudge.settle.loader.check.isSome = true ∧
      (p.loader.check.isSome = true → p.nudge.settle.loader.checkOwed = true) := by
  let owed := p.modLoader fun l => { l with checkOwed := true }
  let checked := if p.loader.check.isNone then p.beginCheck .nudge else owed
  have hnudge : p.nudge = checked.requestTaken false := by rw [Part.nudge, hheld]
  have hladder : p.nudge.ladder.state = .held := by rw [Part.nudge_ladder, hheld]
  have hstart : p.nudge.ladder.state ≠ .starting := by rw [hladder]; decide
  have hservice : p.nudge.ladder.state ≠ .heldService := by rw [hladder]; decide
  have hloader : p.nudge.loader = checked.loader := by rw [hnudge]; simp
  have hmost := Part.settleMost_settles hstart
  rw [Part.settle_takenRead _ hstart hservice, Part.settle_eq_settleMost_of_works hstart fun h => absurd h hservice]
  refine ⟨?_, ?_, fun hsome => ?_⟩
  · rw [hnudge]
    exact Part.requestTaken_isSome _ _
  · rw [hmost.check, hloader]
    by_cases hnone : p.loader.check.isNone
    · rw [show checked = p.beginCheck .nudge from if_pos hnone]
      exact (Part.beginCheck_loader _).2
    · rw [show checked = owed from if_neg hnone]
      simpa [owed, Part.modLoader, Option.isSome_iff_ne_none] using hnone
  · have hnone : ¬ p.loader.check.isNone = true := by simpa [Option.isSome_iff_ne_none] using hsome
    rw [hmost.loader, hloader, show checked = owed from if_neg hnone]
    rfl

theorem Part.nudge_inService (hservice : p.ladder.state = .heldService) :
    p.nudge.settle.events.takenRead.isSome = true ∧ p.nudge.settle.parcels.walk ≠ .idle ∧
      (p.nudge.settle.ladder.state = .heldService ∧ p.nudge.settle.loader.checkOwed = true ∨
        p.nudge.settle.ladder.state = .held ∧ p.nudge.settle.loader.check.isSome = true) ∧
      (p.ladder.serviceWait = false → p.ladder.serviceRead = false → p.nudge.settle.ladder.state = .heldService) := by
  let scanned := (p.modLoader fun l => { l with checkOwed := true }).scanTrigger
  have hnudge : p.nudge = scanned.requestTaken false := by rw [Part.nudge, hservice]
  have hladder : p.nudge.ladder = p.ladder := p.nudge_ladder
  have hstate : p.nudge.ladder.state = .heldService := by rw [hladder, hservice]
  have hstart : p.nudge.ladder.state ≠ .starting := by rw [hstate]; decide
  have hmost := Part.settleMost_settles hstart
  have hstep := Part.settle_serviceStep hstart
  have howed : p.nudge.settleMost.loader.checkOwed = true := by
    rw [hmost.loader]
    change p.nudge.loader.checkOwed = true
    rw [hnudge]
    simp [scanned]
  refine ⟨hstep.taken ?_, ?_, ?_, fun hwait hread => ?_⟩
  · rw [hmost.takenRead, hnudge]
    exact Part.requestTaken_isSome _ _
  · rw [Part.settle_parcels _ (by rw [hstate]; decide), hnudge, show (scanned.requestTaken false).parcels = scanned.parcels by simp]
    refine Part.scanTrigger_walk_ne_idle ?_
    change p.ladder.state.pauses = false
    rw [hservice]
    rfl
  · rcases hstep.goes with ⟨hgoes, hsame⟩ | ⟨hends, hcheck⟩
    · exact .inl ⟨by rw [hgoes, hmost.ladder, hstate], by rw [hsame, howed]⟩
    · exact .inr ⟨hends, hcheck howed⟩
  · rw [Part.settle_eq_settleMost_of_works hstart (by rw [hladder]; exact fun _ => ⟨hwait, hread⟩), hmost.ladder, hstate]

end

/-- Settles O38: a NUDGE by the rung, and the end of its check in the held line and at rest. -/
theorem nudgeByLadderState : Obligations.NudgeByLadderState := by
  refine ⟨fun s hc => ?written, fun s x c host dt g hx hsource hp hheld hcheck horigin hpos hg hknown => ?held,
    fun s x c host dt g hx hsource hp hrests hcheck horigin hpos hg hknown => ?rests⟩
  case written =>
    refine ⟨_, exec_nudge_of_takesControl hc, fun hrun => ?_, fun hheld => ?_, fun hservice => ?_, fun hidle => ?_⟩
    · rw [if_pos (by rw [hrun]; rfl), State.act_events, State.act_parcels]
      exact Part.nudge_inRun hrun
    · rw [if_pos (by rw [hheld]; rfl), State.act_events, State.act_loader]
      exact Part.nudge_inHeld hheld
    · rw [if_pos (by rw [hservice]; rfl), State.act_events, State.act_parcels, State.act_ladder, State.act_loader]
      exact Part.nudge_inService hservice
    · rw [hidle]
      rfl
  case held =>
    obtain ⟨f, q, hexec, hf, hladder, -, htable, hrefused⟩ :=
      exec_nudgeChecked (dt := dt) hx hsource hp hcheck horigin hpos hg hknown
    obtain ⟨hsame, hkept, ⟨q', hq', -, hscan⟩, hwrites⟩ := q.checkEnd_nudgeChecked
    have hstate : (q.checkEnd .nudge).ladder.state = .held := by rw [hsame, hladder, hheld]
    have hstart : (q.checkEnd .nudge).ladder.state ≠ .starting := by rw [hstate]; decide
    have hmost := Part.settleMost_settles hstart
    refine ⟨_, hexec, ?_⟩
    rw [State.act_ladder, State.act_loader, State.act_parcels, State.act_table, hf,
      Part.settle_eq_settleMost_of_works hstart (fun h => by rw [hstate] at h; cases h)]
    refine ⟨by rw [hmost.ladder, hstate], by rw [hmost.loader]; exact hkept.trans hrefused, hmost.walk ?_, fun i hi => ?_⟩
    · rw [hscan]
      refine Part.scanTrigger_walk_ne_idle ?_
      rw [hq', hladder, hheld]
      rfl
    · obtain ⟨w, hw, hnode⟩ := hwrites i (by rw [Part.node, htable]; exact hi)
      exact ⟨w, hmost.writes.subset hw, hnode⟩
  case rests =>
    obtain ⟨f, q, hexec, hf, hladder, hparcels, -, hrefused⟩ :=
      exec_nudgeChecked (dt := dt) hx hsource hp hcheck horigin hpos hg hknown
    obtain ⟨hsame, hkept, ⟨q', hq', hp', hscan⟩, -⟩ := q.checkEnd_nudgeChecked
    have hstate : (q.checkEnd .nudge).ladder = s.part.ladder := hsame.trans hladder
    have hpauses : s.part.ladder.state.pauses = true := by rcases hrests with h | h <;> rw [h] <;> rfl
    have hnot {l : LadderState} (hl : l.pauses = false) : (q.checkEnd .nudge).ladder.state ≠ l := by
      rw [hstate]
      rintro rfl
      rw [hl] at hpauses
      cases hpauses
    have hmost := Part.settleMost_settles (hnot (l := .starting) rfl)
    refine ⟨_, hexec, ?_⟩
    rw [State.act_ladder, State.act_loader, State.act_parcels, hf, Part.settle_parcels _ (hnot (l := .run) rfl),
      Part.settle_eq_settleMost_of_works (hnot rfl) fun h => absurd h (hnot rfl)]
    refine ⟨by rw [hmost.ladder, hstate], by rw [hmost.loader]; exact hkept.trans hrefused, ?_⟩
    rw [hscan, Part.scanTrigger_rests _ (by rw [hq', hladder, hpauses])]
    change { q'.parcels with keptTrigger := true } = _
    rw [hp', hparcels]

end Sys2Proof.Machine
end

section
/-! SUPPORT. What arrives unsolicited: an ALERT in the held line (O40), and the strays (O41). -/

namespace Sys2Proof.Machine

/-! ## What comes about of itself in the held line -/

/-- A node's event state but for its fetched flag. -/
def Part.marks (p : Part) (i : NodeIx) : NodeEvents := { p.nodeEvents i with fetched := false }

section
variable (p : Part)

theorem Part.endService_events : p.endService.events = p.events := by
  unfold Part.endService
  dsimp only
  split <;> simp

theorem Part.newRound_marks (i : NodeIx) : p.newRound.marks i = p.marks i := by
  simp [Part.marks, Part.newRound, Part.nodeEvents]

theorem Part.serviceName_marks (j i : NodeIx) : (p.serviceName j).marks i = p.marks i := by
  have hname : (p.nameNode j).marks i = p.marks i := by
    unfold Part.marks Part.nameNode
    rw [Part.modEvents_nodeEvents]
    split
    next h => rw [h]; rfl
    next => rfl
  unfold Part.serviceName
  split
  · exact hname
  · simp [Part.marks, Part.nodeEvents]

theorem Part.serviceNext_marks (i : NodeIx) : p.serviceNext.marks i = p.marks i := by
  have hend (q : Part) : q.endService.marks i = q.marks i := by simp [Part.marks, Part.nodeEvents, Part.endService_events]
  unfold Part.serviceNext
  split
  · exact hend p
  split
  next j _ => exact p.serviceName_marks j i
  next =>
    split
    · exact hend p
    split
    · dsimp only
      split
      next j _ => exact (p.newRound.serviceName_marks j i).trans (p.newRound_marks i)
      next => exact (hend p.newRound).trans (p.newRound_marks i)
    · rfl

theorem Part.settleService_marks (i : NodeIx) : p.settleService.marks i = p.marks i := by
  unfold Part.settleService
  split
  · split
    · simp [Part.marks, Part.nodeEvents, Part.endService_events]
    split
    · exact Part.serviceNext_marks _ i
    · rfl
  · rfl

/-- What the rest of an event's work in the held line leaves: registers, records and strays, the queue and each node's marks. -/
structure Part.HeldSettled (q p : Part) : Prop where
  state : q.ladder.state = p.ladder.state ∨ p.ladder.state = .heldService ∧ q.ladder.state = .held
  counters : q.faults.counters = p.faults.counters
  records : q.table.records = p.table.records
  windows : q.windows = p.windows
  queue : q.events.queue = p.events.queue
  marks : ∀ i, q.marks i = p.marks i
  takenRead : p.events.takenRead.isSome = true → q.events.takenRead.isSome = true

end

section
variable {s : State} {f : Part → Part} {q : Part}

theorem Part.HeldSettled.isHeld {p : Part} (h : q.HeldSettled p) (hp : p.ladder.state.isHeld = true) :
    q.ladder.state.isHeld = true := by
  rcases h.state with h | ⟨-, h⟩
  · rwa [h]
  · rw [h]
    rfl

theorem State.act_heldSettled (hf : f s.part = q) (hheld : q.ladder.state.isHeld = true) : (s.act f).part.HeldSettled q := by
  subst hf
  have hstart : (f s.part).ladder.state ≠ .starting := by
    intro h
    rw [h] at hheld
    cases hheld
  obtain ⟨hrecords, -, hwindows, -, -, -, -, -, -, hcounters, hrest⟩ := s.act_keeps f
  obtain ⟨-, -, -, -, -, -, -, -, -, -, -, -, -, -, -, hqueue, -⟩ := hrest
  have hmost := Part.settleMost_settles hstart
  have hstep := Part.settle_serviceStep hstart
  refine ⟨?_, hcounters, hrecords, hwindows, hqueue, fun i => ?_, fun htaken => ?_⟩
  · rw [State.act_ladder]
    rcases hstep.goes with ⟨hstate, -⟩ | ⟨hends, -⟩
    · exact .inl (by rw [hstate, hmost.ladder])
    · cases hs : (f s.part).ladder.state with
      | held => exact .inl hends
      | heldService => exact .inr ⟨rfl, hends⟩
      | _ => rw [hs] at hheld; cases hheld
  · have hact : (s.act f).part.marks i = (f s.part).settle.marks i := by simp [Part.marks, Part.nodeEvents]
    rw [hact, Part.settle_eq_settleMost, Part.settleService_marks, Part.marks, Part.nodeEvents, hmost.nodes]
    rfl
  · rw [State.act_events]
    exact hstep.taken (by rw [hmost.takenRead]; exact htaken)

end

/-! ## ALERT (R153, R15, R90) -/

section
variable {p : Part} {i : NodeIx}

theorem Part.indicate_of_latched (hevents : (p.node i).applied.eventsEnabled = true) (hlatch : (p.nodeEvents i).latch = true)
    (origin : LatchOrigin) : p.indicate i origin = p.count .redundantIndications := by
  rw [Part.indicate, if_pos hevents, if_pos hlatch]

theorem Part.indicate_of_unlatched (hevents : (p.node i).applied.eventsEnabled = true) (hlatch : (p.nodeEvents i).latch = false)
    (origin : LatchOrigin) :
    (p.indicate i origin).events.queue = p.events.queue.filter (· != i) ++ [i] ∧
      (p.indicate i origin).marks i = { p.marks i with latch := true, origin := origin } := by
  let marked := p.modEvents i fun e => { e with latch := true, origin := origin }
  have hmarked : marked.nodeEvents i = { p.nodeEvents i with latch := true, origin := origin } :=
    (p.modEvents_nodeEvents i i _).trans (if_pos rfl)
  have hindicate : p.indicate i origin = marked.setQueue (removeNode i marked.events.queue ++ [i]) := by
    rw [Part.indicate, if_pos hevents, if_neg (by rw [hlatch]; decide)]
    exact if_pos (by rw [hmarked])
  rw [hindicate]
  refine ⟨rfl, ?_⟩
  change { marked.nodeEvents i with fetched := false } = _
  rw [hmarked]
  rfl

theorem Part.indicate_of_disabled (hevents : (p.node i).applied.eventsEnabled = false) (origin : LatchOrigin) :
    p.indicate i origin = p := if_neg (by rw [hevents]; decide)

theorem Part.indicate_counter (origin : LatchOrigin) {c : Counter} (hc : c ≠ .redundantIndications) :
    (p.indicate i origin).counter c = p.counter c := by
  have htail (q : Part) : (q.toTail i).counter c = q.counter c := by
    unfold Part.toTail
    split <;> rfl
  unfold Part.indicate
  split
  · split
    · rw [Part.count_counter, if_neg hc.symm]
    · exact htail _
  · rfl

theorem Part.indicate_takenRead (origin : LatchOrigin) : (p.indicate i origin).events.takenRead = p.events.takenRead := by
  unfold Part.indicate Part.toTail
  (repeat' split) <;> rfl

theorem Part.changeState_takenRead (f : NodeRecord → NodeRecord) (new : NodeState) :
    (p.changeState i f new).events.takenRead = p.events.takenRead := by
  unfold Part.changeState Part.moveNode
  dsimp only
  (repeat' split) <;> simp [Part.eventLeaves, Part.unqueue]

theorem Part.changeState_events_of_outOfService (hout : (p.node i).state.inService = false) (f : NodeRecord → NodeRecord)
    (new : NodeState) : (p.changeState i f new).events = p.events := by
  have hmove (q : Part) (hq : (q.node i).state.inService = false) : (q.moveNode i f new).events = q.events := by
    unfold Part.moveNode
    dsimp only
    rw [hq]
    (repeat' split) <;> simp_all
  unfold Part.changeState
  dsimp only
  rw [hmove]
  · split <;> simp
  · split
    · exact hout
    · rw [Part.applyLoss_node]; exact hout

theorem Part.nodeAlert_of_inService (h : (p.node i).state.inService = true) : p.nodeAlert i = p.indicate i .alert := by
  unfold Part.nodeAlert
  split <;> simp_all [NodeState.inService]

theorem Part.nodeAlert_of_lost (h : (p.node i).state = .lost) : p.nodeAlert i = p.changeState i NodeRecord.toProbing .probing := by
  rw [Part.nodeAlert, h]

theorem Part.nodeAlert_of_outOfService (h : (p.node i).state.inService = false) (hlost : (p.node i).state ≠ .lost) :
    p.nodeAlert i = p := by
  unfold Part.nodeAlert
  split <;> simp_all [NodeState.inService]

/-- What an ALERT of an enabled record leaves: the strays, every counter but one, and the read of the events-taken word. -/
theorem Part.nodeAlert_keeps : (p.nodeAlert i).windows = p.windows ∧ (p.nodeAlert i).events.takenRead = p.events.takenRead ∧
    (p.nodeAlert i).ladder = p.ladder ∧ ∀ c, c ≠ .redundantIndications → (p.nodeAlert i).counter c = p.counter c := by
  refine ⟨by simp, ?_, by simp, fun c hc => ?_⟩
  · unfold Part.nodeAlert
    split
    · exact Part.indicate_takenRead _
    · exact Part.indicate_takenRead _
    · exact Part.changeState_takenRead _ _
    all_goals rfl
  · unfold Part.nodeAlert
    split
    · exact Part.indicate_counter _ hc
    · exact Part.indicate_counter _ hc
    · obtain ⟨-, -, -, -, hfaults, -⟩ := p.changeState_keeps i NodeRecord.toProbing .probing
      rw [Part.counter, hfaults]
      rfl
    all_goals rfl

theorem Part.sighting_keeps (a : Byte) (origin : StrayOrigin) (kind : Byte) :
    (p.sighting a origin kind).windows.strays = sight p.windows.strays a origin kind ∧
      (p.sighting a origin kind).faults = p.faults ∧ (p.sighting a origin kind).events.takenRead = p.events.takenRead ∧
      (p.sighting a origin kind).table = p.table := by
  have hoffer (q : Part) : q.offerNote.windows = q.windows ∧ q.offerNote.faults = q.faults ∧
      q.offerNote.events.takenRead = q.events.takenRead ∧ q.offerNote.table = q.table := by
    unfold Part.offerNote
    (repeat' split) <;> simp [Part.enqueueAppend, Part.startAppend_takenRead, Part.startAppend_table]
  unfold Part.sighting
  dsimp only
  split
  · obtain ⟨hwindows, hfaults, htaken, htable⟩ :=
      hoffer (p.modWindows fun w => { w with strays := sight p.windows.strays a origin kind })
    exact ⟨by rw [hwindows]; rfl, hfaults, htaken, htable⟩
  · exact ⟨rfl, rfl, rfl, rfl⟩

end

/-! ## What is heard (R54, R61) -/

/-- The frame of an ALERT. -/
def alertOf (a : Byte) : Frame := { head := 1#1 ++ 8#4 ++ 0#3, address := a, payload := [] }

theorem framesHeard_alert (a : Byte) : framesHeard (alertItems a ++ [.gap]) = [some (alertOf a)] := by
  let check := crc16 [(1#1 ++ 8#4 ++ 0#3 : Byte), a, 0]
  have hlead : leadingBytes (alertItems a) =
      Config.syncByte :: (1#1 ++ 8#4 ++ 0#3 : Byte) :: a :: 0 :: [check.extractLsb' 8 8, check.extractLsb' 0 8] :=
    leadingBytes_bytes (Config.syncByte :: (1#1 ++ 8#4 ++ 0#3) :: a :: 0 :: [check.extractLsb' 8 8, check.extractLsb' 0 8])
  have hlength : frameLength (alertItems a) = some 6 := by
    rw [frameLength, hlead]
    rfl
  have hreceive : receiveFrame (alertItems a) = some (alertOf a) := by
    rw [receiveFrame_of_leadingBytes hlead]
    exact (if_pos ⟨rfl, by simp, by simp⟩).trans (if_pos ⟨rfl, rfl⟩)
  have hsplit : splitGaps (alertItems a ++ [.gap]) = [alertItems a, []] := rfl
  have hstretch : framesOfStretch 7 (alertItems a) = [some (alertOf a)] := by
    rw [alertItems, framesOfStretch]
    · change (match frameLength (alertItems a) with
        | some length => receiveFrame (alertItems a) :: framesOfStretch 6 ((alertItems a).drop length)
        | none => [none]) = _
      rw [hlength, hreceive]
      rfl
    · exact nofun
  rw [framesHeard, hsplit]
  change framesOfStretch 7 (alertItems a) ++ _ = _
  rw [hstretch]
  rfl

theorem alertOf_isGoodAlert {a : Byte} (hlow : 1 ≤ a.toNat) (hhigh : a.toNat ≤ 250) : (alertOf a).isGoodAlert = true := by
  have haddress : isLineAddress a = true := by
    simp [isLineAddress, Config.maxAddress, hlow, hhigh]
  have hnode : (alertOf a).fromNode = true := by
    change (0xC0#8).msb = true
    decide
  have hkind : (alertOf a).kind = some .alert := by simp [Frame.kind, alertOf]
  have hformed : (alertOf a).wellFormedAs 0 .alert = true := by simp [Frame.wellFormedAs, Frame.flag, alertOf]
  rw [Frame.isGoodAlert, hnode, hkind, hformed, show isLineAddress (alertOf a).address = true from haddress]
  rfl

section
variable {s : State}

theorem FrameEngine.hears_of_unsolicited {f : FrameEngine} (h : f.unsolicited = true) : f.hears = true := by
  unfold FrameEngine.unsolicited at h
  unfold FrameEngine.hears
  cases hs : f.state <;> simp_all

theorem exec_alert_of_unsolicited (h : s.part.frames.unsolicited = true) (a : Byte) :
    exec (.alert a) s = .next (s.act fun p => p.quietPassed.carrier (alertItems a ++ [.gap])) := by
  change execAlert a s = _
  rw [execAlert, State.actIf, if_pos (FrameEngine.hears_of_unsolicited h)]

theorem exec_unsolicitedFrame_of_unsolicited (h : s.part.frames.unsolicited = true) (items : List LineItem) :
    ∃ f : Part → Part, exec (.unsolicitedFrame items) s = .next (s.act f) ∧ f s.part = s.part.unsolicitedItems items := by
  refine ⟨fun p => p.carrier items, ?_, ?_⟩
  · change execUnsolicitedFrame items s = _
    rw [execUnsolicitedFrame, State.actIf, FrameEngine.hears_of_unsolicited h, Bool.true_or, if_pos rfl]
  · exact if_pos h

/-- A good ALERT in the held line is taken, and nothing else comes of it. -/
theorem Part.quietPassed_carrier_alert {p : Part} (h : p.frames.unsolicited = true) {a : Byte} (hlow : 1 ≤ a.toNat)
    (hhigh : a.toNat ≤ 250) (hheld : p.ladder.state.isHeld = true) :
    ∃ f : FrameEngine, p.quietPassed.carrier (alertItems a ++ [.gap]) = { p.quietPassed.takeAlert a with frames := f } := by
  have hheard : framesHeard (p.quietPassed.frames.uncounted (alertItems a ++ [.gap])) = [some (alertOf a)] := framesHeard_alert a
  have htaken : p.quietPassed.unsolicitedFrame (some (alertOf a)) = p.quietPassed.takeAlert a := by
    refine if_pos ?_
    rw [alertOf_isGoodAlert hlow hhigh]
    exact hheld
  refine ⟨(p.quietPassed.takeAlert a).frames.heard (alertItems a ++ [.gap]), ?_⟩
  rw [Part.carrier, if_pos (show p.quietPassed.frames.unsolicited = true from h), Part.unsolicitedItems, hheard,
    List.foldl_cons, List.foldl_nil, htaken]

end

section
variable {p : Part}

/-- An ALERT taken: what it counts and asks for, whatever the record its address names. -/
structure Part.AlertTaken (r p : Part) : Prop where
  ladder : r.ladder = p.ladder
  received : r.counter .alertsReceived = p.counter .alertsReceived + 1
  strays : r.counter .strayFrames = p.counter .strayFrames
  takenRead : r.events.takenRead.isSome = true

theorem Part.takeAlert_alertTaken (a : Byte) : (p.takeAlert a).AlertTaken p := by
  let asked := (p.count .alertsReceived).requestTaken false
  have hfaults : asked.faults = (p.count .alertsReceived).faults := by simp [asked]
  have hread : asked.events.takenRead.isSome = true := Part.requestTaken_isSome _ _
  have hreceived : asked.counter .alertsReceived = p.counter .alertsReceived + 1 := by
    rw [Part.counter, hfaults]
    exact (p.count_counter .alertsReceived .alertsReceived).trans (if_pos rfl)
  have hstrays : asked.counter .strayFrames = p.counter .strayFrames := by
    rw [Part.counter, hfaults]
    exact (p.count_counter .alertsReceived .strayFrames).trans (if_neg (by decide))
  change (match asked.enabledAt a with
    | some i => asked.nodeAlert i
    | none => asked.sighting a .alert 0).AlertTaken p
  split
  next i _ =>
    obtain ⟨-, htaken, hladder, hcounter⟩ := Part.nodeAlert_keeps (p := asked) (i := i)
    exact ⟨by rw [hladder]; simp [asked], by rw [hcounter _ (by decide), hreceived], by rw [hcounter _ (by decide), hstrays],
      by rw [htaken, hread]⟩
  next =>
    obtain ⟨-, hkept, htaken, -⟩ := Part.sighting_keeps (p := asked) a .alert 0
    exact ⟨by simp [asked], by rw [Part.counter, hkept]; exact hreceived, by rw [Part.counter, hkept]; exact hstrays,
      by rw [htaken, hread]⟩

end

section
variable {p : Part}

/-- An ALERT's record, as R15 takes the ALERT by the record's state. -/
theorem Part.takeAlert_of_enabled {a : Byte} {i : NodeIx} (h : p.enabledAt a = some i) :
    p.takeAlert a = ((p.count .alertsReceived).requestTaken false).nodeAlert i := by
  have hasked : ((p.count .alertsReceived).requestTaken false).enabledAt a = some i := by
    rw [← h]
    simp [Part.enabledAt, Part.node]
  rw [Part.takeAlert, hasked]

theorem Part.takeAlert_of_unknown {a : Byte} (h : p.enabledAt a = none) :
    p.takeAlert a = ((p.count .alertsReceived).requestTaken false).sighting a .alert 0 := by
  have hasked : ((p.count .alertsReceived).requestTaken false).enabledAt a = none := by
    rw [← h]
    simp [Part.enabledAt, Part.node]
  rw [Part.takeAlert, hasked]

/-- What R15 makes of an ALERT of record `i`, in `r`, of what stood in `p`. -/
structure Part.RecordAlerted (i : NodeIx) (r p : Part) : Prop where
  strays : r.windows.strays = p.windows.strays
  stays : (p.node i).state ≠ .lost → r.node i = p.node i
  queued : (p.node i).state.inService = true → (p.node i).applied.eventsEnabled = true → (p.nodeEvents i).latch = false →
    r.events.queue = p.events.queue.filter (· != i) ++ [i] ∧ (r.marks i).latch = true ∧ (r.marks i).origin = .alert
  redundant : (p.node i).state.inService = true → (p.node i).applied.eventsEnabled = true → (p.nodeEvents i).latch = true →
    r.events.queue = p.events.queue ∧ r.counter .redundantIndications = p.counter .redundantIndications + 1
  unqueued : (p.node i).state.inService = false ∨ (p.node i).applied.eventsEnabled = false → r.events.queue = p.events.queue
  probes : (p.node i).state = .lost → (r.node i).state = .probing ∧ (r.node i).missCount = 0 ∧ (r.node i).countdown = none ∧
    (r.node i).changeCount = (p.node i).changeCount + 1

theorem Part.nodeAlert_recordAlerted (i : NodeIx) : (p.nodeAlert i).RecordAlerted i p := by
  have hwindows : (p.nodeAlert i).windows.strays = p.windows.strays := by rw [Part.nodeAlert_keeps.1]
  by_cases hservice : (p.node i).state.inService = true
  · have halert := Part.nodeAlert_of_inService hservice
    have hlost : (p.node i).state ≠ .lost := by
      intro h
      rw [h] at hservice
      cases hservice
    refine ⟨hwindows, fun _ => ?_, fun _ hevents hlatch => ?_, fun _ hevents hlatch => ?_, fun h => ?_, fun h => absurd h hlost⟩
    · rw [halert, Part.node, Part.indicate_records]
      rfl
    · obtain ⟨hqueue, hmarks⟩ := Part.indicate_of_unlatched hevents hlatch .alert
      rw [halert, hmarks]
      exact ⟨hqueue, rfl, rfl⟩
    · rw [halert, Part.indicate_of_latched hevents hlatch]
      exact ⟨rfl, (p.count_counter .redundantIndications .redundantIndications).trans (if_pos rfl)⟩
    · rw [halert, Part.indicate_of_disabled (h.resolve_left (by rw [hservice]; decide))]
  · have hout : (p.node i).state.inService = false := by simpa using hservice
    refine ⟨hwindows, fun hlost => ?_, fun h => absurd h hservice, fun h => absurd h hservice, fun _ => ?_, fun hlost => ?_⟩
    · rw [Part.nodeAlert_of_outOfService hout hlost]
    · by_cases hlost : (p.node i).state = .lost
      · rw [Part.nodeAlert_of_lost hlost, Part.changeState_events_of_outOfService hout]
      · rw [Part.nodeAlert_of_outOfService hout hlost]
    · rw [Part.nodeAlert_of_lost hlost, Part.changeState_node, if_pos rfl]
      exact ⟨rfl, rfl, rfl, rfl⟩

theorem Part.RecordAlerted.of_settled {i : NodeIx} {r t : Part} (h : r.RecordAlerted i p) (hq : t.HeldSettled r) :
    t.RecordAlerted i p := by
  have hnode : t.node i = r.node i := by rw [Part.node, hq.records]; rfl
  have hcounter : t.counter .redundantIndications = r.counter .redundantIndications := by rw [Part.counter, hq.counters]; rfl
  obtain ⟨hstrays, hstays, hqueued, hredundant, hunqueued, hprobes⟩ := h
  refine ⟨?_, ?_, ?_, ?_, ?_, ?_⟩
  · rwa [hq.windows]
  · rwa [hnode]
  · rwa [hq.queue, hq.marks]
  · rwa [hq.queue, hcounter]
  · rwa [hq.queue]
  · rwa [hnode]

end

/-- Settles O40: the ALERT is the one frame heard; the node table and the stray set take it by the record its address names. -/
theorem alertInHeldLine : Obligations.AlertInHeldLine := by
  intro s a hstate hunsolicited hlow hhigh
  have hheld : s.part.ladder.state.isHeld = true := by rcases hstate with h | h <;> rw [h] <;> rfl
  obtain ⟨frames, htaken⟩ := Part.quietPassed_carrier_alert hunsolicited hlow hhigh hheld
  obtain ⟨hladder, hreceived, hstrays, hread⟩ := Part.takeAlert_alertTaken (p := s.part.quietPassed) a
  have htakenHeld : (s.part.quietPassed.takeAlert a).ladder.state.isHeld = true := by
    rw [hladder]
    exact hheld
  obtain ⟨t, hexec, hq⟩ : ∃ t, exec (.alert a) s = .next t ∧ t.part.HeldSettled (s.part.quietPassed.takeAlert a) := by
    have h := State.act_heldSettled (f := fun p => p.quietPassed.carrier (alertItems a ++ [.gap]))
      (q := { s.part.quietPassed.takeAlert a with frames := frames }) htaken htakenHeld
    exact ⟨_, exec_alert_of_unsolicited hunsolicited a,
      ⟨h.state, h.counters, h.records, h.windows, h.queue, h.marks, h.takenRead⟩⟩
  have hcounter (c : Counter) : t.part.counter c = (s.part.quietPassed.takeAlert a).counter c := by
    rw [Part.counter, hq.counters]
    rfl
  refine ⟨t, hexec, hq.isHeld htakenHeld, fun h => ?_, ?_, ?_, hq.takenRead hread, fun i hi => ?enabled, fun hnone => ?unknown⟩
  · have hsame : (s.part.quietPassed.takeAlert a).ladder.state = .held := by rw [hladder]; exact h
    rcases hq.state with hkept | ⟨hservice, -⟩
    · exact hkept.trans hsame
    · cases hsame.symm.trans hservice
  · rw [hcounter, hreceived]
    rfl
  · rw [hcounter, hstrays]
    rfl
  case enabled =>
    let asked := (s.part.quietPassed.count .alertsReceived).requestTaken false
    have halert : s.part.quietPassed.takeAlert a = asked.nodeAlert i := Part.takeAlert_of_enabled hi
    have hnode (j : NodeIx) : asked.node j = s.part.node j := by simp [asked, Part.node, Part.quietPassed]
    have hevents (j : NodeIx) : asked.nodeEvents j = s.part.nodeEvents j := by simp [asked, Part.nodeEvents, Part.quietPassed]
    have hqueue : asked.events.queue = s.part.events.queue := by simp [asked, Part.quietPassed]
    have hstrays : asked.windows = s.part.windows := by simp [asked, Part.quietPassed]
    have hredundant : asked.counter .redundantIndications = s.part.counter .redundantIndications := by
      rw [Part.counter, show asked.faults = (s.part.quietPassed.count .alertsReceived).faults by simp [asked]]
      exact (s.part.quietPassed.count_counter .alertsReceived .redundantIndications).trans (if_neg (by decide))
    have h := asked.nodeAlert_recordAlerted i
    rw [← halert] at h
    obtain ⟨htstrays, hstays, hqueued, hred, hunqueued, hprobes⟩ := h.of_settled hq
    rw [hnode] at hstays hqueued hred hunqueued hprobes
    rw [hqueue] at hqueued hred hunqueued
    rw [hevents] at hqueued hred
    rw [hredundant] at hred
    rw [hstrays] at htstrays
    exact ⟨htstrays, hstays, hqueued, hred, hunqueued, hprobes⟩
  case unknown =>
    let asked := (s.part.quietPassed.count .alertsReceived).requestTaken false
    have halert : s.part.quietPassed.takeAlert a = asked.sighting a .alert 0 := Part.takeAlert_of_unknown hnone
    obtain ⟨hsight, -, -, htable⟩ := Part.sighting_keeps (p := asked) a .alert 0
    rw [hq.windows, hq.records]
    change sighted s.part.windows.strays a .alert 0 (s.part.quietPassed.takeAlert a).windows.strays ∧
      (s.part.quietPassed.takeAlert a).table.records = s.part.table.records
    rw [halert, hsight, htable]
    have hwindows : asked.windows = s.part.windows := by simp [asked, Part.quietPassed]
    have hrecords : asked.table.records = s.part.table.records := by simp [asked, Part.quietPassed]
    rw [hwindows, hrecords]
    exact ⟨sight_sighted _ _ _ _, rfl⟩

/-! ## Strays (R61) -/

/-- `n` frames nobody asked for have been counted, where they are, and dropped. -/
structure Part.Strayed (n : Nat) (r p : Part) : Prop where
  eq : r = { p with faults := r.faults }
  counter : r.counter .strayFrames =
    if p.ladder.state.countsStrays then p.counter .strayFrames + BitVec.ofNat 32 n else p.counter .strayFrames

section
variable {p : Part}

theorem Part.strayFrame_eq : p.strayFrame = { p with faults := p.strayFrame.faults } := by
  unfold Part.strayFrame
  split <;> rfl

theorem Part.strayFrame_counter : p.strayFrame.counter .strayFrames =
    if p.ladder.state.countsStrays then p.counter .strayFrames + 1 else p.counter .strayFrames := by
  unfold Part.strayFrame
  split
  · exact (p.count_counter .strayFrames .strayFrames).trans (if_pos rfl)
  · rfl

theorem Part.strayFrame_counter_of_ne {c : Counter} (h : c ≠ .strayFrames) : p.strayFrame.counter c = p.counter c := by
  unfold Part.strayFrame
  split
  · exact (p.count_counter .strayFrames c).trans (if_neg h.symm)
  · rfl

theorem countStep (w : Word) (n : Nat) : w + 1 + BitVec.ofNat 32 n = w + BitVec.ofNat 32 (n + 1) := by
  rw [BitVec.add_assoc, Nat.add_comm n 1, BitVec.ofNat_add]
  rfl

theorem foldl_strayed (l : List (Option Frame))
    (h : ∀ f, some f ∈ l → f.isGoodAlert = true → p.ladder.state.isHeld = false) :
    (l.foldl Part.unsolicitedFrame p).Strayed l.length p := by
  induction l generalizing p with
  | nil => exact ⟨rfl, by simp⟩
  | cons frame l ih =>
    have hstep : p.unsolicitedFrame frame = p.strayFrame := by
      unfold Part.unsolicitedFrame
      split
      next f =>
        refine if_neg fun hgood => ?_
        obtain ⟨hgood, hheld⟩ := (Bool.and_eq_true _ _).mp hgood
        rw [h f (List.mem_cons_self ..) hgood] at hheld
        cases hheld
      next => rfl
    have hladder : p.strayFrame.ladder = p.ladder := by rw [Part.strayFrame_eq]
    obtain ⟨heq, hcounter⟩ := ih (p := p.strayFrame) fun f hf hgood => by
      rw [hladder]
      exact h f (List.mem_cons_of_mem _ hf) hgood
    rw [List.foldl_cons, hstep]
    refine ⟨heq.trans (by rw [Part.strayFrame_eq]), ?_⟩
    rw [hcounter, hladder, Part.strayFrame_counter, List.length_cons, ← countStep]
    split <;> rfl

theorem LadderState.countsStrays_iff (l : LadderState) : l.countsStrays = true ↔ l ∈ [.run, .held, .heldService, .rousing] := by
  cases l <;> decide

/-- What arrives unsolicited with no good ALERT that is taken. -/
theorem Part.unsolicitedItems_strayed {items : List LineItem}
    (h : ∀ f, some f ∈ framesHeard (p.frames.uncounted items) → f.isGoodAlert = true → p.ladder.state.isHeld = false) :
    ∃ r : Part, p.unsolicitedItems items = { r with frames := p.frames.heard items } ∧
      r.Strayed (framesHeard (p.frames.uncounted items)).length p := by
  have hstrayed := foldl_strayed (framesHeard (p.frames.uncounted items)) h
  refine ⟨_, ?_, hstrayed⟩
  have hframes : ((framesHeard (p.frames.uncounted items)).foldl Part.unsolicitedFrame p).frames = p.frames := by rw [hstrayed.eq]
  rw [Part.unsolicitedItems, hframes]

/-- Frames heard in the held line: the ladder controller as it stood, the good ALERTs and the strays each counted. -/
structure Part.HeldHeard (l : List (Option Frame)) (r p : Part) : Prop where
  ladder : r.ladder = p.ladder
  received : r.counter .alertsReceived = p.counter .alertsReceived + BitVec.ofNat 32 (l.countP fun f => f.any Frame.isGoodAlert)
  strays : r.counter .strayFrames = p.counter .strayFrames + BitVec.ofNat 32 (l.countP fun f => !f.any Frame.isGoodAlert)

theorem foldl_heldHeard (l : List (Option Frame)) (h : p.ladder.state.isHeld = true) :
    (l.foldl Part.unsolicitedFrame p).HeldHeard l p := by
  induction l generalizing p with
  | nil => exact ⟨rfl, by simp, by simp⟩
  | cons frame l ih =>
    rw [List.foldl_cons]
    by_cases hgood : frame.any Frame.isGoodAlert = true
    · obtain ⟨f, rfl, hf⟩ := (Option.any_eq_true _ _).1 hgood
      have hstep : p.unsolicitedFrame (some f) = p.takeAlert f.address := if_pos (by rw [hf, h]; rfl)
      obtain ⟨hladder, hreceived, hstrays, -⟩ := Part.takeAlert_alertTaken (p := p) f.address
      obtain ⟨hl, hr, hs⟩ := ih (p := p.takeAlert f.address) (by rw [hladder, h])
      rw [hstep]
      refine ⟨hl.trans hladder, ?_, ?_⟩
      · rw [hr, hreceived, List.countP_cons_of_pos hgood, countStep]
      · rw [hs, hstrays, List.countP_cons_of_neg (by rw [hgood]; decide)]
    · have hstep : p.unsolicitedFrame frame = p.strayFrame := by
        unfold Part.unsolicitedFrame
        split
        next f => exact if_neg fun h => hgood ((Bool.and_eq_true _ _).mp h).1
        next => rfl
      have hcounts : p.ladder.state.countsStrays = true := by
        cases hs : p.ladder.state <;> rw [hs] at h <;> first | rfl | cases h
      have hladder : p.strayFrame.ladder = p.ladder := by rw [Part.strayFrame_eq]
      obtain ⟨hl, hr, hs⟩ := ih (p := p.strayFrame) (by rw [hladder, h])
      rw [hstep]
      refine ⟨hl.trans hladder, ?_, ?_⟩
      · rw [hr, Part.strayFrame_counter_of_ne (by decide), List.countP_cons_of_neg hgood]
      · rw [hs, Part.strayFrame_counter, if_pos hcounts, List.countP_cons_of_pos (by simpa using hgood), countStep]

end

/-- Settles O41: each frame heard and not taken is a stray; a good ALERT in the held line is taken. -/
theorem strayFrameCounted : Obligations.StrayFrameCounted := by
  unfold Obligations.StrayFrameCounted
  intro fresh heard
  refine ⟨fun s items hunsolicited hnone => ?_, fun s items hunsolicited hstate => ?_, fun s items hrun hsending hoff hlate => ?_⟩
  · obtain ⟨f, hexec, hf⟩ := exec_unsolicitedFrame_of_unsolicited hunsolicited items
    obtain ⟨r, hitems, heq, hcounter⟩ := Part.unsolicitedItems_strayed (p := s.part) (items := items) fun frame hframe hgood => by
      obtain ⟨hheld, hservice⟩ := hnone frame hframe hgood
      cases hs : s.part.ladder.state <;> first | rfl | contradiction
    have hpart := hf.trans hitems
    obtain ⟨hrecords, -, hwindows, -, -, -, -, -, -, hcounters, hrest⟩ := s.act_keeps f
    obtain ⟨-, -, -, -, -, -, -, -, -, -, -, -, -, -, -, hqueue, -⟩ := hrest
    rw [hpart] at hrecords hwindows hcounters hqueue
    refine ⟨_, hexec, ?_, ?_, ?_, ?_, by simp, fun hservice hstart => ?_⟩
    · rw [Part.counter, hcounters]
      refine Eq.trans hcounter ?_
      simp only [LadderState.countsStrays_iff]
      rfl
    · rw [hrecords, heq]
    · rw [hwindows, heq]
    · rw [hqueue, heq]
    · have hladder : r.ladder = s.part.ladder := by rw [heq]
      have hq := State.act_settled hpart (by change r.ladder.state ≠ _; rwa [hladder]) (by change r.ladder.state ≠ _; rwa [hladder])
      exact ⟨by rw [hq.ladder, ← hladder], hq.frames⟩
  · obtain ⟨f, hexec, hf⟩ := exec_unsolicitedFrame_of_unsolicited hunsolicited items
    have hheld : s.part.ladder.state.isHeld = true := by rcases hstate with h | h <;> rw [h] <;> rfl
    obtain ⟨-, hreceived, hstrays⟩ := foldl_heldHeard (framesHeard (s.part.frames.uncounted items)) hheld
    obtain ⟨-, -, -, -, -, -, -, -, -, hcounters, -⟩ := s.act_keeps f
    rw [hf] at hcounters
    refine ⟨_, hexec, ?_, ?_⟩
    · rw [Part.counter, hcounters]
      exact hreceived
    · rw [Part.counter, hcounters]
      exact hstrays
  · obtain ⟨r, hitems, heq, hcounter⟩ :=
      Part.unsolicitedItems_strayed (p := s.part) (items := items.takeWhile (· != .gap)) fun _ _ _ => by rw [hrun]; rfl
    have hexec : exec (.unsolicitedFrame items) s = .next (s.act fun p => p.carrier items) := by
      change execUnsolicitedFrame items s = _
      rw [execUnsolicitedFrame, State.actIf, if_pos]
      simp [FrameEngine.hearsOn, hsending, hoff, hlate]
    have hcarrier : s.part.carrier items = { r with frames := heard s (items.takeWhile (· != .gap)) } := by
      have hnot : ¬ s.part.frames.unsolicited = true := by simp [FrameEngine.unsolicited, hsending]
      rw [Part.carrier, if_neg hnot, hsending]
      exact hitems
    have hladder : r.ladder = s.part.ladder := by rw [heq]
    have hstate : r.ladder.state = .run := by rw [hladder, hrun]
    have hq := State.act_settled (f := fun p => p.carrier items) hcarrier (by change r.ladder.state ≠ _; rw [hstate]; decide)
      (by change r.ladder.state ≠ _; rw [hstate]; decide)
    refine ⟨_, hexec, ?_, hq.frames⟩
    rw [hq.counter]
    refine Eq.trans hcounter (if_pos ?_)
    rw [hrun]
    rfl

end Sys2Proof.Machine
end

section
/-! SUPPORT. An accepted commit (R6, R7, R19, R20, R108, R126, R142): what becomes of each record, its event state, the writes of the
status records, the input shadow and the parcels. -/

namespace Sys2Proof.Machine

/-! ## One step of a fold over all records -/

/-- In a fold over distinct records the step at `i` establishes what the other steps keep. -/
theorem foldl_at {f : Part → NodeIx → Part} {i : NodeIx} {Q R : Part → Prop} (hQ : ∀ q j, j ≠ i → Q q → Q (f q j))
    (hstep : ∀ q, Q q → R (f q i)) (hR : ∀ q j, j ≠ i → R q → R (f q j)) :
    ∀ (l : List NodeIx) (p : Part), l.Nodup → i ∈ l → Q p → R (l.foldl f p) := by
  have keeps : ∀ (l : List NodeIx) (p : Part), i ∉ l → R p → R (l.foldl f p) := by
    intro l
    induction l with
    | nil => exact fun p _ h => h
    | cons j l ih =>
      intro p hi h
      rw [List.mem_cons, not_or] at hi
      exact ih _ hi.2 (hR p j (Ne.symm hi.1) h)
  intro l
  induction l with
  | nil => intro p _ hi; cases hi
  | cons j l ih =>
    intro p hnodup hi h
    obtain ⟨hj, hl⟩ := List.nodup_cons.1 hnodup
    by_cases hji : j = i
    · subst hji
      exact keeps l _ hj (hstep p h)
    · exact ih _ hl ((List.mem_cons.1 hi).resolve_left (Ne.symm hji)) (hQ p j hji h)

theorem foldl_allNodes_at {f : Part → NodeIx → Part} {i : NodeIx} {Q R : Part → Prop} (hQ : ∀ q j, j ≠ i → Q q → Q (f q j))
    (hstep : ∀ q, Q q → R (f q i)) (hR : ∀ q j, j ≠ i → R q → R (f q j)) {p : Part} (h : Q p) : R (allNodes.foldl f p) :=
  foldl_at hQ hstep hR allNodes p (List.nodup_finRange 48) (List.mem_finRange i) h

/-! ## Records -/

/-- A record under an accepted commit (Table 1-4, R7). -/
def NodeRecord.committed (r : NodeRecord) (new : NodeEntry) : NodeRecord :=
  if !new.enabled then
    if r.state = .excluded then { r with applied := new, missCount := 0, countdown := none }
    else r.moved (fun r => { r with applied := new, missCount := 0, countdown := none }) .excluded
  else if recreates r.applied new then
    if r.state = .probing then { r with applied := new }.toProbing
    else r.moved (fun r => { r with applied := new }.toProbing) .probing
  else if r.limitReached new then
    r.moved (fun r => { r with applied := new, missCount := new.missLimit, countdown := loadedCountdown new.reprobeDelay }) .lost
  else if r.state = .lost then
    { r with applied := new, missCount := new.missLimit, countdown := keptCountdown r.countdown new.reprobeDelay }
  else { r with applied := new }

section
variable (p : Part)

theorem Part.commitNode_same (i : NodeIx) (new : NodeEntry) : (p.commitNode i new).node i = (p.node i).committed new := by
  unfold Part.commitNode NodeRecord.committed
  dsimp only
  (repeat' split) <;>
    simp_all [Part.moveNode_node, Part.queueStatus_node, Part.eventCleared_node, Part.eventLeaves_node, Part.modNode_node]

theorem Part.lossBefore_node (j i : NodeIx) (new : NodeEntry) (size : Nat) : (p.lossBefore j new size).node i = p.node i := by
  unfold Part.lossBefore
  dsimp only
  split
  · exact p.applyLoss_node _ _ _
  · rfl

theorem Part.lossAfter_node (j i : NodeIx) (new : NodeEntry) (size : Nat) : (p.lossAfter j new size).node i = p.node i := by
  unfold Part.lossAfter
  dsimp only
  split
  · exact p.applyLoss_node _ _ _
  · rfl

/-- The two passes of R19. -/
def Part.losses (p : Part) (new : Vector NodeEntry 48) (size : Nat) : Part :=
  allNodes.foldl (fun p i => p.lossAfter i (new.get i) size) (allNodes.foldl (fun p i => p.lossBefore i (new.get i) size) p)

theorem Part.nodeCommit_eq_losses (new : Vector NodeEntry 48) (size : Nat) :
    p.nodeCommit new size = allNodes.foldl (fun p i => p.commitNode i (new.get i)) (p.losses new size) := rfl

theorem foldl_keepsNode {f : Part → NodeIx → Part} (h : ∀ q j i, (f q j).node i = q.node i) (l : List NodeIx) (i : NodeIx) :
    (l.foldl f p).node i = p.node i :=
  foldl_relates (fun q p => q.node i = p.node i) rfl (fun h k => h.trans k) f (fun q j => h q j i) l p

theorem Part.losses_node (new : Vector NodeEntry 48) (size : Nat) (i : NodeIx) : (p.losses new size).node i = p.node i :=
  (foldl_keepsNode _ (fun q j i => q.lossAfter_node j i _ _) allNodes i).trans
    (foldl_keepsNode _ (fun q j i => q.lossBefore_node j i _ _) allNodes i)

theorem Part.nodeCommit_node (new : Vector NodeEntry 48) (size : Nat) (i : NodeIx) :
    (p.nodeCommit new size).node i = (p.node i).committed (new.get i) := by
  have hother (r : NodeRecord) (q : Part) (j : NodeIx) (hj : j ≠ i) (h : q.node i = r) : (q.commitNode j (new.get j)).node i = r :=
    (q.commitNode_other j i _ hj).trans h
  have hsame (q : Part) (h : q.node i = p.node i) : (q.commitNode i (new.get i)).node i = (p.node i).committed (new.get i) := by
    rw [q.commitNode_same, h]
  exact foldl_allNodes_at (f := fun q j => q.commitNode j (new.get j)) (Q := fun q => q.node i = p.node i)
    (R := fun q => q.node i = (p.node i).committed (new.get i)) (hother _) hsame (hother _) (p.losses_node new size i)

/-! ## Event states -/

theorem Part.eventLeaves_nodeEvents (i j : NodeIx) :
    (p.eventLeaves i).nodeEvents j = if i = j then { p.nodeEvents i with latch := false } else p.nodeEvents j :=
  p.modEvents_nodeEvents i j _

theorem Part.eventCleared_nodeEvents (i j : NodeIx) :
    (p.eventCleared i).nodeEvents j =
      if i = j then { p.nodeEvents i with latch := false, accepted := 0, valid := false, ackOwed := false } else p.nodeEvents j := by
  have hmod : (p.eventCleared i).nodeEvents j =
      ((p.eventLeaves i).modEvents i fun e => { e with accepted := 0, valid := false, ackOwed := false }).nodeEvents j := rfl
  rw [hmod, Part.modEvents_nodeEvents, Part.eventLeaves_nodeEvents, Part.eventLeaves_nodeEvents, if_pos rfl]
  split <;> rfl

theorem Part.eventLeaves_queue (i : NodeIx) : (p.eventLeaves i).events.queue = removeNode i p.events.queue := rfl

theorem Part.eventCleared_queue (i : NodeIx) : (p.eventCleared i).events.queue = removeNode i p.events.queue := rfl

theorem Part.moveNode_events (i : NodeIx) (f : NodeRecord → NodeRecord) (new : NodeState) :
    (p.moveNode i f new).events = if (p.node i).state.inService && !new.inService then (p.eventLeaves i).events else p.events := by
  unfold Part.moveNode
  dsimp only
  (repeat' split) <;> simp_all [Part.eventLeaves, Part.unqueue]

/-- What a record's own events are after another record's commit. -/
structure Part.KeepsEventsOf (j : NodeIx) (q p : Part) : Prop where
  events : q.nodeEvents j = p.nodeEvents j
  queue : j ∉ p.events.queue → j ∉ q.events.queue

theorem not_mem_removeNode {i j : NodeIx} {l : List NodeIx} (h : j ∉ l) : j ∉ removeNode i l :=
  fun hj => h (List.mem_of_mem_filter hj)

variable {p}

theorem Part.KeepsEventsOf.of_events {q : Part} {j : NodeIx} (h : q.events = p.events) : q.KeepsEventsOf j p :=
  ⟨by rw [Part.nodeEvents, h]; rfl, by rw [h]; exact id⟩

theorem Part.KeepsEventsOf.trans {q r : Part} {j : NodeIx} (h : r.KeepsEventsOf j q) (k : q.KeepsEventsOf j p) :
    r.KeepsEventsOf j p := ⟨h.events.trans k.events, fun hj => h.queue (k.queue hj)⟩

variable (p)

theorem Part.eventLeaves_keepsEventsOf {i j : NodeIx} (h : i ≠ j) : (p.eventLeaves i).KeepsEventsOf j p :=
  ⟨(p.eventLeaves_nodeEvents i j).trans (if_neg h), not_mem_removeNode⟩

theorem Part.eventCleared_keepsEventsOf {i j : NodeIx} (h : i ≠ j) : (p.eventCleared i).KeepsEventsOf j p :=
  ⟨(p.eventCleared_nodeEvents i j).trans (if_neg h), not_mem_removeNode⟩

theorem Part.moveNode_keepsEventsOf {i j : NodeIx} (h : i ≠ j) (f : NodeRecord → NodeRecord) (new : NodeState) :
    (p.moveNode i f new).KeepsEventsOf j p := by
  have hevents := p.moveNode_events i f new
  split at hevents
  · exact (Part.KeepsEventsOf.of_events hevents).trans (p.eventLeaves_keepsEventsOf h)
  · exact .of_events hevents

theorem Part.queueStatus_events (i : NodeIx) (cause : Bool) : (p.queueStatus i cause).events = p.events := by simp

theorem Part.commitNode_keepsEventsOf {i j : NodeIx} (h : i ≠ j) (new : NodeEntry) : (p.commitNode i new).KeepsEventsOf j p := by
  have rewritten (q : Part) (due : Bool) (hq : q.KeepsEventsOf j p) :
      (if due && q.ladder.state != .starting then q.queueStatus i false else q).KeepsEventsOf j p := by
    split
    · exact (Part.KeepsEventsOf.of_events (q.queueStatus_events i false)).trans hq
    · exact hq
  have loaded (q : Part) (f : NodeRecord → NodeRecord) (hq : q.KeepsEventsOf j p) : (q.modNode i f).KeepsEventsOf j p :=
    Part.KeepsEventsOf.trans (.of_events (p := q) rfl) hq
  have hcleared := p.eventCleared_keepsEventsOf h
  have hrefl : p.KeepsEventsOf j p := .of_events rfl
  unfold Part.commitNode
  dsimp only
  split
  · split
    · exact rewritten _ _ (loaded _ _ hrefl)
    · exact p.moveNode_keepsEventsOf h _ _
  split
  · split
    · exact rewritten _ _ (loaded _ _ hcleared)
    · exact (Part.moveNode_keepsEventsOf _ h _ _).trans hcleared
  have left : Part.KeepsEventsOf j (if (p.node i).applied.eventsEnabled && !new.eventsEnabled then p.eventLeaves i else p) p := by
    split
    · exact p.eventLeaves_keepsEventsOf h
    · exact hrefl
  split
  · exact (Part.moveNode_keepsEventsOf _ h _ _).trans left
  split
  · exact rewritten _ _ (loaded _ _ left)
  · exact rewritten _ _ (loaded _ _ left)

/-- A node whose event state a commit has cleared (R6, R108). -/
structure Part.EventsCleared (i : NodeIx) (p : Part) : Prop where
  latch : (p.nodeEvents i).latch = false
  ackOwed : (p.nodeEvents i).ackOwed = false
  valid : (p.nodeEvents i).valid = false
  queue : i ∉ p.events.queue

variable {p}

theorem Part.EventsCleared.keeps {q : Part} {i : NodeIx} (h : p.EventsCleared i) (hq : q.KeepsEventsOf i p) : q.EventsCleared i := by
  obtain ⟨hlatch, howed, hvalid, hqueue⟩ := h
  refine ⟨?_, ?_, ?_, hq.queue hqueue⟩ <;> rwa [hq.events]

theorem Part.eventCleared_eventsCleared (i : NodeIx) : (p.eventCleared i).EventsCleared i := by
  have hevents := (p.eventCleared_nodeEvents i i).trans (if_pos rfl)
  refine ⟨by rw [hevents], by rw [hevents], by rw [hevents], ?_⟩
  rw [Part.eventCleared_queue]
  simp [removeNode]

theorem Part.EventsCleared.eventLeaves {i : NodeIx} (h : p.EventsCleared i) : (p.eventLeaves i).EventsCleared i := by
  have hevents := (p.eventLeaves_nodeEvents i i).trans (if_pos rfl)
  refine ⟨by rw [hevents], by rw [hevents]; exact h.ackOwed, by rw [hevents]; exact h.valid, ?_⟩
  rw [Part.eventLeaves_queue]
  exact not_mem_removeNode h.queue

theorem Part.commitNode_eventsCleared {i : NodeIx} {new : NodeEntry} (hnew : new.enabled = true)
    (hcreated : recreates (p.node i).applied new = true) : (p.commitNode i new).EventsCleared i := by
  have hcleared := p.eventCleared_eventsCleared i
  have of_events {q r : Part} (hr : r.EventsCleared i) (h : q.events = r.events) : q.EventsCleared i :=
    hr.keeps (.of_events h)
  unfold Part.commitNode
  dsimp only
  rw [if_neg (by rw [hnew]; decide), if_pos hcreated]
  split
  · split
    · exact of_events hcleared (Part.queueStatus_events _ _ _)
    · exact of_events hcleared rfl
  · have hevents := (p.eventCleared i).moveNode_events i (fun r => { r with applied := new }.toProbing) .probing
    split at hevents
    · exact of_events hcleared.eventLeaves hevents
    · exact of_events hcleared hevents

theorem Part.nodeCommit_eventsCleared {new : Vector NodeEntry 48} (size : Nat) {i : NodeIx} (hnew : (new.get i).enabled = true)
    (hcreated : recreates (p.node i).applied (new.get i) = true) : (p.nodeCommit new size).EventsCleared i := by
  exact foldl_allNodes_at (f := fun q j => q.commitNode j (new.get j)) (Q := fun q => q.node i = p.node i)
    (R := fun q => q.EventsCleared i) (fun q j hj h => (q.commitNode_other j i _ hj).trans h)
    (fun q h => Part.commitNode_eventsCleared hnew (by rw [h]; exact hcreated))
    (fun q j hj h => h.keeps (q.commitNode_keepsEventsOf hj _)) (p.losses_node new size i)

/-! ## Writes of status records -/

variable (p)

@[simp] theorem Part.eventLeaves_table (i : NodeIx) : (p.eventLeaves i).table = p.table := rfl
@[simp] theorem Part.eventCleared_table (i : NodeIx) : (p.eventCleared i).table = p.table := rfl

theorem Part.moveNode_writes (i : NodeIx) (f : NodeRecord → NodeRecord) (new : NodeState) :
    (p.moveNode i f new).table.writes =
      p.table.writes ++ if p.ladder.state = .starting then [] else [{ node := i, cause := true }] := by
  unfold Part.moveNode
  dsimp only
  (repeat' split) <;> simp_all

theorem Part.commitNode_writes_prefix (i : NodeIx) (new : NodeEntry) : p.table.writes <+: (p.commitNode i new).table.writes := by
  have hsteps : Part.CommitSteps fun q p => p.table.writes <+: q.table.writes :=
    { refl := List.prefix_refl _
      trans := fun h k => k.trans h
      record := fun _ _ _ => List.prefix_refl _
      status := fun q i => by rw [q.queueStatus_writes]; exact List.prefix_append _ _
      leaves := fun _ _ => List.prefix_refl _
      cleared := fun _ _ => List.prefix_refl _
      moves := fun q i f new => by rw [q.moveNode_writes]; exact List.prefix_append _ _
      loss := fun q e size => by
        rw [show (q.applyLoss e size).table = q.table by simp] }
  exact hsteps.commitNode p i new

/-- How a record's commit ends: its status record written again where it is due, or its state changed. -/
theorem Part.commitNode_ends (i : NodeIx) (new : NodeEntry) : ∃ q : Part, q.ladder = p.ladder ∧
    ((∃ due : Bool, p.commitNode i new = (if due && q.ladder.state != .starting then q.queueStatus i false else q) ∧
        ((p.node i).committed new).state = (p.node i).state ∧ (new ≠ (p.node i).applied → due = true)) ∨
      ∃ f state, p.commitNode i new = q.moveNode i f state ∧ ((p.node i).committed new).state ≠ (p.node i).state) := by
  have hdue (h : new ≠ (p.node i).applied) : ((p.node i).applied != new) = true := by simpa using h.symm
  have hmoved (r : NodeRecord) (f : NodeRecord → NodeRecord) (state : NodeState) : (r.moved f state).state = state := by
    unfold NodeRecord.moved NodeRecord.leaveService
    dsimp only
    split <;> rfl
  unfold Part.commitNode NodeRecord.committed
  dsimp only
  split
  · split
    next hs => exact ⟨p.modNode i _, rfl, .inl ⟨_, rfl, rfl, hdue⟩⟩
    next hs => exact ⟨_, rfl, .inr ⟨_, _, rfl, by rw [hmoved]; exact Ne.symm hs⟩⟩
  split
  · split
    next hs => exact ⟨_, by simp, .inl ⟨_, rfl, rfl, fun _ => rfl⟩⟩
    next hs => exact ⟨p.eventCleared i, by simp, .inr ⟨_, _, rfl, by rw [hmoved]; exact Ne.symm hs⟩⟩
  have hleft : Part.ladder (if (p.node i).applied.eventsEnabled && !new.eventsEnabled then p.eventLeaves i else p) = p.ladder := by
    split <;> simp
  split
  next hlimit =>
    refine ⟨_, hleft, .inr ⟨_, _, rfl, ?_⟩⟩
    rw [hmoved]
    intro hlost
    rw [NodeRecord.limitReached, ← hlost] at hlimit
    cases hlimit
  next =>
    split
    · exact ⟨Part.modNode _ i _, hleft, .inl ⟨_, rfl, rfl, hdue⟩⟩
    · exact ⟨Part.modNode _ i _, hleft, .inl ⟨_, rfl, rfl, hdue⟩⟩

/-- The write a record's commit asks for outside STARTING: step 5 of a state change, or its status record again. -/
theorem Part.commitNode_writes (hstart : p.ladder.state ≠ .starting) (i : NodeIx) (new : NodeEntry) :
    (((p.node i).committed new).state ≠ (p.node i).state →
      { node := i, cause := true } ∈ (p.commitNode i new).table.writes) ∧
    (((p.node i).committed new).state = (p.node i).state → new ≠ (p.node i).applied →
      { node := i, cause := false } ∈ (p.commitNode i new).table.writes) := by
  obtain ⟨q, hladder, ⟨due, hcommit, hstate, hdue⟩ | ⟨f, state, hcommit, hstate⟩⟩ := p.commitNode_ends i new
  · refine ⟨fun h => absurd hstate h, fun _ hnew => ?_⟩
    rw [hcommit, hdue hnew, hladder, if_pos (by simpa using hstart), Part.queueStatus_writes]
    exact List.mem_append_right _ (List.mem_singleton_self _)
  · refine ⟨fun _ => ?_, fun h => absurd h hstate⟩
    rw [hcommit, Part.moveNode_writes, if_neg (by rwa [hladder])]
    exact List.mem_append_right _ (List.mem_singleton_self _)

theorem Part.nodeCommit_writes (hstart : p.ladder.state ≠ .starting) (new : Vector NodeEntry 48) (size : Nat) (i : NodeIx) :
    (((p.node i).committed (new.get i)).state ≠ (p.node i).state →
      { node := i, cause := true } ∈ (p.nodeCommit new size).table.writes) ∧
    (((p.node i).committed (new.get i)).state = (p.node i).state → new.get i ≠ (p.node i).applied →
      { node := i, cause := false } ∈ (p.nodeCommit new size).table.writes) := by
  have written (w : StatusWrite)
      (h : ∀ q : Part, q.ladder = p.ladder ∧ q.node i = p.node i → w ∈ (q.commitNode i (new.get i)).table.writes) :
      w ∈ (p.nodeCommit new size).table.writes := by
    refine foldl_allNodes_at (f := fun q j => q.commitNode j (new.get j))
      (Q := fun q => q.ladder = p.ladder ∧ q.node i = p.node i) (R := fun q => w ∈ q.table.writes)
      (fun q j hj h => ⟨by simpa using h.1, (q.commitNode_other j i _ hj).trans h.2⟩) h
      (fun q j _ h => (q.commitNode_writes_prefix j _).subset h) ⟨?_, p.losses_node new size i⟩
    exact (foldl_keeps (fun q : Part => q.ladder) (fun p j => p.lossAfter j (new.get j) size) (by simp) _ _).trans
      (foldl_keeps (fun q : Part => q.ladder) (fun p j => p.lossBefore j (new.get j) size) (by simp) _ _)
  refine ⟨fun hchange => written _ fun q hq => ?_, fun hsame hnew => written _ fun q hq => ?_⟩
  · exact (q.commitNode_writes (by rwa [hq.1]) i (new.get i)).1 (by rwa [hq.2])
  · exact (q.commitNode_writes (by rwa [hq.1]) i (new.get i)).2 (by rwa [hq.2]) (by rwa [hq.2])

end

/-! ## The input shadow (R18, R19, R72) -/

theorem Memory.readByte_clear (m : Memory) (lo hi k : Nat) :
    (Memory.clear m lo hi).readByte k = if lo ≤ k ∧ k < hi then 0 else m.readByte k := by
  induction m with
  | nil => exact (ite_self _).symm
  | cons c m ih =>
    obtain ⟨a, b⟩ := c
    by_cases hkept : (decide (a < lo) || decide (hi ≤ a)) = true
    · have hclear : Memory.clear ((a, b) :: m) lo hi = (a, b) :: Memory.clear m lo hi := List.filter_cons_of_pos hkept
      rw [hclear, Memory.readByte, Memory.readByte, ih]
      by_cases hk : a = k
      · subst hk
        rw [if_pos rfl, if_pos rfl, if_neg]
        simp only [Bool.or_eq_true, decide_eq_true_eq] at hkept
        omega
      · rw [if_neg hk, if_neg hk]
    · have hclear : Memory.clear ((a, b) :: m) lo hi = Memory.clear m lo hi := List.filter_cons_of_neg hkept
      rw [hclear, ih, Memory.readByte]
      split
      · rfl
      next hout =>
        rw [if_neg]
        rintro rfl
        simp only [Bool.or_eq_true, decide_eq_true_eq] at hkept
        omega

/-- Byte `k` lies in an entry's input slice of policy CLEAR, within an image of `size` bytes. -/
def NodeEntry.clears (e : NodeEntry) (size k : Nat) : Prop :=
  e.loss = .clear ∧ e.inOffset ≤ k ∧ k < e.inOffset + e.inLength ∧ k < size

/-- Byte `k` of the shadow is zero where `C` holds, and as it was elsewhere. -/
def Part.Zeroed (k : Nat) (C : Prop) (q p : Part) : Prop :=
  (C → q.images.shadow.readByte k = 0) ∧ (¬ C → q.images.shadow.readByte k = p.images.shadow.readByte k)

section
variable {p : Part} {k : Nat}

theorem Part.Zeroed.refl {C : Prop} (h : ¬ C) {q : Part} (hq : q.images = p.images) : q.Zeroed k C p :=
  ⟨fun hC => absurd hC h, fun _ => by rw [hq]⟩

theorem Part.Zeroed.trans {C D : Prop} {q r : Part} (h : r.Zeroed k D q) (j : q.Zeroed k C p) : r.Zeroed k (C ∨ D) p := by
  by_cases hD : D
  · exact ⟨fun _ => h.1 hD, fun hn => absurd (.inr hD) hn⟩
  · refine ⟨fun hC => (h.2 hD).trans (j.1 (hC.resolve_right hD)), fun hn => (h.2 hD).trans (j.2 fun hC => hn (.inl hC))⟩

theorem Part.Zeroed.congr {C D : Prop} {q : Part} (h : q.Zeroed k C p) (hiff : D ↔ C) : q.Zeroed k D p :=
  ⟨fun hD => h.1 (hiff.1 hD), fun hn => h.2 fun hC => hn (hiff.2 hC)⟩

theorem Part.Zeroed.of_images {C : Prop} {q r : Part} (h : q.Zeroed k C p) (hr : r.images = q.images) : r.Zeroed k C p :=
  ⟨fun hC => by rw [hr, h.1 hC], fun hn => by rw [hr, h.2 hn]⟩

theorem Part.clearShadow_zeroed (lo hi : Nat) : (p.clearShadow lo hi).Zeroed k (lo ≤ k ∧ k < hi) p :=
  ⟨fun h => (Memory.readByte_clear _ _ _ _).trans (if_pos h), fun h => (Memory.readByte_clear _ _ _ _).trans (if_neg h)⟩

theorem Part.applyLoss_zeroed (e : NodeEntry) (size : Nat) : (p.applyLoss e size).Zeroed k (e.clears size k) p := by
  unfold Part.applyLoss
  split
  next hclear =>
    refine Part.clearShadow_zeroed _ _ |>.congr ?_
    unfold NodeEntry.clears
    rw [hclear, Nat.lt_min]
    exact ⟨fun ⟨_, hlo, hhi, hsize⟩ => ⟨hlo, hhi, hsize⟩, fun ⟨hlo, hhi, hsize⟩ => ⟨rfl, hlo, hhi, hsize⟩⟩
  next hkeep =>
    refine .refl ?_ rfl
    rw [NodeEntry.clears, hkeep]
    exact fun h => nomatch h.1

theorem foldl_zeroed {f : Part → NodeIx → Part} {C : NodeIx → Prop} (hnode : ∀ q j i, (f q j).node i = q.node i)
    (h : ∀ q j, (∀ i, q.node i = p.node i) → (f q j).Zeroed k (C j) q) (l : List NodeIx) :
    ∀ q : Part, (∀ i, q.node i = p.node i) → (l.foldl f q).Zeroed k (∃ i ∈ l, C i) q := by
  induction l with
  | nil => exact fun q _ => .refl (by simp) rfl
  | cons j l ih =>
    intro q hq
    refine ((ih (f q j) fun i => (hnode q j i).trans (hq i)).trans (h q j hq)).congr ?_
    simp

/-- Whether a commit applies the old entry's loss policy to the old slice of a record (R19). -/
def NodeRecord.losesBefore (r : NodeRecord) (new : NodeEntry) : Bool :=
  r.applied.enabled && (!new.enabled || recreates r.applied new)

/-- Whether a commit applies the new entry's loss policy to the new slice of a record (R19). -/
def NodeRecord.losesAfter (r : NodeRecord) (new : NodeEntry) : Bool :=
  recreates r.applied new || (new.enabled && r.applied.enabled && r.limitReached new)

theorem Part.lossBefore_zeroed (i : NodeIx) (new : NodeEntry) (size : Nat) :
    (p.lossBefore i new size).Zeroed k ((p.node i).losesBefore new = true ∧ (p.node i).applied.clears size k) p := by
  unfold Part.lossBefore NodeRecord.losesBefore
  dsimp only
  split
  next h => exact (Part.applyLoss_zeroed _ size).congr ⟨fun hC => hC.2, fun hC => ⟨h, hC⟩⟩
  next h => exact .refl (fun hC => h hC.1) rfl

theorem Part.lossAfter_zeroed (i : NodeIx) (new : NodeEntry) (size : Nat) :
    (p.lossAfter i new size).Zeroed k ((p.node i).losesAfter new = true ∧ new.clears size k) p := by
  unfold Part.lossAfter NodeRecord.losesAfter
  dsimp only
  split
  next h => exact (Part.applyLoss_zeroed _ size).congr ⟨fun hC => hC.2, fun hC => ⟨h, hC⟩⟩
  next h => exact .refl (fun hC => h hC.1) rfl

theorem Part.losses_zeroed (new : Vector NodeEntry 48) (size : Nat) :
    (p.losses new size).Zeroed k
      ((∃ i, (p.node i).losesBefore (new.get i) = true ∧ (p.node i).applied.clears size k) ∨
        ∃ i, (p.node i).losesAfter (new.get i) = true ∧ (new.get i).clears size k) p := by
  have hbefore := foldl_zeroed (p := p) (k := k) (f := fun q j => q.lossBefore j (new.get j) size)
    (C := fun i => (p.node i).losesBefore (new.get i) = true ∧ (p.node i).applied.clears size k)
    (fun q j i => q.lossBefore_node j i _ _)
    (fun q j hq => (Part.lossBefore_zeroed j (new.get j) size).congr (by rw [hq])) allNodes p fun _ => rfl
  have hafter := foldl_zeroed (p := p) (k := k) (f := fun q j => q.lossAfter j (new.get j) size)
    (C := fun i => (p.node i).losesAfter (new.get i) = true ∧ (new.get i).clears size k) (fun q j i => q.lossAfter_node j i _ _)
    (fun q j hq => (Part.lossAfter_zeroed j (new.get j) size).congr (by rw [hq])) allNodes
    (allNodes.foldl (fun q j => q.lossBefore j (new.get j) size) p)
    fun i => foldl_keepsNode p (fun q j i => q.lossBefore_node j i _ _) allNodes i
  have hall (C : NodeIx → Prop) : (∃ i, C i) ↔ ∃ i ∈ allNodes, C i := by simp [allNodes]
  exact (hafter.trans hbefore).congr (or_congr (hall _) (hall _))

theorem Part.commitNode_images (i : NodeIx) (new : NodeEntry) : (p.commitNode i new).images = p.images := by
  have hmove (q : Part) (f : NodeRecord → NodeRecord) (state : NodeState) : (q.moveNode i f state).images = q.images :=
    (q.moveNode_keeps i f state).1
  unfold Part.commitNode
  dsimp only
  (repeat' split) <;> simp [hmove]

theorem Part.nodeCommit_zeroed (new : Vector NodeEntry 48) (size : Nat) :
    (p.nodeCommit new size).Zeroed k
      ((∃ i, (p.node i).losesBefore (new.get i) = true ∧ (p.node i).applied.clears size k) ∨
        ∃ i, (p.node i).losesAfter (new.get i) = true ∧ (new.get i).clears size k) p := by
  refine (Part.losses_zeroed new size).of_images ?_
  rw [Part.nodeCommit_eq_losses]
  exact foldl_keeps (fun q : Part => q.images) _ (fun _ _ => Part.commitNode_images _ _) _ _

end

/-! ## Parcels (R125, R126) -/

/-- An entry whose answer is ready, its outcome decided (R123, R127). -/
def Parcel.final (e : Parcel) : Prop := e.transfer = .finishing ∧ e.abandonOwed = false

def ParcelUnit.slots (u : ParcelUnit) : List SlotIx := u.queue.map Parcel.slot

/-- Each slot keeps its entry, and an entry stays as it is once its outcome is decided. -/
def ParcelUnit.KeepsFinal (v u : ParcelUnit) : Prop :=
  v.slots = u.slots ∧ (u.slots.Nodup → ∀ e ∈ u.queue, e.final → e ∈ v.queue)

section
variable {p q : Part}

theorem ParcelUnit.KeepsFinal.of_queue {v u : ParcelUnit} (h : v.queue = u.queue) : v.KeepsFinal u :=
  ⟨by rw [ParcelUnit.slots, h]; rfl, fun _ e he _ => by rwa [h]⟩

theorem ParcelUnit.KeepsFinal.trans {u v w : ParcelUnit} (h : w.KeepsFinal v) (k : v.KeepsFinal u) : w.KeepsFinal u :=
  ⟨h.1.trans k.1, fun hu e he hfinal => h.2 (by rwa [k.1]) e (k.2 hu e he hfinal) hfinal⟩

/-- What finishing does to the entry of a slot. -/
def Parcel.finished (e : Parcel) (outcome : ParcelOutcome) (status : Byte) : Parcel :=
  { e with transfer := .finishing, outcome := outcome, nodeStatus := status, abandonOwed := false }

theorem Part.finishParcel_queue (slot : SlotIx) (outcome : ParcelOutcome) (status : Byte) :
    (p.finishParcel slot outcome status).parcels.queue =
      p.parcels.queue.map fun e => if e.slot = slot then e.finished outcome status else e := by
  rw [Part.finishParcel, Part.readyAnswer_keepsButAnswers]
  rfl

theorem Part.abandonDone_queue (slot : SlotIx) : (p.abandonDone slot).parcels.queue =
    p.parcels.queue.map fun e => if e.slot = slot then { e with abandonOwed := false } else e := by
  rw [Part.abandonDone, Part.readyAnswer_keepsButAnswers]
  rfl

/-- An operation on the entry of one slot, which it leaves in that slot. -/
def Part.ActsAt (slot : SlotIx) (q p : Part) : Prop :=
  ∃ g : Parcel → Parcel, (∀ e, (g e).slot = e.slot) ∧
    q.parcels.queue = p.parcels.queue.map fun e => if e.slot = slot then g e else e

theorem Part.ActsAt.slots {slot : SlotIx} (h : q.ActsAt slot p) : q.parcels.slots = p.parcels.slots := by
  obtain ⟨g, hg, hqueue⟩ := h
  rw [ParcelUnit.slots, hqueue, List.map_map, ParcelUnit.slots]
  refine List.map_congr_left fun e _ => ?_
  rw [Function.comp]
  split
  · exact hg e
  · rfl

theorem Part.ActsAt.mem_of_ne {slot : SlotIx} (h : q.ActsAt slot p) {e : Parcel} (he : e ∈ p.parcels.queue) (hne : e.slot ≠ slot) :
    e ∈ q.parcels.queue := by
  obtain ⟨g, -, hqueue⟩ := h
  rw [hqueue]
  exact List.mem_map.2 ⟨e, he, if_neg hne⟩

theorem Part.finishParcel_actsAt (slot : SlotIx) (outcome : ParcelOutcome) (status : Byte) :
    (p.finishParcel slot outcome status).ActsAt slot p :=
  ⟨fun e => e.finished outcome status, fun _ => rfl, p.finishParcel_queue slot outcome status⟩

theorem Part.abandonDone_actsAt (slot : SlotIx) : (p.abandonDone slot).ActsAt slot p :=
  ⟨fun e => { e with abandonOwed := false }, fun _ => rfl, p.abandonDone_queue slot⟩

theorem Part.actsAt_refl (slot : SlotIx) : p.ActsAt slot p := ⟨id, fun _ => rfl, by simp⟩

/-- A node's change acts on the entry named, unless its outcome is decided. -/
theorem Part.parcelAtChange_actsAt (new : NodeState) (e : Parcel) :
    (p.parcelAtChange new e).ActsAt e.slot p ∧ (e.final → p.parcelAtChange new e = p) := by
  refine ⟨?_, fun ⟨hfinishing, howed⟩ => ?_⟩
  · unfold Part.parcelAtChange
    split
    all_goals try exact Part.actsAt_refl _
    all_goals try exact Part.finishParcel_actsAt _ _ _
    all_goals
      split
      · exact Part.abandonDone_actsAt _
      · exact Part.actsAt_refl _
  · cases new <;> simp [Part.parcelAtChange, hfinishing, howed]

theorem slot_inj_of_nodup {l : List Parcel} (h : (l.map Parcel.slot).Nodup) {e f : Parcel} (he : e ∈ l) (hf : f ∈ l)
    (hslot : e.slot = f.slot) : e = f := List.inj_on_of_nodup_map h he hf hslot

theorem foldl_actsAt {f : Part → Parcel → Part} (hf : ∀ q x, (f q x).ActsAt x.slot q) (l : List Parcel) :
    (l.foldl f p).parcels.slots = p.parcels.slots :=
  foldl_relates (fun q p => q.parcels.slots = p.parcels.slots) rfl (fun h k => h.trans k) f (fun q x => (hf q x).slots) l p

/-- An entry stays in a fold whose steps act on other slots, or on its own not at all. -/
theorem foldl_keepsEntry {f : Part → Parcel → Part} (hf : ∀ q x, (f q x).ActsAt x.slot q) {e : Parcel} {l : List Parcel}
    (hl : ∀ x ∈ l, x.slot = e.slot → ∀ q, f q x = q) (he : e ∈ p.parcels.queue) : e ∈ (l.foldl f p).parcels.queue := by
  induction l generalizing p with
  | nil => exact he
  | cons x l ih =>
    refine ih (fun y hy => hl y (List.mem_cons_of_mem _ hy)) ?_
    by_cases hslot : x.slot = e.slot
    · rwa [hl x List.mem_cons_self hslot]
    · exact (hf p x).mem_of_ne he (Ne.symm hslot)

theorem Part.parcelNodeChange_keepsFinal (i : NodeIx) (new : NodeState) : (p.parcelNodeChange i new).parcels.KeepsFinal p.parcels := by
  have hacts (q : Part) (x : Parcel) := (Part.parcelAtChange_actsAt (p := q) new x).1
  refine ⟨foldl_actsAt hacts _, fun hnodup e he hfinal => foldl_keepsEntry hacts (fun x hx hslot q => ?_) he⟩
  rw [slot_inj_of_nodup hnodup (List.mem_of_mem_filter hx) he hslot]
  exact (Part.parcelAtChange_actsAt new e).2 hfinal

theorem keepsFinal_commitSteps : Part.CommitSteps fun q p => q.parcels.KeepsFinal p.parcels where
  refl := .of_queue rfl
  trans := fun h k => h.trans k
  record := fun _ _ _ => .of_queue rfl
  status := fun p i => by
    rw [show (p.queueStatus i false).parcels = p.parcels by simp]
    exact .of_queue rfl
  leaves := fun _ _ => .of_queue rfl
  cleared := fun _ _ => .of_queue rfl
  moves := fun p i f new => by
    rw [Part.moveNode_parcels]
    have hleft : (p.leftService i f new).parcels = p.parcels := by
      unfold Part.leftService
      split <;> rfl
    rw [← hleft]
    exact Part.parcelNodeChange_keepsFinal i new
  loss := fun p e size => by
    rw [show (p.applyLoss e size).parcels = p.parcels by simp]
    exact .of_queue rfl

/-- What a commit does to an entry whose record is gone. -/
def Part.lostAtCommit (p : Part) (e : Parcel) : Part :=
  match e.transfer with
  | .waiting | .sending _ | .asking _ => p.finishParcel e.slot .nodeUnavailable 0
  | .finishing => if e.abandonOwed then p.abandonDone e.slot else p

theorem Part.lostAtCommit_actsAt (e : Parcel) : (p.lostAtCommit e).ActsAt e.slot p := by
  unfold Part.lostAtCommit
  split
  · exact Part.finishParcel_actsAt _ _ _
  · exact Part.finishParcel_actsAt _ _ _
  · exact Part.finishParcel_actsAt _ _ _
  · split
    · exact Part.abandonDone_actsAt _
    · exact Part.actsAt_refl _

/-- The entry's state after: its outcome decided, NODE-UNAVAILABLE unless it was before (R126). -/
structure Parcel.LostFrom (f e : Parcel) : Prop where
  slot : f.slot = e.slot
  final : f.final
  outcome : e.transfer = .finishing → f.outcome = e.outcome
  unavailable : e.transfer ≠ .finishing → f.outcome = .nodeUnavailable ∧ f.nodeStatus = 0

theorem Part.lostAtCommit_lost {e : Parcel} (he : e ∈ p.parcels.queue) :
    ∃ f ∈ (p.lostAtCommit e).parcels.queue, f.LostFrom e := by
  have finishes (h : e.transfer ≠ .finishing) : ∃ f ∈ (p.finishParcel e.slot .nodeUnavailable 0).parcels.queue, f.LostFrom e := by
    rw [Part.finishParcel_queue]
    exact ⟨e.finished .nodeUnavailable 0, List.mem_map.2 ⟨e, he, if_pos rfl⟩, rfl, ⟨rfl, rfl⟩, fun hf => absurd hf h,
      fun _ => ⟨rfl, rfl⟩⟩
  unfold Part.lostAtCommit
  split
  next h => exact finishes (by rw [h]; decide)
  next h => exact finishes (by rw [h]; exact nofun)
  next h => exact finishes (by rw [h]; exact nofun)
  next h =>
    split
    · rw [Part.abandonDone_queue]
      exact ⟨{ e with abandonOwed := false }, List.mem_map.2 ⟨e, he, if_pos rfl⟩, rfl, ⟨h, rfl⟩, fun _ => rfl,
        fun hn => absurd h hn⟩
    next howed =>
      exact ⟨e, he, rfl, ⟨h, by simpa using howed⟩, fun _ => rfl, fun hn => absurd h hn⟩

theorem foldl_lostAtCommit {l : List Parcel} (hl : (l.map Parcel.slot).Nodup) {e : Parcel} (he : e ∈ l)
    (hmem : e ∈ p.parcels.queue) : ∃ f ∈ (l.foldl Part.lostAtCommit p).parcels.queue, f.LostFrom e := by
  induction l generalizing p with
  | nil => cases he
  | cons x l ih =>
    obtain ⟨hx, hrest⟩ := List.nodup_cons.1 (show (x.slot :: l.map Parcel.slot).Nodup from hl)
    by_cases hslot : x.slot = e.slot
    · have hxe : x = e := slot_inj_of_nodup hl List.mem_cons_self he hslot
      subst hxe
      obtain ⟨f, hf, hlost⟩ := Part.lostAtCommit_lost hmem
      refine ⟨f, foldl_keepsEntry (l := l) (p := p.lostAtCommit x) (fun q y => Part.lostAtCommit_actsAt y)
        (fun y hy hyslot => ?_) hf, hlost⟩
      exact absurd (List.mem_map.2 ⟨y, hy, hyslot.trans hlost.slot⟩) hx
    · have hin := (List.mem_cons.1 he).resolve_left fun h => hslot (by rw [h])
      exact ih hrest hin ((Part.lostAtCommit_actsAt x).mem_of_ne hmem (Ne.symm hslot))

theorem Part.parcelCommit_lost (new : Vector NodeEntry 48) (hnodup : p.parcels.slots.Nodup) {e : Parcel} (he : e ∈ p.parcels.queue)
    (hgone : (new.get e.node).enabled = false ∨ (new.get e.node).address ≠ e.address) :
    ∃ f ∈ (p.parcelCommit new).parcels.queue, f.LostFrom e := by
  refine foldl_lostAtCommit (l := p.parcels.queue.filter fun e => !(new.get e.node).enabled || (new.get e.node).address != e.address)
    (List.Nodup.sublist (List.Sublist.map _ List.filter_sublist) hnodup) (List.mem_filter.2 ⟨he, ?_⟩) he
  rcases hgone with h | h <;> simp [h]

end

end Sys2Proof.Machine
end

section
/-! SUPPORT. The commit check (O60): a directory judged, an accepted commit handed to the units, and the end of the check's accesses. -/

namespace Sys2Proof.Machine

/-! ## An accepted commit handed to the units (R142) -/

/-- The entries of a directory as they are applied. -/
def Directory.appliedEntries (d : Directory) : Vector NodeEntry 48 := tabMap (fun _ e => DirEntry.applied e) d.entries

theorem Directory.appliedEntries_get (d : Directory) (i : NodeIx) : d.appliedEntries.get i = (d.entries.get i).applied :=
  tabMap_get _ _ _

/-- The records, the shadow, the windows and the parcels under an accepted commit. -/
def Part.commitHanded (p : Part) (d : Directory) : Part :=
  (((p.parcelCommit d.appliedEntries).nodeCommit d.appliedEntries d.settings.inBytes).clearShadow d.settings.inBytes
    p.loader.settings.inBytes).windowCommit d.settings.initialWindow

/-- The units' part of an accepted commit, before what its origin adds. -/
def Part.commitUnits (p : Part) (d : Directory) (c : Check) (v : Verdict) : Part :=
  ((p.commitHanded d).modLoader fun l =>
    { l with settings := d.settings, accepted := c.generation, refused := none, verdict := v }).count .commitsAccepted

section
variable (p : Part) (d : Directory) (c : Check) (v : Verdict)

/-- What a commit's origin adds: the node table's steps of the open, or what start-up restores and writes. -/
def Part.commitOrigin (p : Part) (origin : CheckFrom) (before : Vector NodeRecord 48) : Part :=
  match origin with
  | .opening => p.nodeOpen fun i => countdownLoaded (before.get i) (p.node i)
  | .startup => allNodes.foldl (fun p i => p.queueStatus i false) p.restoreAccepted
  | .nudge | .owed => p

theorem Part.acceptCommit_eq : p.acceptCommit d c v =
    ((p.commitUnits d c v).commitOrigin c.origin p.table.records).checkAt { c with pos := .awaitStatus, words := [] } := rfl

theorem Part.commitHanded_units :
    (p.commitHanded d).ladder = p.ladder ∧ (p.commitHanded d).loader = p.loader ∧ (p.commitHanded d).sched = p.sched ∧
    (p.commitHanded d).windows =
      { p.windows with size := (WindowSize.ofSlots d.settings.initialWindow).getD p.windows.size, streak := 0, lastClash := false,
                       strays := [] } := by
  refine ⟨?_, ?_, ?_, ?_⟩ <;> simp [Part.commitHanded, Part.windowCommit, Part.voidNotes]

theorem keepsFaults_commitSteps : Part.CommitSteps fun q p => q.faults = p.faults where
  refl := rfl
  trans h k := h.trans k
  record _ _ _ := rfl
  status p i := by simp
  leaves _ _ := rfl
  cleared _ _ := rfl
  moves p i f new := by
    obtain ⟨-, -, -, -, -, hfaults, -⟩ := p.moveNode_keeps i f new
    exact hfaults
  loss p e size := by
    unfold Part.applyLoss
    split <;> rfl

theorem Part.clearShadow_faults (lo hi : Nat) : (p.clearShadow lo hi).faults = p.faults := rfl

/-- The records under an accepted commit, the parcels' part before them. -/
def Part.commitRecords (p : Part) (d : Directory) : Part :=
  (p.parcelCommit d.appliedEntries).nodeCommit d.appliedEntries d.settings.inBytes

theorem Part.commitHanded_records : (p.commitHanded d).faults = (p.commitRecords d).faults ∧
    (p.commitHanded d).table = (p.commitRecords d).table ∧ (p.commitHanded d).parcels = (p.commitRecords d).parcels ∧
    (p.commitHanded d).events.nodes = (p.commitRecords d).events.nodes ∧
    (p.commitHanded d).events.queue = (p.commitRecords d).events.queue ∧
    (p.commitHanded d).images =
      ((p.commitRecords d).clearShadow d.settings.inBytes p.loader.settings.inBytes).images := by
  refine ⟨?_, ?_, ?_, ?_, ?_, ?_⟩ <;>
    simp [Part.commitHanded, Part.commitRecords, Part.windowCommit, Part.voidNotes, Part.clearShadow_faults]

theorem Part.commitUnits_handed : (p.commitUnits d c v).table = (p.commitRecords d).table ∧
    (p.commitUnits d c v).parcels = (p.commitRecords d).parcels ∧
    (p.commitUnits d c v).events.nodes = (p.commitRecords d).events.nodes ∧
    (p.commitUnits d c v).events.queue = (p.commitRecords d).events.queue ∧
    (p.commitUnits d c v).images =
      ((p.commitRecords d).clearShadow d.settings.inBytes p.loader.settings.inBytes).images := by
  obtain ⟨-, htable, hparcels, hnodes, hqueue, himages⟩ := p.commitHanded_records d
  refine ⟨?_, ?_, ?_, ?_, ?_⟩ <;> simp [Part.commitUnits, htable, hparcels, hnodes, hqueue, himages]

theorem Part.commitRecords_faults : (p.commitRecords d).faults = p.faults := by
  have hparcels : (p.parcelCommit d.appliedEntries).faults = p.faults := by simp
  rw [Part.commitRecords, ← hparcels]
  exact keepsFaults_commitSteps.nodeCommit _ _ _

theorem Part.commitUnits_faults : (p.commitUnits d c v).faults = (p.count .commitsAccepted).faults := by
  obtain ⟨hfaults, -⟩ := p.commitHanded_records d
  have hhanded : (p.commitHanded d).faults = p.faults := hfaults.trans (p.commitRecords_faults d)
  simp [Part.commitUnits, Part.count, hhanded]

theorem Part.commitUnits_units : (p.commitUnits d c v).ladder = p.ladder ∧ (p.commitUnits d c v).loader =
      { p.loader with settings := d.settings, accepted := c.generation, refused := none, verdict := v } ∧
    (p.commitUnits d c v).windows =
      { p.windows with size := (WindowSize.ofSlots d.settings.initialWindow).getD p.windows.size, streak := 0, lastClash := false,
                       strays := [] } := by
  obtain ⟨hladder, hloader, -, hwindows⟩ := p.commitHanded_units d
  refine ⟨?_, ?_, ?_⟩ <;> simp [Part.commitUnits, hladder, hloader, hwindows]

theorem Part.commitUnits_node (i : NodeIx) :
    (p.commitUnits d c v).node i = (p.node i).committed (d.entries.get i).applied := by
  have hparcels : (p.parcelCommit d.appliedEntries).node i = p.node i := by simp [Part.node]
  obtain ⟨htable, -⟩ := p.commitUnits_handed d c v
  rw [← d.appliedEntries_get, ← hparcels, Part.node, htable]
  exact Part.nodeCommit_node _ _ _ i

theorem Part.commitUnits_eventsCleared {i : NodeIx} (hnew : (d.entries.get i).applied.enabled = true)
    (hcreated : recreates (p.node i).applied (d.entries.get i).applied = true) : (p.commitUnits d c v).EventsCleared i := by
  have hparcels : (p.parcelCommit d.appliedEntries).node i = p.node i := by simp [Part.node]
  rw [← d.appliedEntries_get] at hnew hcreated
  rw [← hparcels] at hcreated
  obtain ⟨-, -, hnodes, hqueue, -⟩ := p.commitUnits_handed d c v
  have hcleared : (p.commitRecords d).EventsCleared i := Part.nodeCommit_eventsCleared d.settings.inBytes hnew hcreated
  exact hcleared.keeps ⟨by rw [Part.nodeEvents, hnodes]; rfl, by rw [hqueue]; exact id⟩

theorem Part.commitUnits_writes (hstart : p.ladder.state ≠ .starting) (i : NodeIx) :
    (((p.node i).committed (d.entries.get i).applied).state ≠ (p.node i).state →
      { node := i, cause := true } ∈ (p.commitUnits d c v).table.writes) ∧
    (((p.node i).committed (d.entries.get i).applied).state = (p.node i).state → (d.entries.get i).applied ≠ (p.node i).applied →
      { node := i, cause := false } ∈ (p.commitUnits d c v).table.writes) := by
  have hparcels : (p.parcelCommit d.appliedEntries).node i = p.node i := by simp [Part.node]
  have h := (p.parcelCommit d.appliedEntries).nodeCommit_writes (by simpa using hstart) d.appliedEntries d.settings.inBytes i
  obtain ⟨htable, -⟩ := p.commitUnits_handed d c v
  rw [d.appliedEntries_get, hparcels] at h
  rwa [htable]

theorem Part.commitUnits_zeroed (k : Nat) : (p.commitUnits d c v).Zeroed k
    (((∃ i, (p.node i).losesBefore (d.entries.get i).applied = true ∧ (p.node i).applied.clears d.settings.inBytes k) ∨
        ∃ i, (p.node i).losesAfter (d.entries.get i).applied = true ∧ (d.entries.get i).applied.clears d.settings.inBytes k) ∨
      d.settings.inBytes ≤ k ∧ k < p.loader.settings.inBytes) p := by
  let lost := p.parcelCommit d.appliedEntries
  have hparcels (i : NodeIx) : lost.node i = p.node i := by simp [lost, Part.node]
  have himages : lost.images = p.images := by simp [lost]
  have hnodes := Part.nodeCommit_zeroed (p := lost) (k := k) d.appliedEntries d.settings.inBytes
  simp only [hparcels, d.appliedEntries_get] at hnodes
  have hcleared := (Part.clearShadow_zeroed (p := lost.nodeCommit d.appliedEntries d.settings.inBytes) (k := k) d.settings.inBytes
    p.loader.settings.inBytes).trans hnodes
  obtain ⟨-, -, -, -, hunits⟩ := p.commitUnits_handed d c v
  obtain ⟨hzero, hkeep⟩ := hcleared.of_images hunits
  exact ⟨hzero, fun hn => by rw [hkeep hn, himages]⟩

theorem Part.commitUnits_lost (hnodup : p.parcels.slots.Nodup) {e : Parcel} (he : e ∈ p.parcels.queue)
    (hgone : (d.entries.get e.node).applied.enabled = false ∨ (d.entries.get e.node).applied.address ≠ e.address) :
    ∃ f ∈ (p.commitUnits d c v).parcels.queue, f.LostFrom e := by
  rw [← d.appliedEntries_get] at hgone
  obtain ⟨f, hf, hlost⟩ := p.parcelCommit_lost d.appliedEntries hnodup he hgone
  have hslots : (p.parcelCommit d.appliedEntries).parcels.slots = p.parcels.slots :=
    foldl_actsAt (fun q x => Part.lostAtCommit_actsAt x) _
  obtain ⟨-, hkeeps⟩ := keepsFinal_commitSteps.nodeCommit (p.parcelCommit d.appliedEntries) d.appliedEntries d.settings.inBytes
  obtain ⟨-, hparcels, -⟩ := p.commitUnits_handed d c v
  rw [hparcels]
  exact ⟨f, hkeeps (by rwa [hslots]) f hf hlost.final, hlost⟩

/-- What a commit's origin leaves, and what it adds to the records, their events and the writes. -/
structure Part.OriginAdds (origin : CheckFrom) (r u : Part) : Prop where
  ladder : r.ladder = u.ladder
  loader : r.loader = u.loader
  images : r.images = u.images
  windows : r.windows = u.windows
  parcels : r.parcels = u.parcels
  faults : r.faults = u.faults
  queue : r.events.queue = u.events.queue
  record : ∀ i, r.node i = { u.node i with fresh := (r.node i).fresh, countdown := (r.node i).countdown }
  countdown : ∀ i, (u.node i).countdown = none → (r.node i).countdown = none
  sameRecord : origin ≠ .opening → ∀ i, r.node i = u.node i
  events : ∀ i, r.nodeEvents i = { u.nodeEvents i with accepted := (r.nodeEvents i).accepted, valid := (r.nodeEvents i).valid }
  sameEvents : origin ≠ .startup → ∀ i, r.nodeEvents i = u.nodeEvents i
  writes : u.table.writes <+: r.table.writes
  allWritten : origin = .startup → ∀ i, { node := i, cause := false } ∈ r.table.writes

theorem Part.OriginAdds.of_same {origin : CheckFrom} {p : Part} (h : origin = .nudge ∨ origin = .owed) : p.OriginAdds origin p where
  ladder := rfl
  loader := rfl
  images := rfl
  windows := rfl
  parcels := rfl
  faults := rfl
  queue := rfl
  record _ := rfl
  countdown _ h := h
  sameRecord _ _ := rfl
  events _ := rfl
  sameEvents _ _ := rfl
  writes := List.prefix_refl _
  allWritten hs := by rcases h with h | h <;> rw [h] at hs <;> cases hs

theorem Part.nodeOpen_node (exempt : NodeIx → Bool) (i : NodeIx) : (p.nodeOpen exempt).node i = (p.node i).atOpen (exempt i) :=
  tabMap_get _ _ _

theorem Part.nodeOpen_originAdds (exempt : NodeIx → Bool) : (p.nodeOpen exempt).OriginAdds .opening p where
  ladder := rfl
  loader := rfl
  images := rfl
  windows := rfl
  parcels := rfl
  faults := rfl
  queue := rfl
  record i := by rw [Part.nodeOpen_node]; rfl
  countdown i h := by
    rw [Part.nodeOpen_node, NodeRecord.atOpen]
    dsimp only
    split
    · rw [h]; rfl
    · exact h
  sameRecord h := absurd rfl h
  events _ := rfl
  sameEvents _ _ := rfl
  writes := List.prefix_refl _
  allWritten := nofun

theorem restoredEvents_eq (e : NodeEvents) (address : Byte) (kept : KeptStatus) (newest : Option Word) :
    restoredEvents e address kept newest =
      { e with accepted := (restoredEvents e address kept newest).accepted, valid := (restoredEvents e address kept newest).valid } := by
  unfold restoredEvents
  dsimp only
  (repeat' split) <;> rfl

theorem Part.restoreAccepted_nodeEvents {s : Startup} (h : p.ladder.startup = some s) (i : NodeIx) :
    p.restoreAccepted.nodeEvents i =
      if (p.node i).applied.enabled then
        restoredEvents (p.nodeEvents i) (p.node i).applied.address (s.kept.get i) s.newest
      else p.nodeEvents i := by
  rw [Part.restoreAccepted, h]
  exact tabMap_get _ _ _

theorem Part.restoreAccepted_events (i : NodeIx) : p.restoreAccepted.nodeEvents i =
    { p.nodeEvents i with
      accepted := (p.restoreAccepted.nodeEvents i).accepted, valid := (p.restoreAccepted.nodeEvents i).valid } := by
  cases h : p.ladder.startup with
  | none => simp [Part.restoreAccepted, h]
  | some s =>
    rw [Part.restoreAccepted_nodeEvents p h]
    split
    · exact restoredEvents_eq _ _ _ _
    · rfl

/-- The writes of all status records asked for in a start-up's commit (R25). -/
def Part.writeAll (p : Part) : Part := allNodes.foldl (fun p i => p.queueStatus i false) p

theorem Part.writeAll_keepsOffStatus : p.writeAll.KeepsOffStatus p :=
  foldl_relates Part.KeepsOffStatus .rfl (fun h k => h.trans k) _ (fun q i => q.queueStatus_keepsOffStatus i false) _ _

theorem Part.writeAll_node (i : NodeIx) : p.writeAll.node i = p.node i :=
  foldl_relates (fun q p => q.node i = p.node i) rfl (fun h k => h.trans k) _ (fun q j => q.queueStatus_node j i false) _ _

theorem Part.writeAll_faults : p.writeAll.faults = p.faults :=
  foldl_relates (fun q p => q.faults = p.faults) rfl (fun h k => h.trans k) _ (fun q j => by simp) _ _

theorem Part.writeAll_writes :
    p.writeAll.table.writes = p.table.writes ++ allNodes.map fun i => { node := i, cause := false } := by
  unfold Part.writeAll
  generalize allNodes = l
  induction l generalizing p with
  | nil => simp
  | cons i l ih => simp [ih]

theorem Part.commitOrigin_originAdds (origin : CheckFrom) (before : Vector NodeRecord 48) :
    (p.commitOrigin origin before).OriginAdds origin p := by
  cases origin with
  | opening => exact p.nodeOpen_originAdds _
  | nudge => exact .of_same (.inl rfl)
  | owed => exact .of_same (.inr rfl)
  | startup =>
    let restored := p.restoreAccepted
    obtain ⟨hladder, -, -, himages, hwindows, hevents, hparcels, hloader, -⟩ := restored.writeAll_keepsOffStatus
    have hunits : restored.ladder = p.ladder ∧ restored.images = p.images ∧ restored.windows = p.windows ∧
        restored.parcels = p.parcels ∧ restored.loader = p.loader ∧ restored.faults = p.faults ∧
        restored.table = p.table ∧ restored.events.queue = p.events.queue := by
      refine ⟨?_, ?_, ?_, ?_, ?_, ?_, ?_, ?_⟩ <;> (simp only [restored]; unfold Part.restoreAccepted; split <;> rfl)
    obtain ⟨kladder, kimages, kwindows, kparcels, kloader, kfaults, ktable, kqueue⟩ := hunits
    have hnode (i : NodeIx) : restored.writeAll.node i = p.node i := by rw [Part.writeAll_node, Part.node, ktable]; rfl
    have hnodeEvents (i : NodeIx) : restored.writeAll.nodeEvents i = restored.nodeEvents i := by rw [Part.nodeEvents, hevents]; rfl
    change restored.writeAll.OriginAdds .startup p
    exact
      { ladder := hladder.trans kladder
        loader := hloader.trans kloader
        images := himages.trans kimages
        windows := hwindows.trans kwindows
        parcels := hparcels.trans kparcels
        faults := restored.writeAll_faults.trans kfaults
        queue := by rw [hevents, kqueue]
        record := fun i => by rw [hnode]
        countdown := fun i h => by rwa [hnode]
        sameRecord := fun _ => hnode
        events := fun i => by rw [hnodeEvents]; exact p.restoreAccepted_events i
        sameEvents := fun h => absurd rfl h
        writes := by rw [Part.writeAll_writes, ktable]; exact List.prefix_append _ _
        allWritten := fun _ i => by
          rw [Part.writeAll_writes]
          exact List.mem_append_right _ (List.mem_map.2 ⟨i, List.mem_finRange i, rfl⟩) }

end

/-! ## What comes about of itself after an event of the loader -/

section
variable (p : Part)

theorem Part.endService_table : p.endService.table = p.table := by
  unfold Part.endService
  dsimp only
  split <;> simp

theorem Part.serviceName_table (i : NodeIx) : (p.serviceName i).table = p.table := by
  unfold Part.serviceName Part.serveNode
  split
  · simp [Part.nameNode]
  · unfold Part.requestTaken
    split <;> simp

theorem Part.serviceNext_table : p.serviceNext.table = p.table := by
  unfold Part.serviceNext
  dsimp only
  (repeat' split) <;> simp [Part.endService_table, Part.serviceName_table, Part.newRound]

theorem Part.settleService_table : p.settleService.table = p.table := by
  unfold Part.settleService
  (repeat' split) <;> simp [Part.endService_table, Part.serviceNext_table]

/-- The entries of the queue, but for their patience. -/
def ParcelUnit.KeepsEntries (v u : ParcelUnit) : Prop := ∀ e ∈ u.queue, ∃ f ∈ v.queue, f = { e with patience := f.patience }

theorem ParcelUnit.KeepsEntries.of_queue {v u : ParcelUnit} (h : v.queue = u.queue) : v.KeepsEntries u :=
  fun e he => ⟨e, by rwa [h], rfl⟩

theorem ParcelUnit.KeepsEntries.trans {u v w : ParcelUnit} (h : w.KeepsEntries v) (k : v.KeepsEntries u) : w.KeepsEntries u := by
  intro e he
  obtain ⟨f, hf, hfe⟩ := k e he
  obtain ⟨g, hg, hgf⟩ := h f hf
  exact ⟨g, hg, by rw [hgf, hfe]⟩

theorem Part.lowerPatience_keepsEntries : p.lowerPatience.parcels.KeepsEntries p.parcels := by
  intro e he
  refine ⟨_, List.mem_map.2 ⟨e, he, rfl⟩, ?_⟩
  split <;> rfl

theorem Part.settleParcelOpen_keepsEntries : p.settleParcelOpen.parcels.KeepsEntries p.parcels := by
  have hretry (q : Part) : q.retryAnswers.parcels.queue = q.parcels.queue := by
    unfold Part.retryAnswers
    dsimp only
    split
    · rfl
    · exact foldl_relates (fun q p => q.parcels.queue = p.parcels.queue) rfl (fun h k => h.trans k) _
        (fun q e => by rw [Part.readyAnswer_keepsButAnswers]) _ _
  have hrewrites (q : Part) : q.openRewrites.parcels.KeepsEntries q.parcels := by
    unfold Part.openRewrites
    split
    · exact .of_queue (hretry q)
    · exact .of_queue rfl
  have hpatience (q : Part) : q.openPatience.parcels.KeepsEntries q.parcels := by
    unfold Part.openPatience
    split
    · exact q.lowerPatience_keepsEntries
    · exact .of_queue rfl
  have hscan (q : Part) : q.openScan.parcels.KeepsEntries q.parcels := by
    unfold Part.openScan
    split
    · exact .of_queue (Part.scanTrigger_queue _)
    · exact .of_queue rfl
  unfold Part.settleParcelOpen
  split
  · exact (hscan _).trans ((hpatience _).trans (hrewrites p))
  · exact .of_queue rfl

/-- What the rest of an event's work leaves of the records, their events, the shadow, the windows, the parcels and the registers, in every
ladder state. -/
structure Part.WorkSettled (r q : Part) : Prop where
  records : r.table.records = q.table.records
  images : r.images = q.images
  windows : r.windows = q.windows
  capture : r.faults.capture = q.faults.capture
  counters : r.faults.counters = q.faults.counters
  queue : r.events.queue = q.events.queue
  marks : ∀ i, r.marks i = q.marks i
  settings : r.loader.settings = q.loader.settings
  accepted : r.loader.accepted = q.loader.accepted
  refused : r.loader.refused = q.loader.refused
  verdict : r.loader.verdict = q.loader.verdict
  writes : q.table.writes <+: r.table.writes
  entries : r.parcels.KeepsEntries q.parcels

end

section
variable {s : State} {f : Part → Part} {q : Part}

theorem Part.settle_entries (p : Part) : p.settle.parcels.KeepsEntries p.parcels := by
  have hparcels : p.settle.parcels = p.settleNodeOpen.settleCheck.settleStartup.settleParcelOpen.parcels := by simp [Part.settle]
  have hstartup : p.settleNodeOpen.settleCheck.settleStartup.parcels = p.parcels := by
    have h : p.settleNodeOpen.settleCheck.settleStartup.parcels = p.settleNodeOpen.settleCheck.parcels := by
      unfold Part.settleStartup
      (repeat' split) <;> simp [Part.startupFail, Part.startupRead]
    rw [h]
    simp [p.settleNodeOpen_units]
  rw [hparcels, ← hstartup]
  exact Part.settleParcelOpen_keepsEntries _

theorem State.act_workSettled (hf : f s.part = q) (hwaits : q.startupWaits) : (s.act f).part.WorkSettled q := by
  subst hf
  have hmost := Part.settleMost_settles_of_waits hwaits
  obtain ⟨hrecords, himages, hwindows, -, -, -, -, -, hcapture, hcounters, -, -, -, -, -, -, -, -, -, -, -, -, -, -, -, hqueue, -, -, -,
    -, -, -, -, hsettings, haccepted, hrefused, hverdict⟩ := s.act_keeps f
  refine ⟨hrecords, himages, hwindows, hcapture, hcounters, hqueue, fun i => ?_, hsettings, haccepted, hrefused, hverdict, ?_, ?_⟩
  · have hact : (s.act f).part.marks i = (f s.part).settle.marks i := by simp [Part.marks, Part.nodeEvents]
    rw [hact, Part.settle_eq_settleMost, Part.settleService_marks, Part.marks, Part.nodeEvents, hmost.nodes]
    rfl
  · rw [State.act_table, Part.settle_eq_settleMost, Part.settleService_table]
    exact hmost.writes
  · rw [State.act_parcels]
    exact (f s.part).settle_entries

theorem Part.WorkSettled.node {p r : Part} (h : r.WorkSettled p) (i : NodeIx) : r.node i = p.node i := by
  rw [Part.node, h.records]
  rfl

theorem Part.WorkSettled.counter {p r : Part} (h : r.WorkSettled p) (c : Counter) : r.counter c = p.counter c := by
  rw [Part.counter, h.counters]
  rfl

end

/-! ## A record under an accepted commit (Table 1-4, R7) -/

section
variable (r : NodeRecord) (new : NodeEntry)

theorem recreates_iff (old new : NodeEntry) : recreates old new = true ↔
    new.enabled = true ∧ (old.enabled = false ∨ ¬ (old.address = new.address ∧ old.expectedKind = new.expectedKind ∧
      old.outLength = new.outLength ∧ old.inLength = new.inLength)) := by
  have hsame : old.sameIdentity new = true ↔ old.address = new.address ∧ old.expectedKind = new.expectedKind ∧
      old.outLength = new.outLength ∧ old.inLength = new.inLength := by simp [NodeEntry.sameIdentity, and_assoc]
  rw [← hsame]
  simp [recreates]

theorem NodeRecord.limitReached_iff : r.limitReached new = true ↔ r.state = .suspect ∧ new.missLimit ≤ r.missCount := by
  simp [NodeRecord.limitReached]

theorem NodeRecord.moved_fields (f : NodeRecord → NodeRecord) (state : NodeState) : ∃ degraded fresh,
    r.moved f state =
      { f r with state := state, changeCount := (f r).changeCount + 1, degraded := degraded, fresh := fresh } := by
  unfold NodeRecord.moved NodeRecord.leaveService
  dsimp only
  split
  · exact ⟨_, _, rfl⟩
  · exact ⟨_, _, rfl⟩

variable {r new}

theorem NodeRecord.committed_of_disabled (h : new.enabled = false) : ∃ degraded fresh,
    r.committed new =
      { r with applied := new, missCount := 0, countdown := none, state := .excluded, degraded := degraded, fresh := fresh,
               changeCount := r.changeCount + if r.state = .excluded then 0 else 1 } := by
  rw [NodeRecord.committed, if_pos (by rw [h]; rfl)]
  split
  next hs => exact ⟨r.degraded, r.fresh, by rw [← hs]; simp⟩
  next hs =>
    obtain ⟨degraded, fresh, h⟩ := r.moved_fields (fun r => { r with applied := new, missCount := 0, countdown := none }) .excluded
    exact ⟨degraded, fresh, h⟩

theorem NodeRecord.committed_of_created (h : recreates r.applied new = true) : ∃ degraded fresh,
    r.committed new =
      { r with applied := new, missCount := 0, countdown := none, state := .probing, degraded := degraded, fresh := fresh,
               changeCount := r.changeCount + if r.state = .probing then 0 else 1 } := by
  have henabled := ((recreates_iff _ _).1 h).1
  rw [NodeRecord.committed, if_neg (by rw [henabled]; decide), if_pos h]
  split
  next hs => exact ⟨r.degraded, r.fresh, by rw [← hs]; simp [NodeRecord.toProbing]⟩
  next hs =>
    obtain ⟨degraded, fresh, h⟩ := r.moved_fields (fun r => { r with applied := new }.toProbing) .probing
    exact ⟨degraded, fresh, h⟩

theorem NodeRecord.committed_of_lowered (henabled : new.enabled = true) (h : ¬ recreates r.applied new = true)
    (hlimit : r.limitReached new = true) : ∃ degraded fresh,
    r.committed new =
      { r with applied := new, missCount := new.missLimit, countdown := loadedCountdown new.reprobeDelay, state := .lost,
               degraded := degraded, fresh := fresh, changeCount := r.changeCount + 1 } := by
  rw [NodeRecord.committed, if_neg (by rw [henabled]; decide), if_neg h, if_pos hlimit]
  exact r.moved_fields
    (fun r => { r with applied := new, missCount := new.missLimit, countdown := loadedCountdown new.reprobeDelay }) .lost

theorem NodeRecord.committed_of_kept (henabled : new.enabled = true) (h : ¬ recreates r.applied new = true)
    (hlimit : ¬ r.limitReached new = true) :
    r.committed new =
      { r with applied := new, missCount := if r.state = .lost then new.missLimit else r.missCount,
               countdown := if r.state = .lost then keptCountdown r.countdown new.reprobeDelay else r.countdown } := by
  rw [NodeRecord.committed, if_neg (by rw [henabled]; decide), if_neg h, if_neg hlimit]
  split <;> rfl

/-- The cases of Table 1-4 and R7. -/
theorem commitCases (r : NodeRecord) (new : NodeEntry) : new.enabled = false ∨ recreates r.applied new = true ∨
    new.enabled = true ∧ ¬ recreates r.applied new = true := by
  by_cases henabled : new.enabled = true
  · by_cases h : recreates r.applied new = true
    · exact .inr (.inl h)
    · exact .inr (.inr ⟨henabled, h⟩)
  · exact .inl (by simpa using henabled)

theorem NodeRecord.committed_applied (r : NodeRecord) (new : NodeEntry) : (r.committed new).applied = new := by
  rcases commitCases r new with h | h | ⟨henabled, h⟩
  · obtain ⟨_, _, heq⟩ := NodeRecord.committed_of_disabled (r := r) h
    rw [heq]
  · obtain ⟨_, _, heq⟩ := NodeRecord.committed_of_created h
    rw [heq]
  · by_cases hlimit : r.limitReached new = true
    · obtain ⟨_, _, heq⟩ := NodeRecord.committed_of_lowered henabled h hlimit
      rw [heq]
    · rw [NodeRecord.committed_of_kept henabled h hlimit]

theorem NodeRecord.committed_changeCount (r : NodeRecord) (new : NodeEntry) :
    (r.committed new).changeCount = r.changeCount + if (r.committed new).state = r.state then 0 else 1 := by
  rcases commitCases r new with h | h | ⟨henabled, h⟩
  · obtain ⟨_, _, heq⟩ := NodeRecord.committed_of_disabled (r := r) h
    rw [heq]
    simp only [eq_comm]
  · obtain ⟨_, _, heq⟩ := NodeRecord.committed_of_created h
    rw [heq]
    simp only [eq_comm]
  · by_cases hlimit : r.limitReached new = true
    · obtain ⟨_, _, heq⟩ := NodeRecord.committed_of_lowered henabled h hlimit
      rw [heq, if_neg (by rw [((r.limitReached_iff new).1 hlimit).1]; exact nofun)]
    · rw [NodeRecord.committed_of_kept henabled h hlimit]
      simp

theorem loadedCountdown_eq (delay : Nat) : loadedCountdown delay = if delay = 0 then none else some delay := rfl

theorem keptCountdown_eq (old : Option Nat) (delay : Nat) :
    keptCountdown old delay = if delay = 0 then none else some (old.getD delay) := by
  unfold keptCountdown
  cases old <;> rfl

theorem NodeRecord.losesBefore_iff (r : NodeRecord) (new : NodeEntry) :
    r.losesBefore new = true ↔ r.applied.enabled = true ∧ (new.enabled = false ∨ recreates r.applied new = true) := by
  simp [NodeRecord.losesBefore]

theorem NodeRecord.losesAfter_iff (r : NodeRecord) (new : NodeEntry) :
    r.losesAfter new = true ↔ recreates r.applied new = true ∨
      (new.enabled = true ∧ ¬ recreates r.applied new = true) ∧ r.state = .suspect ∧ new.missLimit ≤ r.missCount := by
  rw [← r.limitReached_iff]
  by_cases h : recreates r.applied new = true
  · simp [NodeRecord.losesAfter, h]
  · have hold : new.enabled = true → r.applied.enabled = true := by
      intro henabled
      by_contra hnot
      exact h ((recreates_iff _ _).2 ⟨henabled, .inl (by simpa using hnot)⟩)
    simp only [NodeRecord.losesAfter, h, Bool.false_or, Bool.and_eq_true]
    exact ⟨fun ⟨⟨hn, _⟩, hl⟩ => .inr ⟨⟨hn, Bool.false_ne_true⟩, hl⟩, fun hc => by
      obtain ⟨⟨hn, -⟩, hl⟩ := hc.resolve_left Bool.false_ne_true
      exact ⟨⟨hn, hold hn⟩, hl⟩⟩

end

/-! ## A directory judged (R136 to R143) -/

/-- What an accepted commit leads to. -/
structure Part.Committed (d : Directory) (c : Check) (v : Verdict) (q p : Part) : Prop where
  ladder : q.ladder = p.ladder
  loader : q.loader = { p.loader with settings := d.settings, accepted := c.generation, refused := none, verdict := v,
                                      check := some { c with pos := .awaitStatus, words := [] } }
  windows : q.windows = { p.windows with
    size := (WindowSize.ofSlots d.settings.initialWindow).getD p.windows.size, streak := 0, lastClash := false, strays := [] }
  counter : q.counter .commitsAccepted = p.counter .commitsAccepted + 1
  record : ∀ i, ∃ fresh, q.node i = { (p.node i).committed (d.entries.get i).applied with
    fresh := fresh, countdown := (q.node i).countdown }
  noCountdown : ∀ i, ((p.node i).committed (d.entries.get i).applied).countdown = none → (q.node i).countdown = none
  sameRecord : c.origin ≠ .opening → ∀ i, q.node i = (p.node i).committed (d.entries.get i).applied
  cleared : ∀ i, recreates (p.node i).applied (d.entries.get i).applied = true →
    (q.marks i).latch = false ∧ (q.marks i).ackOwed = false ∧ i ∉ q.events.queue ∧
      (c.origin ≠ .startup → (q.marks i).valid = false)
  written : ∀ i, p.ladder.state ≠ .starting →
    (((p.node i).committed (d.entries.get i).applied).state ≠ (p.node i).state →
      { node := i, cause := true } ∈ q.table.writes) ∧
    (((p.node i).committed (d.entries.get i).applied).state = (p.node i).state → (d.entries.get i).applied ≠ (p.node i).applied →
      { node := i, cause := false } ∈ q.table.writes)
  allWritten : c.origin = .startup → ∀ i, { node := i, cause := false } ∈ q.table.writes
  zeroed : ∀ k, q.Zeroed k
    (((∃ i, (p.node i).losesBefore (d.entries.get i).applied = true ∧ (p.node i).applied.clears d.settings.inBytes k) ∨
        ∃ i, (p.node i).losesAfter (d.entries.get i).applied = true ∧ (d.entries.get i).applied.clears d.settings.inBytes k) ∨
      d.settings.inBytes ≤ k ∧ k < p.loader.settings.inBytes) p
  lost : p.parcels.slots.Nodup → ∀ e ∈ p.parcels.queue,
    (d.entries.get e.node).applied.enabled = false ∨ (d.entries.get e.node).applied.address ≠ e.address →
      ∃ f ∈ q.parcels.queue, f.LostFrom e

section
variable {p : Part}

theorem Part.acceptCommit_committed (d : Directory) (c : Check) (v : Verdict) : (p.acceptCommit d c v).Committed d c v p := by
  let u := p.commitUnits d c v
  let o := u.commitOrigin c.origin p.table.records
  have hq : p.acceptCommit d c v = o.modLoader fun l => { l with check := some { c with pos := .awaitStatus, words := [] } } := rfl
  have ho : o.OriginAdds c.origin u := u.commitOrigin_originAdds _ _
  obtain ⟨kladder, kloader, kwindows⟩ := p.commitUnits_units d c v
  have knode := p.commitUnits_node d c v
  rw [hq]
  refine
    { ladder := ho.ladder.trans kladder
      loader := ?_
      windows := ho.windows.trans kwindows
      counter := ?_
      record := fun i => ⟨(o.node i).fresh, ?_⟩
      noCountdown := fun i h => ho.countdown i (by rw [← h]; exact congrArg _ (knode i))
      sameRecord := fun h i => (ho.sameRecord h i).trans (knode i)
      cleared := fun i h => ?_
      written := fun i h => ?_
      allWritten := ho.allWritten
      zeroed := fun k => (p.commitUnits_zeroed d c v k).of_images ho.images
      lost := fun h e he hgone => ?_ }
  · exact congrArg (fun l : Loader => { l with check := some { c with pos := .awaitStatus, words := [] } })
      (ho.loader.trans kloader)
  · have hcount := p.count_counter .commitsAccepted .commitsAccepted
    rw [if_pos rfl] at hcount
    rw [← hcount, Part.counter, Part.counter]
    change o.faults.counters.get _ = _
    rw [ho.faults, p.commitUnits_faults]
  · have hrecord := ho.record i
    rw [knode i] at hrecord
    exact hrecord
  · have henabled := ((recreates_iff _ _).1 h).1
    obtain ⟨hlatch, howed, hvalid, hqueue⟩ := p.commitUnits_eventsCleared d c v henabled h
    refine ⟨?_, ?_, ?_, fun horigin => ?_⟩
    · change (o.nodeEvents i).latch = false
      rw [ho.events i]
      exact hlatch
    · change (o.nodeEvents i).ackOwed = false
      rw [ho.events i]
      exact howed
    · change i ∉ o.events.queue
      rwa [ho.queue]
    · change (o.nodeEvents i).valid = false
      rw [ho.sameEvents horigin i]
      exact hvalid
  · obtain ⟨hchange, hsame⟩ := p.commitUnits_writes d c v h i
    exact ⟨fun h => ho.writes.subset (hchange h), fun h h' => ho.writes.subset (hsame h h')⟩
  · change ∃ f ∈ o.parcels.queue, _
    rw [ho.parcels]
    exact p.commitUnits_lost d c v h he hgone

/-- What a refused commit leads to. -/
theorem Part.refuseCommit_eq (c : Check) (v : Verdict) : p.refuseCommit c v =
    (p.modLoader fun l =>
      { l with refused := some c.generation, verdict := v, check := some { c with pos := .writeVerdict, words := [] } }).issueWrite
      .loader Config.offVerdict v.word := rfl

end

section
variable {s : State} {x : Access}

/-- The part as its block takes the end of an access, the cycle timer moved on. -/
def State.begun (s : State) (x : Access) (host : Option Word) (dt : Nat) : Part := (s.afterWord x host).part.passTime dt

theorem exec_loaderAccess (hx : s.current = some x) (hsource : x.source = .loader) (hp : s.part.ladder.softPending = false)
    (host : Option Word) (dt : Nat) : ∃ f : Part → Part,
      exec (.memoryAccessComplete host dt) s = .next ((s.afterWord x host).act f) ∧
      f (s.afterWord x host).part = (s.begun x host dt).continueCheck (s.wordOf x host) := by
  refine ⟨_, exec_memoryAccessComplete_of_current hx hp host dt, ?_⟩
  rw [hsource]
  rfl

theorem Part.judgeCopy_of_accepted {p : Part} {c : Check} {d : Directory} {j : Judgement} (hd : d = directoryOf c.words.reverse)
    (hj : j = judge d (if p.ladder.state = .run then some p.loader.settings else none)) (h : j.code = .accepted) :
    p.judgeCopy c = p.acceptCommit d c (j.verdict c.generation) := by
  subst hd hj
  exact if_pos h

theorem Part.judgeCopy_of_refused {p : Part} {c : Check} {d : Directory} {j : Judgement} (hd : d = directoryOf c.words.reverse)
    (hj : j = judge d (if p.ladder.state = .run then some p.loader.settings else none)) (h : j.code ≠ .accepted) :
    p.judgeCopy c = p.refuseCommit c (j.verdict c.generation) := by
  subst hd hj
  exact if_neg h

end

/-! ## A commit after its event -/

section
variable {p q t : Part} {d : Directory} {c : Check} {v : Verdict} (hq : q.Committed d c v p) (ht : t.WorkSettled q) (i : NodeIx)
include hq ht

theorem Part.Committed.applied_after : (t.node i).applied = (d.entries.get i).applied := by
  obtain ⟨fresh, hrecord⟩ := hq.record i
  rw [ht.node, hrecord]
  exact NodeRecord.committed_applied _ _

theorem Part.Committed.disabled_after (h : (d.entries.get i).applied.enabled = false) :
    (t.node i).state = .excluded ∧ (t.node i).missCount = 0 ∧ (t.node i).countdown = none := by
  obtain ⟨fresh, hrecord⟩ := hq.record i
  have hnone := hq.noCountdown i
  obtain ⟨_, _, heq⟩ := NodeRecord.committed_of_disabled (r := p.node i) h
  rw [heq] at hrecord hnone
  rw [ht.node]
  refine ⟨?_, ?_, hnone rfl⟩ <;> rw [hrecord]

theorem Part.Committed.created_after (h : recreates (p.node i).applied (d.entries.get i).applied = true) :
    (t.node i).state = .probing ∧ (t.node i).missCount = 0 ∧ (t.node i).countdown = none ∧
      (t.node i).kindSeen = (p.node i).kindSeen ∧ (t.node i).revisionSeen = (p.node i).revisionSeen ∧
      (t.node i).misfit = (p.node i).misfit ∧ (t.nodeEvents i).latch = false ∧ (t.nodeEvents i).ackOwed = false ∧
      i ∉ t.events.queue ∧ (c.origin ≠ .startup → (t.nodeEvents i).valid = false) := by
  obtain ⟨fresh, hrecord⟩ := hq.record i
  have hnone := hq.noCountdown i
  obtain ⟨hlatch, howed, hqueue, hvalid⟩ := hq.cleared i h
  obtain ⟨_, _, heq⟩ := NodeRecord.committed_of_created h
  rw [heq] at hrecord hnone
  rw [← ht.marks] at hlatch howed hvalid
  rw [ht.node, ht.queue]
  refine ⟨?_, ?_, hnone rfl, ?_, ?_, ?_, hlatch, howed, hqueue, hvalid⟩ <;> rw [hrecord]

theorem Part.Committed.lowered_after (henabled : (d.entries.get i).applied.enabled = true)
    (h : ¬ recreates (p.node i).applied (d.entries.get i).applied = true)
    (hlimit : (p.node i).limitReached (d.entries.get i).applied = true) :
    (t.node i).state = .lost ∧ (t.node i).missCount = (d.entries.get i).applied.missLimit ∧
      (c.origin ≠ .opening → (t.node i).countdown =
        if (d.entries.get i).applied.reprobeDelay = 0 then none else some (d.entries.get i).applied.reprobeDelay) := by
  obtain ⟨fresh, hrecord⟩ := hq.record i
  obtain ⟨_, _, heq⟩ := NodeRecord.committed_of_lowered henabled h hlimit
  rw [ht.node]
  refine ⟨?_, ?_, fun horigin => ?_⟩
  · rw [hrecord, heq]
  · rw [hrecord, heq]
  · rw [hq.sameRecord horigin i, heq]
    rfl

theorem Part.Committed.kept_after (henabled : (d.entries.get i).applied.enabled = true)
    (h : ¬ recreates (p.node i).applied (d.entries.get i).applied = true)
    (hlimit : ¬ (p.node i).limitReached (d.entries.get i).applied = true) :
    (t.node i).state = (p.node i).state ∧
      (t.node i).missCount = (if (p.node i).state = .lost then (d.entries.get i).applied.missLimit else (p.node i).missCount) ∧
      (c.origin ≠ .opening → (p.node i).state = .lost → (t.node i).countdown =
        if (d.entries.get i).applied.reprobeDelay = 0 then none
        else some ((p.node i).countdown.getD (d.entries.get i).applied.reprobeDelay)) := by
  obtain ⟨fresh, hrecord⟩ := hq.record i
  have heq := NodeRecord.committed_of_kept henabled h hlimit
  rw [ht.node]
  refine ⟨?_, ?_, fun horigin hlost => ?_⟩
  · rw [hrecord, heq]
  · rw [hrecord, heq]
  · rw [hq.sameRecord horigin i, heq]
    exact (if_pos hlost).trans (keptCountdown_eq _ _)

theorem Part.Committed.state_after : (t.node i).state = ((p.node i).committed (d.entries.get i).applied).state := by
  obtain ⟨fresh, hrecord⟩ := hq.record i
  rw [ht.node, hrecord]

theorem Part.Committed.changeCount_after : (t.node i).changeCount =
    (p.node i).changeCount + if (t.node i).state = (p.node i).state then 0 else 1 := by
  obtain ⟨fresh, hrecord⟩ := hq.record i
  rw [hq.state_after ht i, ← NodeRecord.committed_changeCount, ht.node, hrecord]

theorem Part.Committed.writes_after (hstart : p.ladder.state ≠ .starting) :
    ((t.node i).state ≠ (p.node i).state → { node := i, cause := true } ∈ t.table.writes) ∧
      ((t.node i).state = (p.node i).state → (d.entries.get i).applied ≠ (p.node i).applied →
        { node := i, cause := false } ∈ t.table.writes) := by
  obtain ⟨hchange, hsame⟩ := hq.written i hstart
  rw [hq.state_after ht i]
  exact ⟨fun h => ht.writes.subset (hchange h), fun h h' => ht.writes.subset (hsame h h')⟩

omit i in
theorem Part.Committed.lost_after (hnodup : p.parcels.slots.Nodup) {e : Parcel} (he : e ∈ p.parcels.queue)
    (hgone : (d.entries.get e.node).applied.enabled = false ∨ (d.entries.get e.node).applied.address ≠ e.address) :
    ∃ f ∈ t.parcels.queue, f.LostFrom e := by
  obtain ⟨f, hf, hslot, ⟨hfinal, howed⟩, houtcome, hunavailable⟩ := hq.lost hnodup e he hgone
  obtain ⟨g, hg, hgf⟩ := ht.entries f hf
  refine ⟨g, hg, ?_, ⟨?_, ?_⟩, ?_, ?_⟩ <;> (rw [hgf]; assumption)

end

end Sys2Proof.Machine
end

section
/-! SUPPORT. The end of a commit check and its failed writes (O60). -/

namespace Sys2Proof.Machine

/-! ## The loader after an event -/

section
variable (p : Part)

theorem Part.settleCheck_of_other (h : ∀ c, p.loader.check = some c → c.pos ≠ .awaitStatus) : p.settleCheck = p := by
  unfold Part.settleCheck
  split
  next c hc => exact if_neg fun hs => h c hc hs.1
  next => rfl

theorem Part.settleCheck_of_awaits {c : Check} (hc : p.loader.check = some c) (hpos : c.pos = .awaitStatus) :
    (p.table.writes ≠ [] → p.settleCheck = p) ∧
    (p.table.writes = [] → p.settleCheck.loader = { p.loader with check := some { c with pos := .writeVerdict } } ∧
      { offset := 0x58, write := some p.loader.verdict.word, source := .loader } ∈ p.settleCheck.bus) := by
  unfold Part.settleCheck
  rw [hc]
  refine ⟨fun h => if_neg fun hs => h hs.2, fun h => ?_⟩
  dsimp only
  rw [if_pos ⟨hpos, h⟩]
  split <;> exact ⟨rfl, List.mem_append_right _ (List.mem_singleton_self _)⟩

variable {p}

theorem Part.settle_loader_of_works (hwaits : p.startupWaits) (hservice : p.ladder.state ≠ .heldService) :
    p.settle.loader = p.settleNodeOpen.settleCheck.loader ∧ p.settle.table.writes = p.settleNodeOpen.table.writes ∧
      p.settleNodeOpen.settleCheck.bus <+: p.settle.bus := by
  let checked := p.settleNodeOpen.settleCheck
  have hladder : checked.ladder = p.ladder := by simp [checked]
  have hcheck : checked.loader.check.isSome = p.loader.check.isSome := by
    rw [Part.settleCheck_check_isSome, Part.settleNodeOpen_loader]
  have hstart : checked.settleStartup = checked := by
    refine checked.settleStartup_of_waits fun u hu hs => ?_
    rw [hladder] at hu hs
    refine hwaits u hu ⟨hs.1, hs.2.1, ?_⟩
    rw [hs.2.2] at hcheck
    simpa using hcheck.symm
  have hsettle : p.settle = checked.settleParcelOpen.settleSnapshot.startAppend := by
    change (checked.settleStartup.settleParcelOpen.settleSnapshot.startAppend).settleService = _
    rw [hstart, Part.settleService_of_works]
    intro h
    rw [show checked.settleParcelOpen.settleSnapshot.startAppend.ladder = checked.ladder by simp, hladder] at h
    exact absurd h hservice
  rw [hsettle]
  refine ⟨by simp [checked.settleParcelOpen_units, checked], ?_, ?_⟩
  · rw [Part.startAppend_table, ← Part.settleCheck_writes]
    simp [checked.settleParcelOpen_units, checked]
  · exact (Part.settleParcelOpen_extends _).trans <| (Part.settleSnapshot_extends _).trans (Part.startAppend_extends _)

theorem Part.settle_loader_of_other (hwaits : p.startupWaits) (hservice : p.ladder.state ≠ .heldService)
    (h : ∀ c, p.loader.check = some c → c.pos ≠ .awaitStatus) : p.settle.loader = p.loader := by
  rw [(Part.settle_loader_of_works hwaits hservice).1, Part.settleCheck_of_other, Part.settleNodeOpen_loader]
  rwa [Part.settleNodeOpen_loader]

variable {s : State} {f : Part → Part} {q : Part}

theorem State.act_asks_settled {a : Access} (h : a ∈ (f s.part).settle.bus) : (s.act f).part.asks a := by
  refine ⟨?_, fun hruns => ?_⟩
  · simp only [State.act]
    exact ((f s.part).settle.arbitrate_mem _ _).2 (List.mem_append_left _ h)
  · simp only [State.act]
    refine (f s.part).settle.arbitrate_admitted _ _ (Part.admits_of_running ?_ a) h
    simpa using hruns

/-- A check that waits for the status records: whether its verdict's write has begun after an event. -/
theorem State.act_awaits {c : Check} (hf : f s.part = q) (hservice : q.ladder.state ≠ .heldService)
    (hc : q.loader.check = some c) (hpos : c.pos = .awaitStatus) :
    ∃ c', (s.act f).part.loader.check = some c' ∧ c'.origin = c.origin ∧ 
      ((s.act f).part.table.writes ≠ [] → c' = c) ∧
      ((s.act f).part.table.writes = [] → c' = { c with pos := .writeVerdict } ∧
        (s.act f).part.asks { offset := 0x58, write := some q.loader.verdict.word, source := .loader }) := by
  subst hf
  obtain ⟨hloader, hwrites, hbus⟩ :=
    Part.settle_loader_of_works (Part.startupWaits_of_checks (by rw [hc]; rfl)) hservice
  have hopen := (f s.part).settleNodeOpen_loader
  obtain ⟨hwaits, hbegins⟩ := Part.settleCheck_of_awaits (f s.part).settleNodeOpen (by rw [hopen]; exact hc) hpos
  rw [State.act_loader, State.act_table, hloader, hwrites]
  by_cases h : (f s.part).settleNodeOpen.table.writes = []
  · obtain ⟨hcheck, hmem⟩ := hbegins h
    refine ⟨{ c with pos := .writeVerdict }, by rw [hcheck], rfl, fun hn => absurd h hn, fun _ => ⟨rfl, ?_⟩⟩
    rw [hopen] at hmem
    exact State.act_asks_settled (hbus.subset hmem)
  · exact ⟨c, by rw [hwaits h, hopen, hc], rfl, fun _ => rfl, fun hn => absurd hn h⟩

end

/-! ## No access of the loader added -/

/-- The accesses of the loader on `r`'s list are on `p`'s. -/
def Part.AddsNoCheck (r p : Part) : Prop := ∀ a ∈ r.bus, a.source = .loader → a ∈ p.bus

section
variable {p q r : Part}

theorem Part.AddsNoCheck.of_bus (h : q.bus = p.bus) : q.AddsNoCheck p := fun a ha _ => by rwa [← h]

theorem Part.AddsNoCheck.trans (h : r.AddsNoCheck q) (k : q.AddsNoCheck p) : r.AddsNoCheck p :=
  fun a ha hs => k a (h a ha hs) hs

theorem Part.AddsNoCheck.of_access {a : Access} (h : q.bus = p.bus ++ [a]) (ha : a.source ≠ .loader) : q.AddsNoCheck p := by
  intro b hb hs
  rw [h, List.mem_append, List.mem_singleton] at hb
  rcases hb with hb | rfl
  · exact hb
  · exact absurd hs ha

theorem Part.queueStatus_addsNoCheck (i : NodeIx) (cause : Bool) : (p.queueStatus i cause).AddsNoCheck p := by
  unfold Part.queueStatus Part.startStatus Part.issueStatus
  dsimp only
  split
  · split
    · exact .of_access rfl nofun
    · exact .of_bus rfl
  · exact .of_bus rfl

theorem Part.writeOwed_addsNoCheck : p.writeOwed.AddsNoCheck p :=
  foldl_relates Part.AddsNoCheck (.of_bus rfl) (fun h k => h.trans k) _ (fun _ _ => Part.queueStatus_addsNoCheck _ _) _ _

theorem Part.settleNodeOpen_addsNoCheck : p.settleNodeOpen.AddsNoCheck p := by
  unfold Part.settleNodeOpen
  dsimp only
  (repeat' split) <;> first | exact .of_bus rfl | exact Part.writeOwed_addsNoCheck

theorem Part.scanTrigger_addsNoCheck : p.scanTrigger.AddsNoCheck p := by
  unfold Part.scanTrigger
  split
  · exact .of_bus rfl
  · split
    · exact .of_access rfl nofun
    · exact .of_bus rfl
    · exact .of_bus rfl

theorem Part.writeAnswer_addsNoCheck (writes : List (Nat × Word)) : (p.writeAnswer writes).AddsNoCheck p := by
  unfold Part.writeAnswer
  split
  · exact .of_access rfl nofun
  · exact .of_bus rfl

theorem Part.startAnswer_addsNoCheck : p.startAnswer.AddsNoCheck p := by
  unfold Part.startAnswer
  (repeat' split) <;>
    first | exact .of_bus rfl | exact Part.writeAnswer_addsNoCheck _ | exact .of_access rfl nofun

theorem Part.readyAnswer_addsNoCheck (a : AnswerFor) : (p.readyAnswer a).AddsNoCheck p :=
  Part.startAnswer_addsNoCheck.trans (.of_bus rfl)

theorem Part.settleParcelOpen_addsNoCheck : p.settleParcelOpen.AddsNoCheck p := by
  have hretry (q : Part) : q.retryAnswers.AddsNoCheck q := by
    unfold Part.retryAnswers
    dsimp only
    split
    · exact .of_bus rfl
    · exact foldl_relates Part.AddsNoCheck (.of_bus rfl) (fun h k => h.trans k) _
        (fun q (e : Parcel) => Part.readyAnswer_addsNoCheck (.entry e.slot)) _ _
  have hrewrites (q : Part) : q.openRewrites.AddsNoCheck q := by
    unfold Part.openRewrites
    split
    · exact Part.AddsNoCheck.trans (.of_bus rfl) (hretry q)
    · exact .of_bus rfl
  have hpatience (q : Part) : q.openPatience.AddsNoCheck q := by
    unfold Part.openPatience
    split <;> exact .of_bus rfl
  have hscan (q : Part) : q.openScan.AddsNoCheck q := by
    unfold Part.openScan
    split
    · exact Part.scanTrigger_addsNoCheck.trans (.of_bus rfl)
    · exact .of_bus rfl
  unfold Part.settleParcelOpen
  split
  · exact (hscan _).trans ((hpatience _).trans (hrewrites p))
  · exact .of_bus rfl

theorem Part.settleSnapshot_addsNoCheck : p.settleSnapshot.AddsNoCheck p := by
  unfold Part.settleSnapshot Part.triggerSnapshot
  (repeat' split) <;> first | exact .of_bus rfl | exact .of_access rfl nofun

theorem Part.startAppend_addsNoCheck : p.startAppend.AddsNoCheck p := by
  unfold Part.startAppend
  split
  · exact .of_access rfl nofun
  · exact .of_bus rfl

theorem Part.settle_addsNoCheck (hstart : p.ladder.state ≠ .starting) (hservice : p.ladder.state ≠ .heldService)
    (h : p.loader.check = none) : p.settle.AddsNoCheck p := by
  have hcheck : p.settleNodeOpen.settleCheck = p.settleNodeOpen :=
    Part.settleCheck_of_other _ fun c hc => by rw [Part.settleNodeOpen_loader, h] at hc; cases hc
  have hladder : p.settleNodeOpen.ladder = p.ladder := by simp
  have hsettle : p.settle = p.settleNodeOpen.settleParcelOpen.settleSnapshot.startAppend := by
    change (p.settleNodeOpen.settleCheck.settleStartup.settleParcelOpen.settleSnapshot.startAppend).settleService = _
    rw [hcheck, Part.settleStartup_of_waits _ fun u _ hs => hstart (by rw [← hladder]; exact hs.1),
      Part.settleService_of_works]
    intro hs
    rw [show p.settleNodeOpen.settleParcelOpen.settleSnapshot.startAppend.ladder = p.settleNodeOpen.ladder by simp, hladder] at hs
    exact absurd hs hservice
  rw [hsettle]
  exact Part.startAppend_addsNoCheck.trans <| Part.settleSnapshot_addsNoCheck.trans <|
    Part.settleParcelOpen_addsNoCheck.trans Part.settleNodeOpen_addsNoCheck

end

/-! ## The end of a check (R31, R154, R135) -/

/-- What the end of a check leaves, and what it does to the check and its accesses. -/
structure Part.CheckEnded (origin : CheckFrom) (r p : Part) : Prop where
  ladder : r.ladder = p.ladder
  loader : r.loader = { p.loader with check := r.loader.check, checkOwed := r.loader.checkOwed }
  record : ∀ i, (r.node i).applied = (p.node i).applied ∧ (r.node i).state = (p.node i).state
  windows : r.windows = p.windows
  images : r.images = p.images
  cause : r.faults.cause = p.faults.cause
  capture : r.faults.capture = p.faults.capture
  counters : r.faults.counters = p.faults.counters
  parked : r.parked = p.parked
  ready : origin = .opening → r.sched.loaderReady = true
  ended : origin = .opening ∨ p.loader.checkOwed = false → r.loader.check = none ∧ r.AddsNoCheck p

section
variable {p q : Part}

theorem Part.CheckEnded.of_owed {origin o : CheckFrom} (horigin : origin ≠ .opening) (h : q.CheckEnded origin p)
    (hloader : q.loader = { p.loader with check := none }) :
    (if q.loader.checkOwed then (q.modLoader fun l => { l with checkOwed := false }).beginCheck o else q).CheckEnded origin p := by
  split
  next howed =>
    let again := q.modLoader fun l => { l with checkOwed := false }
    have hagain : (again.beginCheck o).loader = { again.loader with check := (again.beginCheck o).loader.check } :=
      (Part.beginCheck_loader o).1
    exact
      { ladder := by simpa using h.ladder
        loader := by
          rw [show ((q.modLoader fun l => { l with checkOwed := false }).beginCheck o).loader = _ from hagain]
          simp [again, hloader]
        record := fun i => by simpa [Part.node] using h.record i
        windows := by simpa using h.windows
        images := by simpa using h.images
        cause := by simpa using h.cause
        capture := by simpa [Part.beginCheck] using h.capture
        counters := by simpa [Part.beginCheck] using h.counters
        parked := by simpa using h.parked
        ready := fun ho => absurd ho horigin
        ended := fun hends => by
          rw [hloader] at howed
          rcases hends with ho | ho
          · exact absurd ho horigin
          · rw [ho] at howed
            cases howed }
  next => exact h

theorem Part.checkDropped_checkEnded (origin : CheckFrom) (h : origin ≠ .opening) :
    (p.modLoader fun l => { l with check := none }).CheckEnded origin p where
  ladder := rfl
  loader := rfl
  record _ := ⟨rfl, rfl⟩
  windows := rfl
  images := rfl
  cause := rfl
  capture := rfl
  counters := rfl
  parked := rfl
  ready ho := absurd ho h
  ended _ := ⟨rfl, .of_bus rfl⟩

theorem Part.checkEnd_opening_checkEnded : (p.checkEnd .opening).CheckEnded .opening p := by
  let ended := p.modLoader fun l => { l with check := none }
  let opened := if ended.sched.nodeOpen = .waitCommit then ended.nodeOpen fun _ => false else ended
  have hopened : opened.ladder = p.ladder ∧ opened.loader = ended.loader ∧ opened.windows = p.windows ∧ opened.images = p.images ∧
      opened.faults = p.faults ∧ opened.parked = p.parked ∧ opened.bus = p.bus ∧
      ∀ i, (opened.node i).applied = (p.node i).applied ∧ (opened.node i).state = (p.node i).state := by
    simp only [opened]
    split
    · exact ⟨rfl, rfl, rfl, rfl, rfl, rfl, rfl, fun i => by rw [Part.nodeOpen_node]; exact ⟨rfl, rfl⟩⟩
    · exact ⟨rfl, rfl, rfl, rfl, rfl, rfl, rfl, fun i => ⟨rfl, rfl⟩⟩
  obtain ⟨hladder, hloader, hwindows, himages, hfaults, hparked, hbus, hrecord⟩ := hopened
  let ready : Part := { opened with sched := { opened.sched with loaderReady := true } }
  have hloaderEnd : ready.statOpen.loader = { p.loader with check := none } := hloader
  change ready.statOpen.CheckEnded .opening p
  exact
    { ladder := hladder
      loader := by rw [hloaderEnd]
      record := hrecord
      windows := hwindows
      images := himages
      cause := (show ready.statOpen.faults.cause = opened.faults.cause from rfl).trans (by rw [hfaults])
      capture := (show ready.statOpen.faults.capture = opened.faults.capture from rfl).trans (by rw [hfaults])
      counters := (show ready.statOpen.faults.counters = opened.faults.counters from rfl).trans (by rw [hfaults])
      parked := hparked
      ready := fun _ => rfl
      ended := fun _ => ⟨by rw [hloaderEnd],
        Part.AddsNoCheck.trans (.of_access (p := ready) rfl nofun) (.of_bus hbus)⟩ }

theorem Part.checkEnd_checkEnded (origin : CheckFrom) (h : origin ≠ .startup) : (p.checkEnd origin).CheckEnded origin p := by
  let ended := p.modLoader fun l => { l with check := none }
  cases origin with
  | startup => exact absurd rfl h
  | opening => exact Part.checkEnd_opening_checkEnded
  | owed => exact Part.CheckEnded.of_owed nofun (Part.checkDropped_checkEnded .owed nofun) rfl
  | nudge =>
    have hloader : ended.writeOwed.scanTrigger.loader = { p.loader with check := none } := by simp [ended]
    have hrecords (i : NodeIx) : ended.writeOwed.scanTrigger.node i = p.node i := by
      have hwritten : ended.writeOwed.node i = p.node i :=
        foldl_relates (fun q p => q.node i = p.node i) rfl (fun h k => h.trans k) _ (fun q j => q.queueStatus_node j i false) _ _
      rw [← hwritten, Part.node, show ended.writeOwed.scanTrigger.table = ended.writeOwed.table by simp]
      rfl
    have hfaults : ended.writeOwed.scanTrigger.faults = p.faults := by simp [ended]
    refine Part.CheckEnded.of_owed (q := ended.writeOwed.scanTrigger) nofun ?_ hloader
    exact
      { ladder := by simp [ended]
        loader := by rw [hloader]
        record := fun i => by rw [hrecords]; exact ⟨rfl, rfl⟩
        windows := by simp [ended]
        images := by simp [ended]
        cause := by rw [hfaults]
        capture := by rw [hfaults]
        counters := by rw [hfaults]
        parked := by simp [ended]
        ready := nofun
        ended := fun _ => ⟨by rw [hloader],
          Part.scanTrigger_addsNoCheck.trans (Part.writeOwed_addsNoCheck.trans (.of_bus rfl))⟩ }

end

/-! ## What a check's end drops -/

section
variable {s : State} {f : Part → Part} {q : Part}

theorem Part.settle_loaderReady (hstart : q.ladder.state ≠ .starting) (hservice : q.ladder.state ≠ .heldService) :
    q.settle.sched.loaderReady = q.sched.loaderReady := by
  have hnode (p : Part) : p.settleNodeOpen.sched.loaderReady = p.sched.loaderReady := by
    unfold Part.settleNodeOpen
    dsimp only
    (repeat' split) <;> simp
  have hopen (p : Part) : p.settleParcelOpen.sched.loaderReady = p.sched.loaderReady := by
    unfold Part.settleParcelOpen Part.openScan Part.openPatience Part.openRewrites
    (repeat' split) <;> simp
  have hladder : q.settleNodeOpen.settleCheck.ladder = q.ladder := by simp
  unfold Part.settle
  rw [Part.settleStartup_of_waits _ fun u _ hs => hstart (by rw [← hladder]; exact hs.1), Part.settleService_of_works]
  · simp [hopen, hnode]
  · intro hs
    rw [show q.settleNodeOpen.settleCheck.settleParcelOpen.settleSnapshot.startAppend.ladder = q.ladder by simp] at hs
    exact absurd hs hservice

/-- What the end of a check that accepts nothing leaves, in `t`, of `p`. -/
structure Part.CheckDropped (origin : CheckFrom) (t p : Part) : Prop where
  accepted : t.loader.accepted = p.loader.accepted
  verdict : t.loader.verdict = p.loader.verdict
  settings : t.loader.settings = p.loader.settings
  record : ∀ i, (t.node i).applied = (p.node i).applied ∧ (t.node i).state = (p.node i).state
  windows : t.windows = p.windows
  images : t.images = p.images
  capture : t.faults.capture = p.faults.capture
  counted : t.counter .commitsAccepted = p.counter .commitsAccepted
  commit : t.hasCause .commit = p.hasCause .commit
  ready : origin = .opening → t.sched.loaderReady = true
  ended : origin = .opening ∨ p.loader.checkOwed = false →
    t.loader.check = none ∧ ∀ a ∈ t.requested, a.source = .loader → a ∈ p.requested

theorem State.act_checkEnded {origin : CheckFrom} {p : Part} (hf : f s.part = p.checkEnd origin) (horigin : origin ≠ .startup)
    (hstart : p.ladder.state ≠ .starting) (hservice : p.ladder.state ≠ .heldService) :
    (s.act f).part.CheckDropped origin p := by
  have h := Part.checkEnd_checkEnded (p := p) origin horigin
  have hstate : (p.checkEnd origin).ladder.state ≠ .starting := by rwa [h.ladder]
  have hws := State.act_workSettled hf (Part.startupWaits_of_notStarting hstate)
  refine
    { accepted := by rw [hws.accepted, h.loader]
      verdict := by rw [hws.verdict, h.loader]
      settings := by rw [hws.settings, h.loader]
      record := fun i => by rw [hws.node]; exact h.record i
      windows := hws.windows.trans h.windows
      images := hws.images.trans h.images
      capture := hws.capture.trans h.capture
      counted := by rw [hws.counter, Part.counter, h.counters]; rfl
      commit := ?_
      ready := fun ho => ?_
      ended := fun ho => ?_ }
  · rw [State.act_hasCause _ _ .commit (by decide), hf, Part.hasCause, h.cause]
    rfl
  · rw [State.act_sched, hf, Part.settle_loaderReady hstate (by rwa [h.ladder]), h.ready ho]
  · obtain ⟨hnone, hadds⟩ := h.ended ho
    have hnostate : (p.checkEnd origin).ladder.state ≠ .heldService := by rwa [h.ladder]
    refine ⟨?_, fun a ha hs => ?_⟩
    · rw [State.act_loader, hf, Part.settle_loader_of_other (Part.startupWaits_of_notStarting hstate) hnostate, hnone]
      rw [hnone]
      exact nofun
    · simp only [State.act] at ha
      rw [Part.arbitrate_mem, hf] at ha
      rcases List.mem_append.1 ha with hbus | hparked
      · exact List.mem_append_left _ (hadds a (Part.settle_addsNoCheck hstate hnostate hnone a hbus hs) hs)
      · rw [Part.settle_parked, h.parked] at hparked
        exact List.mem_append_right _ hparked

end

/-! ## The check's writes (R141, R143) -/

section
variable (p : Part)

/-- What the loader still owes the host stands. -/
def Part.KeepsOwed (q p : Part) : Prop :=
  q.loader.verdictOwed = p.loader.verdictOwed ∧ q.loader.generationOwed = p.loader.generationOwed

variable {p}

theorem Part.KeepsOwed.of_loader {q : Part} (h : q.loader = p.loader) : q.KeepsOwed p := ⟨by rw [h], by rw [h]⟩

theorem Part.KeepsOwed.trans {q r : Part} (h : r.KeepsOwed q) (k : q.KeepsOwed p) : r.KeepsOwed p :=
  ⟨h.1.trans k.1, h.2.trans k.2⟩

theorem Part.checkAt_keepsOwed (c : Check) : (p.checkAt c).KeepsOwed p := by
  rw [Part.KeepsOwed, Part.checkAt_loader]
  exact ⟨rfl, rfl⟩

theorem Part.endService_keepsOwed : p.endService.KeepsOwed p := by
  unfold Part.endService
  dsimp only
  split
  · exact (Part.checkAt_keepsOwed _).trans ⟨rfl, rfl⟩
  · exact .of_loader rfl

theorem Part.serviceNext_keepsOwed : p.serviceNext.KeepsOwed p := by
  have hname (q : Part) (i : NodeIx) : (q.serviceName i).KeepsOwed q := by
    unfold Part.serviceName
    split
    · exact .of_loader rfl
    · exact .of_loader (by simp)
  unfold Part.serviceNext
  split
  · exact Part.endService_keepsOwed
  split
  · exact hname p _
  split
  · exact Part.endService_keepsOwed
  split
  · dsimp only
    split
    · exact (hname p.newRound _).trans (.of_loader rfl)
    · exact (Part.endService_keepsOwed (p := p.newRound)).trans (.of_loader rfl)
  · exact .of_loader rfl

theorem Part.settle_keepsOwed : p.settle.KeepsOwed p := by
  have hstartup (q : Part) : q.settleStartup.KeepsOwed q := by
    unfold Part.settleStartup
    (repeat' split) <;> exact ⟨rfl, rfl⟩
  have hservice (q : Part) : q.settleService.KeepsOwed q := by
    unfold Part.settleService
    split
    · split
      · exact Part.endService_keepsOwed
      split
      · exact Part.serviceNext_keepsOwed.trans (.of_loader rfl)
      · exact .of_loader rfl
    · exact .of_loader rfl
  have hcheck (q : Part) : q.settleCheck.KeepsOwed q := by
    rw [Part.KeepsOwed, Part.settleCheck_loader]
    exact ⟨rfl, rfl⟩
  unfold Part.settle
  refine (hservice _).trans <| (Part.KeepsOwed.of_loader ?_).trans <| (hstartup _).trans <| (hcheck _).trans
    (.of_loader p.settleNodeOpen_loader)
  simp [Part.settleParcelOpen_units]

theorem Part.checkEnd_registers (origin : CheckFrom) : (p.checkEnd origin).faults.cause = p.faults.cause ∧
    (p.checkEnd origin).faults.capture = p.faults.capture ∧ (p.checkEnd origin).loader.verdictOwed = p.loader.verdictOwed := by
  by_cases h : origin = .startup
  · subst h
    exact ⟨rfl, rfl, rfl⟩
  · have hended := Part.checkEnd_checkEnded (p := p) origin h
    exact ⟨hended.cause, hended.capture, by rw [hended.loader]⟩

end

section
variable {p : Part} {c : Check}

theorem Part.report_hasFault (code : FaultCode) (detail : Half) : (p.report code detail).hasCause .fault = true := by
  rw [Part.report_hasCause]
  simp

theorem Part.report_hasCommit (code : FaultCode) (detail : Half) : (p.report code detail).hasCause .commit = p.hasCause .commit := by
  rw [Part.report_hasCause]
  simp

/-- What a failed write of the verdict or of the accepted generation leads to (R143, R141). -/
structure Part.WriteFailed (c : Check) (r p : Part) : Prop where
  owed : r.loader.verdictOwed = true
  verdict : r.loader.verdict = p.loader.verdict
  accepted : r.loader.accepted = p.loader.accepted
  commit : r.hasCause .commit = p.hasCause .commit
  capture : p.hasCause .fault = true → p.faults.capture.further = 0 →
    r.faults.capture = { p.faults.capture with
      further := if c.pos = .writeVerdict ∧ p.loader.verdict.code ≠ .accepted then 1 else 0 }

theorem Part.verdictFailed_writeFailed (hc : p.loader.check = some c) (hpos : c.pos = .writeVerdict ∨ c.pos = .writeGeneration) :
    p.verdictFailed.WriteFailed c p := by
  have hcheck : p.loader.check.map Check.pos = some c.pos := by rw [hc]; rfl
  rcases hpos with hpos | hpos
  · have heq : p.verdictFailed =
        if p.loader.verdict.code = .accepted then p.modLoader fun l => { l with verdictOwed := true, generationOwed := true }
        else (p.modLoader fun l => { l with verdictOwed := true }).reportRefused := by
      rw [Part.verdictFailed, hcheck, hpos]
    rw [heq]
    split
    next haccepted =>
      refine ⟨rfl, rfl, rfl, rfl, fun _ hfurther => ?_⟩
      rw [if_neg fun h => h.2 haccepted, ← hfurther]
      rfl
    next hrefused =>
      refine ⟨rfl, rfl, rfl, Part.report_hasCommit _ _, fun hfault hfurther => ?_⟩
      rw [if_pos ⟨hpos, hrefused⟩]
      change p.faults.capture.take (p.hasCause .fault) _ _ _ = _
      rw [hfault, Capture.take, if_pos rfl, hfurther]
      rfl
  · have heq : p.verdictFailed = p.modLoader fun l => { l with verdictOwed := true, generationOwed := true } := by
      rw [Part.verdictFailed, hcheck, hpos]
    rw [heq]
    refine ⟨rfl, rfl, rfl, rfl, fun _ hfurther => ?_⟩
    rw [if_neg (by rw [hpos]; rintro ⟨h, -⟩; cases h), ← hfurther]
    rfl

theorem Part.WriteFailed.of_registers {r t : Part} (h : r.WriteFailed c p) (howed : t.loader.verdictOwed = r.loader.verdictOwed)
    (hverdict : t.loader.verdict = r.loader.verdict) (haccepted : t.loader.accepted = r.loader.accepted)
    (hcause : t.faults.cause = r.faults.cause) (hcapture : t.faults.capture = r.faults.capture) : t.WriteFailed c p :=
  ⟨howed.trans h.owed, hverdict.trans h.verdict, haccepted.trans h.accepted, by rw [Part.hasCause, hcause]; exact h.commit,
    fun hf hz => hcapture.trans (h.capture hf hz)⟩

theorem Part.checkEnd_loader (origin : CheckFrom) : (p.checkEnd origin).loader =
    { p.loader with check := (p.checkEnd origin).loader.check, checkOwed := (p.checkEnd origin).loader.checkOwed } := by
  by_cases h : origin = .startup
  · subst h
    rfl
  · exact (Part.checkEnd_checkEnded origin h).loader

theorem Part.checkEnd_writeFailed {r : Part} (h : r.WriteFailed c p) (origin : CheckFrom) : (r.checkEnd origin).WriteFailed c p := by
  obtain ⟨hcause, hcapture, howed⟩ := Part.checkEnd_registers (p := r) origin
  have hloader := Part.checkEnd_loader (p := r) origin
  exact h.of_registers howed (by rw [hloader]) (by rw [hloader]) hcause hcapture

/-- A failed access of the loader at a write of the verdict or of the accepted generation, up to the hold check. -/
theorem Part.checkFailed_writeFailed (hc : p.loader.check = some c) (hpos : c.pos = .writeVerdict ∨ c.pos = .writeGeneration) :
    p.checkFailed.WriteFailed c p := by
  have heq : p.checkFailed = p.verdictFailed.checkEnd c.origin := by
    rw [Part.checkFailed, hc]
    dsimp only
    rcases hpos with h | h <;> rw [h]
  rw [heq]
  exact Part.checkEnd_writeFailed (Part.verdictFailed_writeFailed hc hpos) _

end

section
variable {s : State} {x : Access} {c : Check}

/-- The hold check leaves the loader, and outside a stopped RUN the registers. -/
theorem Part.holdCheckStopped_loader (p : Part) : p.holdCheckStopped.loader = p.loader := by
  have hjudge : p.judgeInRun.loader = p.loader := by
    unfold Part.judgeInRun
    (repeat' split) <;> rfl
  unfold Part.holdCheckStopped
  split
  · rw [← hjudge]
    rfl
  · rfl

theorem Part.holdCheckStopped_commit (p : Part) : p.holdCheckStopped.hasCause .commit = p.hasCause .commit := by
  unfold Part.holdCheckStopped
  split
  · have hjudge : p.judgeInRun.hasCause .commit = p.hasCause .commit := by
      unfold Part.judgeInRun
      (repeat' split) <;> first | rfl | exact Part.report_hasCommit _ _
    rw [← hjudge]
    rfl
  · rfl

theorem State.act_hasCommit (f : Part → Part) : (s.act f).part.hasCause .commit = (f s.part).hasCause .commit :=
  s.act_hasCause f .commit (by decide)

theorem Part.startupFail_writeFailed {p r : Part} (h : r.WriteFailed c p) : r.startupFail.WriteFailed c p :=
  h.of_registers rfl rfl rfl rfl rfl

/-- The access of a check's last writes fails (R143). -/
theorem exec_checkWriteFailed (hx : s.current = some x) (hsource : x.source = .loader) (hp : s.part.ladder.softPending = false)
    (hc : s.part.loader.check = some c) (hpos : c.pos = .writeVerdict ∨ c.pos = .writeGeneration) (dt : Nat) :
    ∃ t, exec (.memoryErrorResponse dt) s = .next t ∧ t.part.loader.verdictOwed = true ∧
      t.part.loader.verdict = s.part.loader.verdict ∧ t.part.loader.accepted = s.part.loader.accepted ∧
      t.part.hasCause .commit = s.part.hasCause .commit ∧
      (s.part.hasCause .fault = false → s.part.ladder.state ≠ .run ∨ s.part.sched.state ≠ .stopped →
        t.part.faults.capture.code = 1 ∧
        t.part.faults.capture.further =
          (if c.pos = .writeVerdict ∧ s.part.loader.verdict.code ≠ .accepted then 1 else 0)) := by
  let p := (s.offList s.mem).part.passTime dt
  let reported := p.report .memory (BitVec.ofNat 16 x.offset)
  let failed := if reported.ladder.state = .starting then reported.verdictFailed.startupFail else reported.checkFailed.holdCheckStopped
  let f : Part → Part := fun p => (p.passTime dt).accessFailed x
  have hexec : exec (.memoryErrorResponse dt) s = .next ((s.offList s.mem).act f) := by
    rw [exec_memoryErrorResponse, State.fail_of_current hx hp]
  have hf : f (s.offList s.mem).part = failed := by
    change p.accessFailed x = failed
    rw [Part.accessFailed, hsource]
    rfl
  have hcheck : reported.loader.check = some c := hc
  have hcommit : reported.hasCause .commit = s.part.hasCause .commit := Part.report_hasCommit _ _
  have hwrite : failed.loader.verdictOwed = true ∧ failed.loader.verdict = s.part.loader.verdict ∧
      failed.loader.accepted = s.part.loader.accepted ∧ failed.hasCause .commit = s.part.hasCause .commit ∧
      (s.part.ladder.state ≠ .run ∨ s.part.sched.state ≠ .stopped → failed.WriteFailed c reported) := by
    by_cases hstart : reported.ladder.state = .starting
    · have h := Part.startupFail_writeFailed (Part.verdictFailed_writeFailed hcheck hpos)
      rw [show failed = reported.verdictFailed.startupFail from if_pos hstart]
      exact ⟨h.owed, h.verdict, h.accepted, h.commit.trans hcommit, fun _ => h⟩
    · have h := Part.checkFailed_writeFailed hcheck hpos
      rw [show failed = reported.checkFailed.holdCheckStopped from if_neg hstart, Part.holdCheckStopped_loader,
        Part.holdCheckStopped_commit]
      refine ⟨h.owed, h.verdict, h.accepted, h.commit.trans hcommit, fun hnot => ?_⟩
      have hsame : reported.checkFailed.holdCheckStopped = reported.checkFailed := by
        refine if_neg fun ⟨hrun, hstopped, _⟩ => ?_
        have hsched : reported.checkFailed.sched.state = reported.sched.state := by
          obtain ⟨-, hstate, -⟩ := reported.checkFailed_keepsClock
          exact hstate
        rw [Part.checkFailed_ladder] at hrun
        rcases hnot with hnot | hnot
        · exact hnot (by rw [← hrun, Part.report_memory_ladder]; rfl)
        · exact hnot (by rw [← hstopped, hsched]; rfl)
      rwa [hsame]
  obtain ⟨howed, hverdict, haccepted, hfcommit, hcapture⟩ := hwrite
  obtain ⟨-, -, -, -, -, -, -, -, kcapture, -, -, -, -, -, -, -, -, -, -, -, -, -, -, -, -, -, -, -, -,
    -, -, -, -, -, kaccepted, -, kverdict⟩ := (s.offList s.mem).act_keeps f
  refine ⟨_, hexec, ?_, ?_, ?_, ?_, fun hfault hnot => ?_⟩
  · rw [State.act_loader, hf, Part.settle_keepsOwed.1, howed]
  · rw [kverdict, hf, hverdict]
  · rw [kaccepted, hf, haccepted]
  · rw [State.act_hasCommit, hf, hfcommit]
  · have htake : reported.faults.capture =
        { valid := true, code := 1, detail := BitVec.ofNat 16 x.offset, cycle := s.part.sched.cycle, further := 0 } := by
      change (p.report .memory (BitVec.ofNat 16 x.offset)).faults.capture = _
      rw [Part.report_capture, show p.hasCause .fault = false from hfault, Capture.take_of_clear]
      rfl
    have h := (hcapture hnot).capture (Part.report_hasFault _ _) (by rw [htake])
    rw [kcapture, hf, h, htake]
    exact ⟨rfl, rfl⟩

/-- The access of a check's last writes ends without error (R143, R141). -/
theorem exec_checkWritten (hx : s.current = some x) (hsource : x.source = .loader) (hp : s.part.ladder.softPending = false)
    (hc : s.part.loader.check = some c) (dt : Nat) :
    ∃ t, exec (.memoryAccessComplete none dt) s = .next t ∧
      (c.pos = .writeVerdict → s.part.loader.verdict.code = .accepted →
        t.part.asks { offset := 0x54, write := some s.part.loader.accepted, source := .loader }) ∧
      (c.pos = .writeVerdict → s.part.loader.verdict.code ≠ .accepted → t.part.hasCause .fault = true ∧
        t.part.hasCause .commit = s.part.hasCause .commit ∧
        (s.part.hasCause .fault = false → t.part.faults.capture.code = 3 ∧
          t.part.faults.capture.detail = s.part.loader.verdict.entry ++ s.part.loader.verdict.code.code)) ∧
      (c.pos = .writeGeneration → t.part.hasCause .commit = true) := by
  obtain ⟨f, hexec, hf⟩ := exec_loaderAccess hx hsource hp none dt
  let p := s.begun x none dt
  have hcheck : p.loader.check = some c := hc
  refine ⟨_, hexec, fun hpos haccepted => ?_, fun hpos hrefused => ?_, fun hpos => ?_⟩
  · have hnext : f (s.afterWord x none).part = p.checkAt { c with pos := .writeGeneration } := by
      rw [hf, Part.continueCheck, hcheck]
      dsimp only
      rw [hpos]
      exact if_pos haccepted
    refine State.act_asks _ _ ?_
    rw [hnext]
    exact List.mem_append_right _ (List.mem_singleton_self _)
  · have hnext : f (s.afterWord x none).part = p.reportRefused.checkEnd c.origin := by
      rw [hf, Part.continueCheck, hcheck]
      dsimp only
      rw [hpos]
      exact if_neg hrefused
    obtain ⟨hcause, hcapture, -⟩ := Part.checkEnd_registers (p := p.reportRefused) c.origin
    obtain ⟨-, -, -, -, -, -, -, -, kcapture, -⟩ := (s.afterWord x none).act_keeps f
    refine ⟨?_, ?_, fun hfault => ?_⟩
    · rw [State.act_hasCause _ _ .fault (by decide), hnext, Part.hasCause, hcause]
      exact Part.report_hasFault (p := p) _ _
    · rw [State.act_hasCommit, hnext, Part.hasCause, hcause]
      exact Part.report_hasCommit (p := p) _ _
    · rw [kcapture, hnext, hcapture]
      change (p.report .configRefused _).faults.capture.code = 3 ∧ (p.report .configRefused _).faults.capture.detail = _
      rw [Part.report_capture, show p.hasCause .fault = false from hfault, Capture.take_of_clear]
      exact ⟨rfl, rfl⟩
  · have hnext : f (s.afterWord x none).part = (p.setCause .commit).checkEnd c.origin := by
      rw [hf, Part.continueCheck, hcheck]
      dsimp only
      rw [hpos]
    obtain ⟨hcause, -⟩ := Part.checkEnd_registers (p := p.setCause .commit) c.origin
    rw [State.act_hasCommit, hnext, Part.hasCause, hcause]
    change (p.setCause .commit).hasCause .commit = true
    rw [Part.setCause_hasCause]
    simp

/-- The access of a check's rewrite of what is owed ends without error (R143). -/
theorem exec_checkRewritten (hx : s.current = some x) (hsource : x.source = .loader) (hp : s.part.ladder.softPending = false)
    (hc : s.part.loader.check = some c) (dt : Nat) :
    ∃ t, exec (.memoryAccessComplete none dt) s = .next t ∧
      (c.pos = .rewriteVerdict → s.part.loader.generationOwed = true ∨ s.part.loader.verdict.code = .accepted →
        t.part.loader.verdictOwed = s.part.loader.verdictOwed ∧
        t.part.asks { offset := 0x54, write := some s.part.loader.accepted, source := .loader }) ∧
      (c.pos = .rewriteVerdict → s.part.loader.generationOwed = false → s.part.loader.verdict.code ≠ .accepted →
        t.part.loader.verdictOwed = false) ∧
      (c.pos = .rewriteGeneration → t.part.loader.verdictOwed = false ∧
        (s.part.loader.verdict.code = .accepted → t.part.hasCause .commit = true)) := by
  obtain ⟨f, hexec, hf⟩ := exec_loaderAccess hx hsource hp none dt
  let p := s.begun x none dt
  have hcheck : p.loader.check = some c := hc
  have howed (q : Part) (hq : f (s.afterWord x none).part = q) :
      ((s.afterWord x none).act f).part.loader.verdictOwed = q.loader.verdictOwed := by
    rw [State.act_loader, hq]
    exact Part.settle_keepsOwed.1
  refine ⟨_, hexec, fun hpos hgeneration => ?_, fun hpos hgeneration hrefused => ?_, fun hpos => ?_⟩
  · have hnext : f (s.afterWord x none).part = p.checkAt { c with pos := .rewriteGeneration } := by
      rw [hf, Part.continueCheck, hcheck]
      dsimp only
      rw [hpos]
      refine if_pos ?_
      change (s.part.loader.generationOwed || s.part.loader.verdict.code == .accepted) = true
      rcases hgeneration with h | h <;> simp [h]
    refine ⟨(howed _ hnext).trans (Part.checkAt_keepsOwed _).1, State.act_asks _ _ ?_⟩
    rw [hnext]
    exact List.mem_append_right _ (List.mem_singleton_self _)
  · have hnext : f (s.afterWord x none).part =
        (p.modLoader fun l => { l with verdictOwed := false }).checkAt { c with pos := .readGeneration } := by
      rw [hf, Part.continueCheck, hcheck]
      dsimp only
      rw [hpos]
      refine if_neg ?_
      change ¬ (s.part.loader.generationOwed || s.part.loader.verdict.code == .accepted) = true
      simp [hgeneration, hrefused]
    exact (howed _ hnext).trans (Part.checkAt_keepsOwed _).1
  · let cleared := p.modLoader fun l => { l with verdictOwed := false, generationOwed := false }
    have hnext : f (s.afterWord x none).part =
        (if cleared.loader.verdict.code = .accepted then cleared.setCause .commit else cleared).checkAt
          { c with pos := .readGeneration } := by
      rw [hf, Part.continueCheck, hcheck]
      dsimp only
      rw [hpos]
    refine ⟨(howed _ hnext).trans ((Part.checkAt_keepsOwed _).1.trans ?_), fun haccepted => ?_⟩
    · split <;> rfl
    · rw [State.act_hasCommit, hnext, Part.hasCause, Part.checkAt_faults,
        if_pos (show cleared.loader.verdict.code = .accepted from haccepted)]
      change (cleared.setCause .commit).hasCause .commit = true
      rw [Part.setCause_hasCause]
      simp

end

/-! ## The generation word read (R135, R136) -/

section
variable {s : State} {x : Access} {c : Check} {host : Option Word} {dt : Nat} {g : Word}

/-- A read of the loader is asked for and the check waits for it. -/
theorem State.act_checkAt {f : Part → Part} {p : Part} {c : Check} (hf : f s.part = p.checkAt c)
    (hservice : p.ladder.state ≠ .heldService) (hpos : c.pos ≠ .awaitStatus) :
    (s.act f).part.loader = { p.loader with check := some c } := by
  have hloader : (p.checkAt c).loader = { p.loader with check := some c } := p.checkAt_loader c
  rw [State.act_loader, hf, Part.settle_loader_of_other, hloader]
  · exact Part.startupWaits_of_checks (by rw [hloader]; rfl)
  · simpa using hservice
  · rw [hloader]
    rintro c' hc'
    cases hc'
    exact hpos

/-- A check's end leaves, of the state before its last access, all but whether the generation word stands refused. -/
theorem Part.CheckDropped.of_begun {origin : CheckFrom} {t q : Part} (h : t.CheckDropped origin q)
    (hq : q = { s.begun x host dt with loader := q.loader })
    (hloader : q.loader = { s.part.loader with refused := q.loader.refused }) : t.CheckDropped origin s.part where
  accepted := h.accepted.trans (by rw [hloader])
  verdict := h.verdict.trans (by rw [hloader])
  settings := h.settings.trans (by rw [hloader])
  record i := by
    have hrecord := h.record i
    rw [hq] at hrecord
    exact hrecord
  windows := h.windows.trans (by rw [hq]; rfl)
  images := h.images.trans (by rw [hq]; rfl)
  capture := h.capture.trans (by rw [hq]; rfl)
  counted := h.counted.trans (by rw [hq]; rfl)
  commit := h.commit.trans (by rw [hq]; rfl)
  ready := h.ready
  ended ho := by
    obtain ⟨hnone, hlist⟩ := h.ended (ho.imp_right fun h => by rw [hloader]; exact h)
    refine ⟨hnone, fun a ha hs => ?_⟩
    have hmem := hlist a ha hs
    rw [hq] at hmem
    exact (List.append_subset.2 ⟨fun a h => List.mem_append_left _ (List.mem_of_mem_tail h), List.subset_append_right _ _⟩) hmem

theorem State.act_checkEnded_refused {f : Part → Part} {p : Part} {origin : CheckFrom} (hf : f s.part = p.checkEnd origin) :
    (s.act f).part.loader.refused = p.loader.refused := by
  obtain ⟨-, -, -, -, -, -, -, -, -, -, -, -, -, -, -, -, -, -, -, -, -, -, -, -, -, -, -, -, -, -, -, -, -, -, -, hrefused, -⟩ :=
    s.act_keeps f
  rw [hrefused, hf, Part.checkEnd_loader]

/-- The generation word has been read and asks for nothing new (R135). -/
theorem exec_generationKnown (hx : s.current = some x) (hsource : x.source = .loader) (hp : s.part.ladder.softPending = false)
    (hservice : s.part.ladder.state ≠ .heldService) (hc : s.part.loader.check = some c) (hpos : c.pos = .readGeneration)
    (hg : g = s.wordOf x host) (horigin : c.origin ≠ .startup) (hstart : s.part.ladder.state ≠ .starting)
    (hknown : g = s.part.loader.accepted ∨ s.part.loader.refused = some g) :
    ∃ t, exec (.memoryAccessComplete host dt) s = .next t ∧ t.part.CheckDropped c.origin s.part ∧
      t.part.loader.refused = if g = s.part.loader.accepted then none else some g := by
  obtain ⟨f, hexec, hf⟩ := exec_loaderAccess hx hsource hp host dt
  obtain ⟨q, hread, hq, hloader⟩ := Part.generationRead_of_known (p := s.begun x host dt) horigin hknown
  have hcheck : (s.begun x host dt).loader.check = some c := hc
  have hnext : f (s.afterWord x host).part = q.checkEnd c.origin := by
    rw [hf, Part.continueCheck, hcheck]
    dsimp only
    rw [hpos, ← hg, hread]
  have hladder : q.ladder = s.part.ladder := by rw [hq]; rfl
  have hdropped := State.act_checkEnded hnext horigin (by rwa [hladder]) (by rwa [hladder])
  refine ⟨_, hexec, hdropped.of_begun hq ?_, ?_⟩
  · rw [hloader]
    rfl
  · rw [State.act_checkEnded_refused hnext, hloader]
    rfl

/-- The generation word has been read and asks for the directory (R135, R144). -/
theorem exec_generationNew (hx : s.current = some x) (hsource : x.source = .loader) (hp : s.part.ladder.softPending = false)
    (hservice : s.part.ladder.state ≠ .heldService) (hc : s.part.loader.check = some c) (hpos : c.pos = .readGeneration)
    (hg : g = s.wordOf x host) (hnew : c.origin = .startup ∨ g ≠ s.part.loader.accepted ∧ s.part.loader.refused ≠ some g) :
    ∃ t, exec (.memoryAccessComplete host dt) s = .next t ∧
      t.part.loader =
        { s.part.loader with check := some { origin := c.origin, pos := .readDirectory, generation := g, words := [] } } ∧
      t.part.asks { offset := 0x100, write := none, source := .loader } := by
  obtain ⟨f, hexec, hf⟩ := exec_loaderAccess hx hsource hp host dt
  let p := s.begun x host dt
  have hcheck : p.loader.check = some c := hc
  have hread : p.generationRead c g = p.checkAt { c with pos := .readDirectory, generation := g, words := [] } := by
    rw [Part.generationRead]
    rcases hnew with h | ⟨h, h'⟩
    · rw [if_pos h]
    · rw [if_neg (show ¬ g = p.loader.accepted from h), if_neg (show ¬ p.loader.refused = some g from h'), ite_self]
  have hnext : f (s.afterWord x host).part = p.checkAt { c with pos := .readDirectory, generation := g, words := [] } := by
    rw [hf, Part.continueCheck, hcheck]
    dsimp only
    rw [hpos, ← hg, hread]
  refine ⟨_, hexec, (State.act_checkAt hnext hservice nofun).trans rfl, State.act_asks _ _ ?_⟩
  rw [hnext]
  exact List.mem_append_right _ (List.mem_singleton_self _)

/-- A second generation read that differs from the first (R136). -/
theorem exec_generationChanged (hx : s.current = some x) (hsource : x.source = .loader) (hp : s.part.ladder.softPending = false)
    (hservice : s.part.ladder.state ≠ .heldService) (hc : s.part.loader.check = some c) (hpos : c.pos = .rereadGeneration)
    (hg : g = s.wordOf x host) (hdiffers : g ≠ c.generation) :
    ∃ t, exec (.memoryAccessComplete host dt) s = .next t ∧
      (c.origin ≠ .startup → s.part.ladder.state ≠ .starting →
        t.part.CheckDropped c.origin s.part ∧ t.part.loader.refused = s.part.loader.refused) ∧
      (c.origin = .startup →
        t.part.loader = { s.part.loader with check := some { c with pos := .readGeneration, words := [] } } ∧
        t.part.asks { offset := 0x04, write := none, source := .loader }) := by
  obtain ⟨f, hexec, hf⟩ := exec_loaderAccess hx hsource hp host dt
  let p := s.begun x host dt
  have hcheck : p.loader.check = some c := hc
  have hstep : f (s.afterWord x host).part =
      if c.origin = .startup then p.checkAt { c with pos := .readGeneration, words := [] } else p.checkEnd c.origin := by
    rw [hf, Part.continueCheck, hcheck]
    dsimp only
    rw [hpos, ← hg]
    exact if_neg hdiffers
  refine ⟨_, hexec, fun horigin hstart => ?_, fun horigin => ?_⟩
  · rw [if_neg horigin] at hstep
    exact ⟨(State.act_checkEnded hstep horigin hstart hservice).of_begun rfl rfl, (State.act_checkEnded_refused hstep).trans rfl⟩
  · rw [if_pos horigin] at hstep
    refine ⟨(State.act_checkAt hstep hservice nofun).trans rfl, State.act_asks _ _ ?_⟩
    rw [hstep]
    exact List.mem_append_right _ (List.mem_singleton_self _)

end

/-! ## The directory judged -/

section
variable {s : State} {x : Access} {c : Check} {dt : Nat}

/-- The second generation read ends with the word of the first: the copy is judged, or kept at rest. -/
theorem exec_copyRead (hx : s.current = some x) (hsource : x.source = .loader) (hwrite : x.write = none)
    (hp : s.part.ladder.softPending = false) (hc : s.part.loader.check = some c) (hpos : c.pos = .rereadGeneration)
    (hg : s.mem.readWord (busAddress s.port.area x.offset) = c.generation) :
    ∃ f : Part → Part, exec (.memoryAccessComplete none dt) s = .next ((s.afterWord x none).act f) ∧
      f (s.afterWord x none).part =
        if s.part.ladder.state.pauses then (s.begun x none dt).checkAt { c with pos := .awaitHeld }
        else (s.begun x none dt).judgeCopy c := by
  obtain ⟨f, hexec, hf⟩ := exec_loaderAccess hx hsource hp none dt
  have hcheck : (s.begun x none dt).loader.check = some c := hc
  have hword : s.wordOf x none = c.generation := by
    rw [← hg, State.wordOf, Access.memAfter_of_read x hwrite]
    rw [Access.value, hwrite]
  refine ⟨f, hexec, ?_⟩
  rw [hf, Part.continueCheck, hcheck]
  dsimp only
  rw [hpos, hword]
  exact if_pos rfl

theorem WindowSize.ofSlots_slots {n : Nat} {w : WindowSize} (h : WindowSize.ofSlots n = some w) : w.slots = n := by
  unfold WindowSize.ofSlots at h
  split at h
  next hn => cases h; exact hn.symm
  split at h
  next hn => cases h; exact hn.symm
  split at h
  next hn => cases h; exact hn.symm
  split at h
  next hn => cases h; exact hn.symm
  split at h
  next hn => cases h; exact hn.symm
  cases h

theorem initialWindow_slots {d : Directory} {a : Option LineSettings} (h : (judge d a).code = .accepted) (w : WindowSize) :
    ((WindowSize.ofSlots d.settings.initialWindow).getD w).slots = d.settings.initialWindow := by
  have hline := (judge_accepted_passes h).1.line
  unfold LineSettings.inRange at hline
  simp only [Bool.and_eq_true] at hline
  obtain ⟨⟨⟨⟨⟨-, hsome⟩, -⟩, -⟩, -⟩, -⟩ := hline
  obtain ⟨w', hw'⟩ := Option.isSome_iff_exists.1 hsome
  rw [hw']
  exact WindowSize.ofSlots_slots hw'

/-- A refused directory's loader after the event (R141). -/
theorem State.act_refuseCommit {f : Part → Part} {p : Part} {v : Verdict} (hf : f s.part = p.refuseCommit c v) :
    (s.act f).part.WorkSettled (p.refuseCommit c v) ∧
      (s.act f).part.asks { offset := 0x58, write := some v.word, source := .loader } := by
  refine ⟨State.act_workSettled hf (Part.startupWaits_of_checks rfl), State.act_asks _ _ ?_⟩
  rw [hf, Part.refuseCommit_eq]
  exact List.mem_append_right _ (List.mem_singleton_self _)

theorem State.act_acceptCommit {f : Part → Part} {p : Part} {d : Directory} {v : Verdict} (hf : f s.part = p.acceptCommit d c v) :
    (s.act f).part.WorkSettled (p.acceptCommit d c v) :=
  State.act_workSettled hf (Part.startupWaits_of_checks (by rw [(Part.acceptCommit_committed d c v).loader]; rfl))

theorem Part.statusStep_last_writes {p : Part} {w : StatusWrite} {rest : List StatusWrite} (h : p.table.writes = w :: rest) :
    (p.statusStep 3).table.writes = rest := by
  have hnext (q : Part) : (q.nextStatus w).table.writes = q.table.writes.drop 1 := by
    unfold Part.nextStatus
    dsimp only
    split <;> simp
  rw [Part.statusStep, h]
  dsimp only
  rw [if_neg (by decide), hnext]
  split <;> exact congrArg (List.drop 1) h

theorem Part.settleNodeOpen_of_notOpening {p : Part} (h : p.sched.state ≠ .opening) : p.settleNodeOpen = p := by
  simp [Part.settleNodeOpen, h]

/-- The last status record's write ends while a check waits for it (R143). -/
theorem exec_statusEnds {w : StatusWrite} (hx : s.current = some x) (hsource : x.source = .status 3)
    (hp : s.part.ladder.softPending = false) (hservice : s.part.ladder.state ≠ .heldService) (hc : s.part.loader.check = some c)
    (hpos : c.pos = .awaitStatus) (hw : s.part.table.writes = [w]) (hopening : s.part.sched.state ≠ .opening) :
    ∃ t, exec (.memoryAccessComplete none dt) s = .next t ∧ t.part.loader.check = some { c with pos := .writeVerdict } ∧
      t.part.asks { offset := 0x58, write := some s.part.loader.verdict.word, source := .loader } := by
  let f : Part → Part := fun p => (p.passTime dt).accessDone x.source (x.value s.port.area (x.memAfter s.port.area none s.mem))
  let p := s.begun x none dt
  let written := p.statusStep 3
  have hf : f (s.afterWord x none).part = written := by
    change p.accessDone x.source _ = _
    rw [hsource]
    rfl
  have hwritten : written.ladder = p.ladder ∧ written.loader = p.loader ∧ written.sched = p.sched := by simp [written]
  obtain ⟨hladder, hloader, hsched⟩ := hwritten
  have hwrites : written.table.writes = [] := by
    exact Part.statusStep_last_writes (p := p) hw
  have hopen : written.settleNodeOpen = written := Part.settleNodeOpen_of_notOpening (by rw [hsched]; exact hopening)
  obtain ⟨c', hcheck, -, -, hbegins⟩ :=
    State.act_awaits (s := s.afterWord x none) hf (by rwa [hladder]) (by rw [hloader]; exact hc) hpos
  have hsettled : ((s.afterWord x none).act f).part.table.writes = [] := by
    rw [State.act_table, hf, (Part.settle_loader_of_works _ _).2.1, hopen, hwrites]
    · exact Part.startupWaits_of_checks (by rw [hloader]; exact congrArg Option.isSome hc)
    · rwa [hladder]
  obtain ⟨rfl, hasks⟩ := hbegins hsettled
  rw [hloader] at hasks
  exact ⟨_, exec_memoryAccessComplete_of_current hx hp none dt, hcheck, hasks⟩

/-- HELD is entered on the rouse timer's expiry: a directory read at rest is judged (R142; log 37). -/
theorem State.act_rouse_judges {d : Directory} {j : Judgement} (hrouse : s.part.ladder.state = .rousing)
    (hc : s.part.loader.check = some c) (hpos : c.pos = .awaitHeld) (hd : d = directoryOf c.words.reverse) (hj : j = judge d none) :
    ∃ p : Part, p.loader = s.part.loader ∧
      (j.code ≠ .accepted → s.part.rouseExpired = p.refuseCommit c (j.verdict c.generation)) ∧
      (j.code = .accepted → s.part.rouseExpired = p.acceptCommit d c (j.verdict c.generation)) := by
  let resumed := s.part.roused.resumeParcels
  have hloader : resumed.loader = s.part.loader := by
    obtain ⟨-, -, -, -, -, -, -, hloader, -⟩ := s.part.roused.resumeParcels_keepsOffParcels
    exact hloader
  have hladder : resumed.ladder.state = .held := by
    obtain ⟨hladder, -⟩ := s.part.roused.resumeParcels_keepsOffParcels
    rw [show resumed.ladder = _ from hladder, Part.roused_ladder]
  have hjudged : s.part.rouseExpired = resumed.judgeCopy c := by
    have hcheck : s.part.roused.resumeParcels.loader.check = some c := (congrArg Loader.check hloader).trans hc
    rw [Part.rouseExpired_eq, Part.judgeKept, hcheck]
    exact if_pos hpos
  have hnone : j = judge d (if resumed.ladder.state = .run then some resumed.loader.settings else none) := by
    rw [hladder]
    exact hj
  exact ⟨resumed, hloader, fun h => hjudged.trans (Part.judgeCopy_of_refused hd hnone h),
    fun h => hjudged.trans (Part.judgeCopy_of_accepted hd hnone h)⟩

theorem exec_rouseTimerExpiry (hrouse : s.part.ladder.state = .rousing) (htimer : s.part.ladder.rouse.isSome = true) :
    exec .rouseTimerExpiry s = .next (s.act Part.rouseExpired) := by
  change execRouseTimerExpiry s = _
  rw [execRouseTimerExpiry, State.actIf, if_pos (by rw [hrouse, htimer]; rfl)]

end

/-- Settles O60: the generation word read twice, the directory judged, a commit handed to the units, and the check's writes. -/
theorem commitJudged : Obligations.CommitJudged := by
  refine ⟨fun s x c host dt g hx hsource hp hservice hc hpos hg => ?read,
    fun s x c host dt g hx hsource hp hservice hc hpos hg hdiffers => ?changed,
    fun s x c dt d j hx hsource hwrite hp hc hpos hg hruns hd hj => ?judged,
    fun s x c dt hx hsource hwrite hp hc hpos hg hrests => ?rests,
    fun s c d j hrouse htimer hc hpos hd hj => ?roused,
    fun s x c w dt hx hsource hp hservice hc hpos hw hopening => exec_statusEnds hx hsource hp hservice hc hpos hw hopening,
    fun s x c dt hx hsource hp hc hpos =>
      ⟨exec_checkWritten hx hsource hp hc dt, exec_checkWriteFailed hx hsource hp hc hpos dt⟩,
    fun s x c dt hx hsource hp hc _ => exec_checkRewritten hx hsource hp hc dt⟩
  case read =>
    have hexec := exec_memoryAccessComplete_of_current hx hp host dt
    refine ⟨_, hexec, fun horigin hstart hknown => ?_, fun hnew => ?_⟩
    · obtain ⟨t, ht, h, hrefused⟩ := exec_generationKnown (dt := dt) hx hsource hp hservice hc hpos hg horigin hstart hknown
      cases hexec.symm.trans ht
      exact ⟨⟨h.accepted, h.verdict, h.settings, h.record, h.windows, h.images, h.capture, h.counted, h.commit, h.ready, h.ended⟩,
        hrefused⟩
    · obtain ⟨t, ht, hloader, hasks⟩ := exec_generationNew (dt := dt) hx hsource hp hservice hc hpos hg hnew
      cases hexec.symm.trans ht
      exact ⟨hloader, hasks⟩
  case changed =>
    obtain ⟨t, hexec, hdropped, hagain⟩ := exec_generationChanged (dt := dt) hx hsource hp hservice hc hpos hg hdiffers
    refine ⟨t, hexec, fun horigin hstart => ?_, hagain⟩
    obtain ⟨h, hrefused⟩ := hdropped horigin hstart
    exact ⟨⟨h.accepted, h.verdict, h.settings, h.record, h.windows, h.images, h.capture, h.counted, h.commit, h.ready, h.ended⟩,
      hrefused⟩
  case judged =>
    intro new old created lowered kept cleared
    obtain ⟨f, hexec, hf⟩ := exec_copyRead (dt := dt) hx hsource hwrite hp hc hpos hg
    rw [if_neg (by rw [hruns]; decide)] at hf
    let p := s.begun x none dt
    have hcreated (i : NodeIx) : created i ↔ recreates (p.node i).applied (d.entries.get i).applied = true :=
      (recreates_iff _ _).symm
    have hlowered (i : NodeIx) : lowered i ↔ (p.node i).limitReached (d.entries.get i).applied = true :=
      ((p.node i).limitReached_iff _).symm
    by_cases haccepted : j.code = .accepted
    · have hnext := hf.trans (Part.judgeCopy_of_accepted (p := p) hd hj haccepted)
      have hq := Part.acceptCommit_committed (p := p) d c (j.verdict c.generation)
      have ht := State.act_acceptCommit hnext
      refine ⟨_, hexec, by rw [ht.verdict, hq.loader], fun h => absurd haccepted h, fun _ => ?_⟩
      refine ⟨by rw [ht.settings, hq.loader], hq.applied_after ht, by rw [ht.accepted, hq.loader], by rw [ht.refused, hq.loader],
        ?_, by rw [ht.windows, hq.windows], by rw [ht.windows, hq.windows], by rw [ht.windows, hq.windows],
        (ht.counter _).trans hq.counter, fun i h => hq.disabled_after ht i h,
        fun i h => hq.created_after ht i ((hcreated i).1 h), fun i hk hl => ?_, fun i hk hl => ?_,
        fun i => hq.changeCount_after ht i, fun i _ hstart => hq.writes_after ht i hstart, fun k => ?_, fun hnodup e he hgone => ?_,
        fun hservice => ?_⟩
      · rw [ht.windows, hq.windows]
        exact initialWindow_slots (by rw [← hj]; exact haccepted) _
      · exact hq.lowered_after ht i hk.1 (fun h => hk.2 ((hcreated i).2 h)) ((hlowered i).1 hl)
      · exact hq.kept_after ht i hk.1 (fun h => hk.2 ((hcreated i).2 h)) (fun h => hl ((hlowered i).2 h))
      · have hbefore (i : NodeIx) : (old i).enabled = true ∧ ((new i).enabled = false ∨ created i) ↔
            (p.node i).losesBefore (d.entries.get i).applied = true :=
          (and_congr_right fun _ => or_congr_right (hcreated i)).trans ((p.node i).losesBefore_iff _).symm
        have hafter (i : NodeIx) : created i ∨ kept i ∧ lowered i ↔
            (p.node i).losesAfter (d.entries.get i).applied = true :=
          (or_congr (hcreated i) (and_congr (and_congr_right fun _ => not_congr (hcreated i)) Iff.rfl)).trans
            ((p.node i).losesAfter_iff _).symm
        exact ((hq.zeroed k).of_images ht.images).congr (or_comm.trans (or_congr (or_congr
          (exists_congr fun i => and_assoc.symm.trans (and_congr_left' (hbefore i)))
          (exists_congr fun i => and_congr_left' (hafter i))) Iff.rfl))
      · obtain ⟨f, hf, hslot, ⟨hfinal, howed⟩, houtcome, hunavailable⟩ := hq.lost_after ht hnodup he hgone
        exact ⟨f, hf, hslot, hfinal, howed, houtcome, hunavailable⟩
      · obtain ⟨c', hcheck, horigin, hwaits, hbegins⟩ := State.act_awaits hnext (by rw [hq.ladder]; exact hservice)
          (by rw [hq.loader]) rfl
        refine ⟨c', hcheck, horigin, fun h => by rw [hwaits h], fun h => ?_⟩
        obtain ⟨hpos', hasks⟩ := hbegins h
        rw [hq.loader] at hasks
        exact ⟨by rw [hpos'], hasks⟩
    · have hnext := hf.trans (Part.judgeCopy_of_refused (p := p) hd hj haccepted)
      obtain ⟨ht, hasks⟩ := State.act_refuseCommit hnext
      rw [Part.refuseCommit_eq] at ht
      exact ⟨_, hexec, ht.verdict, fun _ =>
        ⟨ht.settings, ht.records, ht.accepted, ht.refused, ht.windows, ht.images, ht.counters, hasks⟩, fun h => absurd h haccepted⟩
  case rests =>
    obtain ⟨f, hexec, hf⟩ := exec_copyRead (dt := dt) hx hsource hwrite hp hc hpos hg
    rw [if_pos hrests] at hf
    refine ⟨_, hexec, (State.act_checkAt hf ?_ nofun).trans rfl⟩
    intro h
    rw [show s.part.ladder.state = _ from h] at hrests
    cases hrests
  case roused =>
    obtain ⟨p, hloader, hrefuse, haccept⟩ := State.act_rouse_judges hrouse hc hpos hd hj
    obtain ⟨hq, hladder, -⟩ := s.act_rouseExpired hrouse
    have hstate : s.part.rouseExpired.ladder.state = .held := by rw [hladder]
    refine ⟨_, exec_rouseTimerExpiry hrouse htimer, by rw [hq.ladder, hstate], ?_⟩
    by_cases haccepted : j.code = .accepted
    · have hcommitted := Part.acceptCommit_committed (p := p) d c (j.verdict c.generation)
      have ht := State.act_acceptCommit (haccept haccepted)
      exact ⟨by rw [ht.verdict, hcommitted.loader], fun h => absurd haccepted h, fun _ =>
        ⟨by rw [ht.settings, hcommitted.loader], by rw [ht.accepted, hcommitted.loader], hcommitted.applied_after ht⟩⟩
    · obtain ⟨ht, -⟩ := State.act_refuseCommit (hrefuse haccepted)
      rw [Part.refuseCommit_eq] at ht
      exact ⟨ht.verdict, fun _ => ⟨ht.settings.trans (show p.loader.settings = _ by rw [hloader]), ht.refused,
        ht.accepted.trans (show p.loader.accepted = _ by rw [hloader])⟩, fun h => absurd h haccepted⟩

end Sys2Proof.Machine
end

section
/-! SUPPORT. The image unit's accesses and the close (R67, R69, R74 to R78): the fill bank, the words of a close, and how an access of the
image unit goes on. -/

namespace Sys2Proof.Machine

/-! ## What follows an event leaves the image unit's readiness -/

section
variable (p : Part)

theorem Part.settleNodeOpen_imageReady : p.settleNodeOpen.sched.imageReady = p.sched.imageReady := by
  unfold Part.settleNodeOpen
  split <;> dsimp only <;> split <;> simp

theorem Part.settleStartup_imageReady : p.settleStartup.sched.imageReady = p.sched.imageReady := by
  unfold Part.settleStartup
  (repeat' split) <;> simp [Part.startupFail]

theorem Part.settleParcelOpen_imageReady : p.settleParcelOpen.sched.imageReady = p.sched.imageReady := by
  unfold Part.settleParcelOpen Part.openRewrites Part.openPatience Part.openScan
  (repeat' split) <;> simp

theorem Part.giveFetch_imageReady (i : NodeIx) : (p.giveFetch i).sched.imageReady = p.sched.imageReady := by simp [Part.giveFetch]

theorem Part.serviceName_imageReady (i : NodeIx) : (p.serviceName i).sched.imageReady = p.sched.imageReady := by
  unfold Part.serviceName Part.serveNode
  split <;> simp [Part.giveFetch_imageReady]

theorem Part.endService_imageReady : p.endService.sched.imageReady = p.sched.imageReady := by
  unfold Part.endService
  dsimp only
  split <;> simp

theorem Part.serviceNext_imageReady : p.serviceNext.sched.imageReady = p.sched.imageReady := by
  unfold Part.serviceNext
  dsimp only
  (repeat' split) <;> simp [Part.serviceName_imageReady, Part.endService_imageReady]

theorem Part.settleService_imageReady : p.settleService.sched.imageReady = p.sched.imageReady := by
  unfold Part.settleService
  (repeat' split) <;> simp [Part.serviceNext_imageReady, Part.endService_imageReady]

theorem Part.settle_imageReady : p.settle.sched.imageReady = p.sched.imageReady := by
  simp [Part.settle, Part.settleService_imageReady, Part.settleParcelOpen_imageReady, Part.settleStartup_imageReady,
    Part.settleNodeOpen_imageReady]

end

theorem State.act_imageReady (s : State) (f : Part → Part) : (s.act f).part.sched.imageReady = (f s.part).sched.imageReady := by
  rw [State.act_sched, Part.settle_imageReady]

/-! ## The hold check after a failed access -/

section
variable (p : Part)

theorem Part.report_divisor (code : FaultCode) (detail : Half) :
    (p.report code detail).faults.divisorCount = p.faults.divisorCount ∧
      (p.report code detail).faults.divisorDue = p.faults.divisorDue := by
  unfold Part.report Part.noteMemoryError
  split <;> exact ⟨rfl, rfl⟩

theorem Part.judgeInRun_keepsOff :
    p.judgeInRun.images = p.images ∧ p.judgeInRun.sched = p.sched ∧ p.judgeInRun.bus = p.bus ∧
      p.judgeInRun.faults.divisorCount = p.faults.divisorCount ∧ p.judgeInRun.faults.divisorDue = p.faults.divisorDue := by
  unfold Part.judgeInRun
  (repeat' split) <;> simp [Part.skipRequest, Part.emptySlot, Part.report_divisor]

/-- Leaving RUN over a failed access touches none of the image unit's work. -/
theorem Part.holdCheckStopped_keepsOff :
    p.holdCheckStopped.images = p.images ∧ p.holdCheckStopped.sched.imageReady = p.sched.imageReady ∧
      p.holdCheckStopped.Extends p ∧ p.holdCheckStopped.faults.divisorCount = p.faults.divisorCount ∧
      p.holdCheckStopped.faults.divisorDue = p.faults.divisorDue := by
  unfold Part.holdCheckStopped
  split
  · obtain ⟨himages, hsched, hbus, hcount, hdue⟩ := p.judgeInRun_keepsOff
    let q := p.judgeInRun
    have hleft : (q.leaveRun (p.ladder.pending == some .hold)).bus =
        q.bus ++ q.parked ++ [{ offset := 0x40, write := some (stateWord .held q.ladder.startCount), source := .stateWord }] := by
      rw [Part.leaveRun, Part.writeState_bus]
      rfl
    refine ⟨himages, show q.sched.imageReady = _ by rw [hsched], ?_, hcount, hdue⟩
    rw [Part.Extends, hleft, hbus, List.append_assoc]
    exact List.prefix_append _ _
  · exact ⟨rfl, rfl, .rfl, rfl, rfl⟩

theorem Part.holdCheckStopped_of_cycle (h : p.sched.state ≠ .stopped) : p.holdCheckStopped = p := if_neg fun hrun => h hrun.2.1

end

/-! ## The access in progress ends, without and with an error -/

section
variable {s : State} {x : Access}

/-- Each completion of the access in progress is the step of its block on the list without it. -/
theorem exec_accessEnds (hx : s.current = some x) (hp : s.part.ladder.softPending = false) (host : Option Word) (dt : Nat) :
    ∃ f : Part → Part, exec (.memoryAccessComplete host dt) s = .next ((s.afterWord x host).act f) ∧
      f (s.afterWord x host).part = (s.begun x host dt).accessDone x.source (s.wordOf x host) :=
  ⟨_, exec_memoryAccessComplete_of_current hx hp host dt, rfl⟩

theorem completeIf_ends (hx : s.current = some x) (hp : s.part.ladder.softPending = false) {mine : Access → Bool}
    (hmine : mine x = true) (host : Option Word) (dt : Nat) :
    ∃ f : Part → Part, s.completeIf mine host dt = (s.afterWord x host).act f ∧
      f (s.afterWord x host).part = (s.begun x host dt).accessDone x.source (s.wordOf x host) :=
  ⟨_, State.completeIf_of_current hx hp hmine host dt, rfl⟩

theorem Part.accessFailed_of_notStarting {p : Part} (h : p.ladder.state ≠ .starting) (a : Access) :
    p.accessFailed a = ((p.report .memory (BitVec.ofNat 16 a.offset)).blockFailed a.source).holdCheckStopped := by
  rw [Part.accessFailed, if_neg (by rwa [Part.report_memory_ladder])]

/-- An error response outside STARTING: MEMORY reported, the block's own handling, and the hold check. -/
theorem exec_accessFails (hx : s.current = some x) (hp : s.part.ladder.softPending = false) (hstart : s.part.ladder.state ≠ .starting)
    (dt : Nat) :
    ∃ f : Part → Part, exec (.memoryErrorResponse dt) s = .next ((s.offList s.mem).act f) ∧
      f (s.offList s.mem).part =
        (((s.begun x none dt).report .memory (BitVec.ofNat 16 x.offset)).blockFailed x.source).holdCheckStopped := by
  refine ⟨_, by rw [exec_memoryErrorResponse, State.fail_of_current hx hp], ?_⟩
  exact Part.accessFailed_of_notStarting (p := s.begun x none dt) hstart x

theorem State.act_images_kept (f : Part → Part) : (s.act f).part.images = (f s.part).images := by
  obtain ⟨-, himages, -⟩ := s.act_keeps f
  exact himages

theorem State.act_capture (f : Part → Part) : (s.act f).part.faults.capture = (f s.part).faults.capture := by
  obtain ⟨-, -, -, -, -, -, -, -, hcapture, -⟩ := s.act_keeps f
  exact hcapture

theorem State.act_divisor (f : Part → Part) : (s.act f).part.faults.divisorCount = (f s.part).faults.divisorCount ∧
    (s.act f).part.faults.divisorDue = (f s.part).faults.divisorDue := by
  obtain ⟨-, -, -, -, -, -, -, -, -, -, hcount, hdue, -⟩ := s.act_keeps f
  exact ⟨hcount, hdue⟩

end

/-! ## The output take (R67) -/

theorem bankOf_eq_some {h : Byte} {b : Bank} (hb : h.toNat = b.val) : bankOf h = some b := by
  rw [show h = BitVec.ofNat 8 b.val from BitVec.eq_of_toNat_eq (by rw [hb, BitVec.toNat_ofNat]; omega)]
  clear hb
  revert b
  decide

theorem bankOf_eq_none {h : Byte} (hb : 3 ≤ h.toNat) : bankOf h = none := by
  unfold bankOf
  rw [if_neg, if_neg, if_neg] <;> rintro rfl <;> simp at hb

theorem bankOf_iff {h : Byte} {b : Bank} : bankOf h = some b ↔ h.toNat = b.val := by
  refine ⟨fun heq => ?_, bankOf_eq_some⟩
  by_cases hlt : h.toNat < 3
  · rw [bankOf_eq_some (b := ⟨h.toNat, hlt⟩) rfl] at heq
    exact congrArg Fin.val (Option.some.inj heq)
  · rw [bankOf_eq_none (by omega)] at heq
    cases heq

theorem bankOf_none_iff {h : Byte} : bankOf h = none ↔ 3 ≤ h.toNat := by
  refine ⟨fun heq => ?_, bankOf_eq_none⟩
  by_contra hlt
  rw [bankOf_eq_some (b := ⟨h.toNat, by omega⟩) rfl] at heq
  cases heq

/-- The output publish word asks for a take: another count, or a take is owed. -/
def ImageUnit.takes (im : ImageUnit) (w : Word) : Prop := w.extractLsb' 8 24 ≠ im.countTaken ∨ im.takeOwed = true

section
variable {p : Part} {w : Word}

theorem Part.outputTake_of_same (h : ¬ p.images.takes w) : p.outputTake w = p.imageIsReady := by
  rw [ImageUnit.takes, not_or, not_not] at h
  rw [Part.outputTake]
  dsimp only
  rw [if_neg (by simp [h.1, h.2])]
  rfl

theorem Part.outputTake_of_bank (h : p.images.takes w) {b : Bank} (hb : (w.extractLsb' 0 8).toNat = b.val) :
    p.outputTake w =
      { p with images := { p.images with inUse := some b, countTaken := w.extractLsb' 8 24, takeOwed := false } }.issueWrite .outInUse
        0x48 (bankWord (some b) (w.extractLsb' 8 24)) := by
  rw [Part.outputTake]
  dsimp only
  rw [if_pos (by simpa [ImageUnit.takes] using h), show byteAt w 0 = w.extractLsb' 0 8 from rfl, bankOf_eq_some hb]
  rfl

theorem Part.outputTake_of_noBank (h : p.images.takes w) (hb : 3 ≤ (w.extractLsb' 0 8).toNat) :
    p.outputTake w =
      ({ p with images := { p.images with countTaken := w.extractLsb' 8 24, takeOwed := false } }.report .imageBankInvalid 1).issueWrite
        .outInUse 0x48 (bankWord p.images.inUse (w.extractLsb' 8 24)) := by
  rw [Part.outputTake]
  dsimp only
  rw [if_pos (by simpa [ImageUnit.takes] using h), show byteAt w 0 = w.extractLsb' 0 8 from rfl, bankOf_eq_none hb]
  rfl

end

/-! ## The fill bank (R74, Table 4-3) -/

theorem fillBank_free (published held : Option Bank) :
    published ≠ some (fillBank published held) ∧ held ≠ some (fillBank published held) ∧
      ∀ b : Bank, b < fillBank published held → published = some b ∨ held = some b := by
  revert published held
  decide

/-! ## The maps of a close (R22, R76) -/

theorem foldl_mapBits_getLsbD (f : NodeIx → Bool) (k : Nat) (hk : k < 48) (l : List NodeIx) :
    ∀ m : BitVec 48, (l.foldl (fun m i => if f i then m ||| (1#48 <<< i.val) else m) m).getLsbD k =
      (m.getLsbD k || l.any fun i => f i && decide (i.val = k)) := by
  induction l with
  | nil => simp
  | cons i l ih =>
    intro m
    have hbit : (1#48 <<< i.val).getLsbD k = decide (i.val = k) := by
      simp only [BitVec.getLsbD_shiftLeft, hk, decide_true, Bool.true_and, BitVec.getLsbD_one]
      rw [Bool.eq_iff_iff]
      simp only [Bool.and_eq_true, Bool.not_eq_true', decide_eq_false_iff_not, decide_eq_true_eq]
      omega
    rw [List.foldl_cons, ih, List.any_cons]
    cases f i <;> simp [hbit, Bool.or_assoc]

theorem Part.mapOf_getLsbD (p : Part) (f : NodeRecord → Bool) (i : NodeIx) : (p.mapOf f).getLsbD i.val = f (p.node i) := by
  rw [Part.mapOf, foldl_mapBits_getLsbD (fun i => f (p.node i)) i.val i.isLt, show (0 : BitVec 48).getLsbD i.val = false from
    BitVec.getLsbD_zero, Bool.false_or, Bool.eq_iff_iff, List.any_eq_true]
  simp only [Bool.and_eq_true, decide_eq_true_eq]
  constructor
  · rintro ⟨j, -, hj, hval⟩
    rwa [← Fin.ext hval]
  · exact fun h => ⟨i, List.mem_finRange i, h, rfl⟩

/-! ## The words of a close (R75, R76) -/

section
variable (p : Part) (fill : Bank) (job : CloseJob)

theorem Part.closeWrite_header {k : Nat} (hk : k < 16) :
    p.closeWrite fill job k = (0x6400 + 3136 * fill.val + 4 * k, closeHeaderWord p.sched.cycle job k) := if_pos hk

theorem Part.closeWrite_image {n : Nat} (hn : n < (p.loader.settings.inBytes + 3) / 4) :
    p.closeWrite fill job (16 + n) = (0x6400 + 3136 * fill.val + 0x40 + 4 * n,
      wordOf (p.closeByte (4 * n)) (p.closeByte (4 * n + 1)) (p.closeByte (4 * n + 2)) (p.closeByte (4 * n + 3))) := by
  rw [Part.closeWrite, if_neg (by omega), if_pos (by rw [closeWordCount]; omega), Nat.add_sub_cancel_left]
  rfl

theorem Part.closeWrite_publish {k : Nat} (hk : k = 16 + (p.loader.settings.inBytes + 3) / 4) :
    p.closeWrite fill job k = (0x4C, bankWord (some fill) (p.images.publishCount + 1)) := by
  rw [Part.closeWrite, if_neg (by omega), if_neg (by rw [closeWordCount]; omega)]
  rfl

theorem closeHeaderWord_zeros (cycle : Word) {k : Nat} (hk : 6 ≤ k) : closeHeaderWord cycle job k = 0 := by
  match k, hk with
  | _ + 6, _ => rfl

end

theorem append_zeros_eq_setWidth (b : BitVec 16) : (0#16 ++ b : Word) = b.setWidth 32 := by
  apply BitVec.eq_of_toNat_eq
  rw [BitVec.toNat_append, BitVec.toNat_setWidth, Nat.mod_eq_of_lt (by omega)]
  simp

section
variable {p : Part} {job : CloseJob} {w : Word}

theorem Part.continueClose_of_hold (hjob : p.images.close = some job) (hfill : job.fill = none) :
    p.continueClose w = p.holdWordTaken w job := by simp only [Part.continueClose, hjob, hfill]

theorem Part.continueClose_of_word {bank : Bank} (hjob : p.images.close = some job) (hfill : job.fill = some bank)
    (hpos : job.pos + 1 < closeWordCount p.loader.settings.inBytes) :
    p.continueClose w =
      { p with images := { p.images with close := some { job with pos := job.pos + 1 } } }.issueClose bank
        { job with pos := job.pos + 1 } := by
  simp only [Part.continueClose, hjob, hfill]
  rw [if_pos hpos]

theorem Part.continueClose_of_publish {bank : Bank} (hjob : p.images.close = some job) (hfill : job.fill = some bank)
    (hpos : job.pos + 1 = closeWordCount p.loader.settings.inBytes) : p.continueClose w = p.published bank := by
  simp only [Part.continueClose, hjob, hfill]
  rw [if_neg (by omega)]

end

/-- The held bank's report: MEMORY's neighbour fault for a bank field that names nothing (R74). -/
def Part.holdJudged (p : Part) (h : Byte) : Part := if bankOf h = none ∧ h ≠ 255 then p.report .imageBankInvalid 2 else p

theorem Part.holdJudged_images (p : Part) (h : Byte) : (p.holdJudged h).images = p.images := by
  unfold Part.holdJudged
  split <;> simp

theorem Part.holdWordTaken_eq (p : Part) (w : Word) (job : CloseJob) :
    p.holdWordTaken w job =
      let bank := fillBank p.images.lastPublished (bankOf (w.extractLsb' 0 8))
      let q := p.holdJudged (w.extractLsb' 0 8)
      { q with images := { p.images with close := some { job with fill := some bank, pos := 0 } } }.issueClose bank
        { job with fill := some bank, pos := 0 } := by
  dsimp only
  rw [← p.holdJudged_images (w.extractLsb' 0 8)]
  rfl

theorem Part.mem_issueWrite (p : Part) (src : Source) (o : Nat) (w : Word) :
    { offset := o, write := some w, source := src } ∈ (p.issueWrite src o w).bus := by simp

theorem Part.mem_issueRead (p : Part) (src : Source) (o : Nat) :
    { offset := o, write := none, source := src } ∈ (p.issueRead src o).bus := by simp

/-! ## CLOSE STEPS -/

section
variable {s : State} {x : Access}

theorem exec_outTakeEnds (hx : s.current = some x) (hsource : x.source = .outTake) (hp : s.part.ladder.softPending = false)
    (host : Option Word) (dt : Nat) {w : Word} (hw : w = s.wordOf x host) :
    ∃ t, exec (.memoryAccessComplete host dt) s = .next t ∧
      (w.extractLsb' 8 24 = s.part.images.countTaken → s.part.images.takeOwed = false →
        t.part.images = s.part.images ∧ t.part.sched.imageReady = true ∧ t.part.faults.capture = s.part.faults.capture) ∧
      (w.extractLsb' 8 24 ≠ s.part.images.countTaken ∨ s.part.images.takeOwed = true →
        (∀ b : Bank, (w.extractLsb' 0 8).toNat = b.val →
          t.part.images = { s.part.images with inUse := some b, countTaken := w.extractLsb' 8 24, takeOwed := false } ∧
          t.part.asks { offset := 0x48, write := some (bankWord (some b) (w.extractLsb' 8 24)), source := .outInUse } ∧
          t.part.faults.capture = s.part.faults.capture) ∧
        (3 ≤ (w.extractLsb' 0 8).toNat →
          t.part.images = { s.part.images with countTaken := w.extractLsb' 8 24, takeOwed := false } ∧
          t.part.asks
            { offset := 0x48, write := some (bankWord s.part.images.inUse (w.extractLsb' 8 24)), source := .outInUse } ∧
          t.part.hasCause .fault = true ∧
          (s.part.hasCause .fault = false → t.part.faults.capture.code = 4 ∧ t.part.faults.capture.detail = 1))) := by
  obtain ⟨f, hexec, hf⟩ := exec_accessEnds hx hp host dt
  let p := s.begun x host dt
  have hdone : f (s.afterWord x host).part = p.outputTake w := by rw [hf, hsource, hw]; rfl
  refine ⟨_, hexec, fun hcount howed => ?same, fun htakes => ⟨fun b hb => ?bank, fun hb => ?noBank⟩⟩
  case same =>
    have hnot : ¬ p.images.takes w := fun h => h.elim (absurd hcount) fun h => by cases howed.symm.trans h
    have hready := hdone.trans (Part.outputTake_of_same hnot)
    exact ⟨(State.act_images_kept f).trans (by rw [hready]; rfl), (State.act_imageReady _ f).trans (by rw [hready]; rfl),
      (State.act_capture f).trans (by rw [hready]; rfl)⟩
  case bank =>
    have htaken := hdone.trans (Part.outputTake_of_bank (p := p) htakes hb)
    exact ⟨(State.act_images_kept f).trans (by rw [htaken]; rfl),
      State.act_asks _ f (by rw [htaken]; exact Part.mem_issueWrite _ _ _ _), (State.act_capture f).trans (by rw [htaken]; rfl)⟩
  case noBank =>
    let q : Part := { p with images := { p.images with countTaken := w.extractLsb' 8 24, takeOwed := false } }
    have htaken := hdone.trans (Part.outputTake_of_noBank (p := p) htakes hb)
    refine ⟨(State.act_images_kept f).trans (by rw [htaken]; exact q.report_images .imageBankInvalid 1),
      State.act_asks _ f (by rw [htaken]; exact Part.mem_issueWrite _ _ _ _), ?_, fun hclear => ?_⟩
    · rw [State.act_hasCause _ f .fault (by decide), htaken]
      exact Part.report_hasFault _ _
    · have hcapture : (f (s.afterWord x host).part).faults.capture =
          s.part.faults.capture.take (s.part.hasCause .fault) .imageBankInvalid 1 s.part.sched.cycle := by
        rw [htaken]
        exact Part.report_capture _ _ _
      rw [State.act_capture, hcapture, hclear, Capture.take_of_clear]
      exact ⟨rfl, rfl⟩

theorem exec_imageReadFails (hx : s.current = some x) (hsource : x.source = .outTake ∨ x.source = .outInUse)
    (hp : s.part.ladder.softPending = false) (hstart : s.part.ladder.state ≠ .starting) (dt : Nat) :
    ∃ t, exec (.memoryErrorResponse dt) s = .next t ∧ t.part.images = s.part.images ∧ t.part.sched.imageReady = true := by
  obtain ⟨f, hexec, hf⟩ := exec_accessFails hx hp hstart dt
  let p := (s.begun x none dt).report .memory (BitVec.ofNat 16 x.offset)
  have hdone : f (s.offList s.mem).part = p.imageIsReady.holdCheckStopped := by
    rw [hf]
    rcases hsource with h | h <;> rw [h] <;> rfl
  obtain ⟨himages, hready, -⟩ := p.imageIsReady.holdCheckStopped_keepsOff
  refine ⟨_, hexec, ?_, ?_⟩
  · rw [State.act_images_kept, hdone, himages]
    exact (s.begun x none dt).report_images .memory (BitVec.ofNat 16 x.offset)
  · rw [State.act_imageReady, hdone, hready]
    rfl

/-- What follows a POLL attempt given leaves it with the frame engine, as it was given and counted. -/
theorem State.act_givePoll {f : Part → Part} {t : State} {p : Part} {i : NodeIx} {ack : Option Byte} {slice : List Byte}
    (hrun : p.ladder.state = .run) (hf : f t.part = p.givePoll i ack slice) :
    (t.act f).part.images = p.images ∧ (t.act f).part.frames.state = .sending ∧
      (t.act f).part.frames.exchange = some (.poll i ack) ∧
      (t.act f).part.frames.tx = pollFrame (p.node i).applied.address ack (p.frames.toggles.get i) slice ∧
      (t.act f).part.counter .pollsSent = p.counter .pollsSent + 1 := by
  have hs := State.act_settled hf (by rw [show (p.givePoll i ack slice).ladder.state = .run from hrun]; decide)
    (by rw [show (p.givePoll i ack slice).ladder.state = .run from hrun]; decide)
  refine ⟨by rw [State.act_images_kept, hf]; rfl, by rw [hs.frames]; rfl, by rw [hs.frames]; rfl, by rw [hs.frames]; rfl, ?_⟩
  rw [hs.counter]
  exact (p.count_counter .pollsSent .pollsSent).trans (if_pos rfl)

theorem exec_sliceWordRead {job : SliceRead} {bank : Bank} (hx : s.current = some x) (hsource : x.source = .slice)
    (hp : s.part.ladder.softPending = false) (hrun : s.part.ladder.state = .run) (hjob : s.part.images.slice = some job)
    (hbank : s.part.images.inUse = some bank) (host : Option Word) (dt : Nat) {w : Word} (hw : w = s.wordOf x host) :
    let e := (s.part.node job.node).applied
    ∃ t, exec (.memoryAccessComplete host dt) s = .next t ∧
      (1 < job.left →
        t.part.images.slice = some { job with got := w :: job.got, left := job.left - 1 } ∧
        t.part.asks
          { offset := 0x4000 + 3072 * bank.val + 4 * (e.outOffset / 4 + (job.got.length + 1)), write := none, source := .slice }) ∧
      (job.left ≤ 1 →
        t.part.images.slice = none ∧ t.part.frames.state = .sending ∧
        t.part.frames.exchange = some (.poll job.node job.ack) ∧
        t.part.frames.tx = pollFrame e.address job.ack (s.part.frames.toggles.get job.node)
          (((((w :: job.got).reverse).flatMap wordBytes).drop (e.outOffset % 4)).take e.outLength) ∧
        t.part.counter .pollsSent = s.part.counter .pollsSent + 1) := by
  intro e
  obtain ⟨f, hexec, hf⟩ := exec_accessEnds hx hp host dt
  let p := s.begun x host dt
  have hdone : f (s.afterWord x host).part = p.continueSlice w := by rw [hf, hsource, hw]; rfl
  have hpjob : p.images.slice = some job := hjob
  have hpbank : p.images.inUse = some bank := hbank
  refine ⟨_, hexec, fun hmore => ?more, fun hlast => ?last⟩
  case more =>
    have hread : f (s.afterWord x host).part =
        { p with images := { p.images with slice := some { job with got := w :: job.got, left := job.left - 1 } } }.issueSlice bank
          e (w :: job.got).length := by
      rw [hdone, Part.continueSlice, hpjob, hpbank]
      dsimp only
      rw [if_neg (by omega)]
      rfl
    refine ⟨by rw [State.act_images_kept, hread]; rfl, State.act_asks _ f ?_⟩
    rw [hread]
    exact Part.mem_issueRead _ _ _
  case last =>
    let q : Part := { p with images := { p.images with slice := none } }
    have hgiven : f (s.afterWord x host).part = q.givePoll job.node job.ack
          (sliceBytes e.outOffset e.outLength (w :: job.got).reverse) := by
      rw [hdone, Part.continueSlice, hpjob, hpbank]
      dsimp only
      rw [if_pos hlast]
      rfl
    obtain ⟨himages, hrest⟩ := State.act_givePoll (p := q) hrun hgiven
    exact ⟨by rw [himages], hrest⟩

theorem exec_sliceWordFails {job : SliceRead} (hx : s.current = some x) (hsource : x.source = .slice)
    (hp : s.part.ladder.softPending = false) (hrun : s.part.ladder.state = .run) (hcycle : s.part.sched.state ≠ .stopped)
    (hjob : s.part.images.slice = some job) (dt : Nat) :
    ∃ t, exec (.memoryErrorResponse dt) s = .next t ∧ t.part.images.slice = none ∧
      t.part.frames.exchange = some (.poll job.node job.ack) ∧
      t.part.frames.tx = pollFrame (s.part.node job.node).applied.address job.ack (s.part.frames.toggles.get job.node)
        (List.replicate (s.part.node job.node).applied.outLength 0) := by
  obtain ⟨f, hexec, hf⟩ := exec_accessFails hx hp (by rw [hrun]; decide) dt
  let p := (s.begun x none dt).report .memory (BitVec.ofNat 16 x.offset)
  let q : Part := { p with images := { p.images with slice := none } }
  have hpjob : p.images.slice = some job := hjob
  have hfailed : p.sliceFailed = q.givePoll job.node job.ack (List.replicate (q.node job.node).applied.outLength 0) := by
    rw [Part.sliceFailed, hpjob]
  have hgiven : f (s.offList s.mem).part = q.givePoll job.node job.ack (List.replicate (q.node job.node).applied.outLength 0) := by
    rw [hf, hsource]
    change p.sliceFailed.holdCheckStopped = _
    rw [hfailed]
    exact Part.holdCheckStopped_of_cycle _ hcycle
  obtain ⟨himages, -, hexchange, htx, -⟩ := State.act_givePoll (p := q) hrun hgiven
  exact ⟨_, hexec, by rw [himages], hexchange, htx⟩

theorem exec_holdWord {job : CloseJob} (hx : s.current = some x) (hsource : x.source = .close)
    (hp : s.part.ladder.softPending = false) (hjob : s.part.images.close = some job) (hfill : job.fill = none) (host : Option Word)
    {w : Word} (hw : w = s.wordOf x host) :
    ∃ (t : State) (bank : Bank), exec (.holdWordRead host) s = .next t ∧
      t.part.images = { s.part.images with close := some { job with fill := some bank, pos := 0 } } ∧
      s.part.images.lastPublished ≠ some bank ∧ (w.extractLsb' 0 8).toNat ≠ bank.val ∧
      (∀ b : Bank, b < bank → s.part.images.lastPublished = some b ∨ (w.extractLsb' 0 8).toNat = b.val) ∧
      t.part.asks { offset := 0x6400 + 3136 * bank.val, write := some s.part.sched.cycle, source := .close } ∧
      (3 ≤ (w.extractLsb' 0 8).toNat → (w.extractLsb' 0 8).toNat ≠ 255 → t.part.hasCause .fault = true ∧
        (s.part.hasCause .fault = false → t.part.faults.capture.code = 4 ∧ t.part.faults.capture.detail = 2)) ∧
      ((w.extractLsb' 0 8).toNat < 3 ∨ (w.extractLsb' 0 8).toNat = 255 →
        t.part.faults.capture = s.part.faults.capture) := by
  obtain ⟨f, heq, hf⟩ := completeIf_ends hx hp (mine := fun a => a.source == .close && s.part.images.close.any (·.fill.isNone))
    (by simp [hsource, hjob, hfill]) host 0
  let p := s.begun x host 0
  let h := w.extractLsb' 0 8
  let bank := fillBank s.part.images.lastPublished (bankOf h)
  let begun : CloseJob := { job with fill := some bank, pos := 0 }
  let q : Part := { p.holdJudged h with images := { p.images with close := some begun } }
  have hdone : f (s.afterWord x host).part = q.issueClose bank begun := by
    rw [hf, hsource, ← hw]
    exact (Part.continueClose_of_hold (p := p) hjob hfill).trans (p.holdWordTaken_eq w job)
  have hcycle : (p.holdJudged h).sched = p.sched := by
    unfold Part.holdJudged
    split <;> simp
  have hreport (hge : 3 ≤ h.toNat) (hne : h.toNat ≠ 255) : p.holdJudged h = p.report .imageBankInvalid 2 :=
    if_pos ⟨bankOf_eq_none hge, fun heq => hne (congrArg BitVec.toNat heq)⟩
  obtain ⟨hpublished, hheld, hlower⟩ := fillBank_free s.part.images.lastPublished (bankOf h)
  refine ⟨_, bank, congrArg Host.Outcome.next heq, by rw [State.act_images_kept, hdone]; rfl, hpublished,
    fun hval => hheld (bankOf_eq_some hval), fun b hb => (hlower b hb).imp_right bankOf_iff.mp,
    State.act_asks _ f ?_, fun hge hne => ⟨?_, fun hclear => ?_⟩, fun hok => ?_⟩
  · have hwrite : q.issueClose bank begun = q.issueWrite .close (0x6400 + 3136 * bank.val) s.part.sched.cycle := by
      rw [Part.issueClose, Part.closeWrite_header _ _ _ (show begun.pos < 16 from Nat.succ_pos 15)]
      change q.issueWrite .close _ (p.holdJudged h).sched.cycle = _
      rw [hcycle]
      rfl
    rw [hdone, hwrite]
    exact Part.mem_issueWrite _ _ _ _
  · rw [State.act_hasCause _ f .fault (by decide), hdone]
    change (p.holdJudged h).hasCause .fault = true
    rw [hreport hge hne]
    exact Part.report_hasFault _ _
  · have hcapture : (q.issueClose bank begun).faults.capture =
        s.part.faults.capture.take (s.part.hasCause .fault) .imageBankInvalid 2 s.part.sched.cycle := by
      change (p.holdJudged h).faults.capture = _
      rw [hreport hge hne]
      exact Part.report_capture _ _ _
    rw [State.act_capture, hdone, hcapture, hclear, Capture.take_of_clear]
    exact ⟨rfl, rfl⟩
  · have hquiet : p.holdJudged h = p := by
      refine if_neg fun ⟨hnone, hne⟩ => ?_
      have hge := bankOf_none_iff.mp hnone
      rcases hok with hlt | h255
      · exact absurd hlt (Nat.not_lt.mpr hge)
      · exact hne (BitVec.eq_of_toNat_eq h255)
    rw [State.act_capture, hdone]
    change (p.holdJudged h).faults.capture = _
    rw [hquiet]
    rfl

theorem exec_publishes {job : CloseJob} {bank : Bank} (hx : s.current = some x) (hsource : x.source = .close)
    (hp : s.part.ladder.softPending = false) (hjob : s.part.images.close = some job) (hfill : job.fill = some bank)
    (hpos : job.pos + 1 = 16 + (s.part.loader.settings.inBytes + 3) / 4 + 1) :
    ∃ t, exec .inputPublish s = .next t ∧
      t.part.images = { s.part.images with
        lastPublished := some bank, publishCount := s.part.images.publishCount + 1, close := none } ∧
      t.part.faults.divisorCount = s.part.faults.divisorCount + 1 ∧
      t.part.faults.divisorDue =
        decide (s.part.loader.settings.cycleDivisor ≤ s.part.faults.divisorCount + 1) := by
  obtain ⟨f, heq, hf⟩ := completeIf_ends hx hp (mine := fun a => a.source == .close && s.part.closeAtPublish)
    (by simp [hsource, Part.closeAtPublish, hjob, hfill, hpos, closeWordCount]) none 0
  have hdone : f (s.afterWord x none).part = (s.begun x none 0).published bank := by
    rw [hf, hsource]
    exact Part.continueClose_of_publish (p := s.begun x none 0) hjob hfill hpos
  obtain ⟨hcount, hdue⟩ := State.act_divisor (s := s.afterWord x none) f
  refine ⟨_, congrArg Host.Outcome.next heq, ?_, ?_, ?_⟩
  · rw [State.act_images_kept, hdone, Part.published]
    dsimp only
    split <;> rfl
  · rw [hcount, hdone, Part.published]
    dsimp only
    split <;> rfl
  · rw [hdue, hdone, Part.published]
    dsimp only
    split <;> rfl

theorem Part.enterClosing_spec (p : Part) : ∃ job : CloseJob,
    p.enterClosing.sched.state = .closing ∧ p.enterClosing.images = { p.images with close := some job } ∧
    job.fill = none ∧
    (∀ i : NodeIx, job.live.getLsbD i.val = true ↔ (p.node i).state = .live ∨ (p.node i).state = .suspect) ∧
    (∀ i : NodeIx, job.fresh.getLsbD i.val = (p.node i).fresh) ∧
    p.enterClosing.bus = p.bus ++ [{ offset := 0x0C, write := none, source := .close }] := by
  refine ⟨{ fill := none, pos := 0, live := p.mapOf fun r => r.state.inService, fresh := p.mapOf fun r => r.fresh }, rfl, rfl, rfl,
    fun i => ?_, fun i => Part.mapOf_getLsbD _ _ _, by simp [Part.enterClosing, Part.beginClose]; rfl⟩
  rw [Part.mapOf_getLsbD]
  cases (p.node i).state <;> simp [NodeState.inService]

theorem exec_closeWord {job : CloseJob} {bank : Bank} (hx : s.current = some x) (hsource : x.source = .close)
    (hp : s.part.ladder.softPending = false) (hjob : s.part.images.close = some job) (hfill : job.fill = some bank) (host : Option Word)
    (dt k : Nat) (hk : k = job.pos + 1) (hlt : k < 16 + (s.part.loader.settings.inBytes + 3) / 4 + 1) :
    let size := s.part.loader.settings.inBytes
    let header := fun word : Word => { offset := 0x6400 + 3136 * bank.val + 4 * k, write := some word, source := .close }
    ∃ t, exec (.memoryAccessComplete host dt) s = .next t ∧
      t.part.images = { s.part.images with close := some { job with pos := k } } ∧
      (k = 1 → t.part.asks (header (BitVec.ofNat 32 ((List.range 48).countP fun i => job.live.getLsbD i)))) ∧
      (k = 2 → t.part.asks (header (job.live.extractLsb' 0 32))) ∧
      (k = 3 → t.part.asks (header ((job.live.extractLsb' 32 16).setWidth 32))) ∧
      (k = 4 → t.part.asks (header (job.fresh.extractLsb' 0 32))) ∧
      (k = 5 → t.part.asks (header ((job.fresh.extractLsb' 32 16).setWidth 32))) ∧
      (6 ≤ k → k < 16 → t.part.asks (header 0)) ∧
      (∀ n, k = 16 + n → n < (size + 3) / 4 → ∃ word : Word,
        t.part.asks { offset := 0x6400 + 3136 * bank.val + 0x40 + 4 * n, write := some word, source := .close } ∧
        ∀ b : Fin 4, word.extractLsb' (8 * b.val) 8 =
          if 4 * n + b.val < size then s.part.images.shadow.readByte (4 * n + b.val) else 0) ∧
      (k = 16 + (size + 3) / 4 → t.part.asks
        { offset := 0x4C, write := some (bankWord (some bank) (s.part.images.publishCount + 1)), source := .close }) := by
  intro size header
  obtain ⟨f, hexec, hf⟩ := exec_accessEnds hx hp host dt
  let p := s.begun x host dt
  let next : CloseJob := { job with pos := k }
  let q : Part := { p with images := { p.images with close := some next } }
  have hdone : f (s.afterWord x host).part = q.issueWrite .close (q.closeWrite bank next k).1 (q.closeWrite bank next k).2 := by
    rw [hf, hsource]
    refine (Part.continueClose_of_word (p := p) hjob hfill (hk ▸ hlt)).trans ?_
    rw [← hk]
    rfl
  have hasks {o : Nat} {word : Word} (h : q.closeWrite bank next k = (o, word)) :
      ((s.afterWord x host).act f).part.asks { offset := o, write := some word, source := .close } := by
    refine State.act_asks _ f ?_
    rw [hdone, h]
    exact Part.mem_issueWrite _ _ _ _
  have hheader {word : Word} (hlow : k < 16) (h : closeHeaderWord q.sched.cycle next k = word) :
      ((s.afterWord x host).act f).part.asks (header word) := by
    subst h
    exact hasks (q.closeWrite_header bank next hlow)
  refine ⟨_, hexec, by rw [State.act_images_kept, hdone]; rfl, ?_, ?_, ?_, ?_, ?_,
    fun hlow hhigh => hheader hhigh (closeHeaderWord_zeros _ _ hlow), fun n hn hsize => ?_,
    fun hlast => hasks (q.closeWrite_publish bank next hlast)⟩
  · exact fun h => hheader (by omega) (by rw [h]; rfl)
  · exact fun h => hheader (by omega) (by rw [h]; rfl)
  · exact fun h => hheader (by omega) (by rw [h]; exact append_zeros_eq_setWidth _)
  · exact fun h => hheader (by omega) (by rw [h]; rfl)
  · exact fun h => hheader (by omega) (by rw [h]; exact append_zeros_eq_setWidth _)
  · refine ⟨_, hasks (hn ▸ q.closeWrite_image bank next hsize), fun b => ?_⟩
    rw [wordOf_byte]
    match b with
    | 0 | 1 | 2 | 3 => rfl

theorem exec_closeFails (hx : s.current = some x) (hsource : x.source = .close) (hp : s.part.ladder.softPending = false)
    (hstart : s.part.ladder.state ≠ .starting) (dt : Nat) :
    ∃ t, exec (.memoryErrorResponse dt) s = .next t ∧ t.part.images = { s.part.images with close := none } ∧
      t.part.faults.divisorCount = s.part.faults.divisorCount ∧ t.part.faults.divisorDue = s.part.faults.divisorDue ∧
      t.part.asks { offset := 0x44, write := some s.part.sched.cycle, source := .cycleWord } := by
  obtain ⟨f, hexec, hf⟩ := exec_accessFails hx hp hstart dt
  let p := (s.begun x none dt).report .memory (BitVec.ofNat 16 x.offset)
  have hdone : f (s.offList s.mem).part = p.endClose.holdCheckStopped := by rw [hf, hsource]; rfl
  obtain ⟨himages, -, hbus, hcount, hdue⟩ := p.endClose.holdCheckStopped_keepsOff
  obtain ⟨kcount, kdue⟩ := State.act_divisor (s := s.offList s.mem) f
  have hwrite : { offset := 0x44, write := some s.part.sched.cycle, source := .cycleWord } ∈ p.endClose.bus :=
    Part.mem_issueWrite _ .cycleWord 0x44 _
  refine ⟨_, hexec, ?_, ?_, ?_, State.act_asks _ f ?_⟩
  · rw [State.act_images_kept, hdone, himages]
    exact congrArg (fun im : ImageUnit => { im with close := none })
      ((s.begun x none dt).report_images .memory (BitVec.ofNat 16 x.offset))
  · rw [kcount, hdone, hcount]
    exact ((s.begun x none dt).report_divisor .memory (BitVec.ofNat 16 x.offset)).1
  · rw [kdue, hdone, hdue]
    exact ((s.begun x none dt).report_divisor .memory (BitVec.ofNat 16 x.offset)).2
  · rw [hdone]
    exact hbus.subset hwrite

theorem exec_cycleDivisorReached (hdue : s.part.faults.divisorDue = true) :
    ∃ t, exec .cycleDivisorReached s = .next t ∧ t.part.hasCause .cycle = true ∧ t.part.faults.divisorCount = 0 ∧
      t.part.faults.divisorDue = false ∧
      t.part.bus = s.part.bus ++ [{ offset := 0x44, write := some s.part.sched.cycle, source := .cycleWord }] ∧
      t.part.images = s.part.images ∧ t.mem = s.mem := by
  have hreached : s.part.divisorReached =
      ({ s.part with faults := { s.part.faults with divisorCount := 0, divisorDue := false } }.setCause .cycle).writeCycleWord :=
    if_pos hdue
  refine ⟨{ s with part := s.part.divisorReached }, ?_, ?_⟩
  · change execCycleDivisorReached s = _
    rw [execCycleDivisorReached, State.plainIf, if_pos hdue]
    rfl
  · dsimp only
    rw [hreached]
    exact ⟨(Part.setCause_hasCause _ .cycle .cycle).trans (by simp), rfl, rfl, rfl, rfl, rfl⟩

end

/-- Settles O54: the take, the slices and the close, access by access. -/
theorem closeSteps : Obligations.CloseSteps :=
  ⟨fun _ _ host dt _ hx hsource hp hw => exec_outTakeEnds hx hsource hp host dt hw,
    fun _ _ dt hx hsource hp hstart => exec_imageReadFails hx hsource hp hstart dt,
    fun _ _ _ _ host dt _ hx hsource hp hrun hjob hbank hw => exec_sliceWordRead hx hsource hp hrun hjob hbank host dt hw,
    fun _ _ _ dt hx hsource hp hrun hcycle hjob => exec_sliceWordFails hx hsource hp hrun hcycle hjob dt,
    fun _ _ _ host _ hx hsource hp hjob hfill hw => exec_holdWord hx hsource hp hjob hfill host hw,
    fun _ _ _ _ hx hsource hp hjob hfill hpos => exec_publishes hx hsource hp hjob hfill hpos,
    fun p => p.enterClosing_spec,
    fun _ _ _ _ host dt k hx hsource hp hjob hfill hk hlt => exec_closeWord hx hsource hp hjob hfill host dt k hk hlt,
    fun _ _ dt hx hsource hp hstart => exec_closeFails hx hsource hp hstart dt,
    fun _ hdue => exec_cycleDivisorReached hdue⟩

end Sys2Proof.Machine
end

section
/-! SUPPORT. Counts of the open and snapshots (R16, R17, R21, R124, R128, R166, R167): state changes with their loss policy, the end of a
status record's write, the answers that an open writes again, and what a trigger makes of a snapshot. -/

namespace Sys2Proof.Machine

/-! ## A state change with its loss policy (R5, R18) -/

section
variable (p : Part) (i : NodeIx) (f : NodeRecord → NodeRecord)

theorem Part.changeState_lossApplied {new : NodeState} (hout : new.inService = false) :
    lossApplied (p.node i).applied p.loader.settings.inBytes p.images.shadow (p.changeState i f new).images.shadow := by
  intro k
  obtain ⟨hzero, hkeep⟩ := p.applyLoss_zeroed (k := k) (p.node i).applied p.loader.settings.inBytes
  rw [Part.changeState_images, if_neg (by simp [hout])]
  split
  next h => exact hzero h
  next h => exact hkeep h

theorem Part.changeState_table_writes (new : NodeState) :
    (p.changeState i f new).table.writes =
      p.table.writes ++ if p.ladder.state = .starting then [] else [{ node := i, cause := true }] := by
  unfold Part.changeState
  dsimp only
  split <;> simp [Part.moveNode_writes]

theorem Part.mem_changeState_writes (hstart : p.ladder.state ≠ .starting) (new : NodeState) :
    { node := i, cause := true } ∈ (p.changeState i f new).table.writes := by
  rw [Part.changeState_table_writes, if_neg hstart]
  exact List.mem_append_right _ (List.mem_singleton_self _)

/-- Node `i` has gone to PROBING (R16): its live fields, its loss policy and the write of its status record. -/
structure Part.Reprobed (t p : Part) (i : NodeIx) : Prop where
  state : (t.node i).state = .probing
  missCount : (t.node i).missCount = 0
  countdown : (t.node i).countdown = none
  changeCount : (t.node i).changeCount = (p.node i).changeCount + 1
  loss : lossApplied (p.node i).applied p.loader.settings.inBytes p.images.shadow t.images.shadow
  written : { node := i, cause := true } ∈ t.table.writes

theorem Part.reprobe_reprobed (hstart : p.ladder.state ≠ .starting) : (p.reprobe i).Reprobed p i := by
  have hnode : (p.reprobe i).node i = (p.node i).moved NodeRecord.toProbing .probing := (p.changeState_node i i _ _).trans (if_pos rfl)
  obtain ⟨_, _, hmoved⟩ := (p.node i).moved_fields NodeRecord.toProbing .probing
  rw [hmoved] at hnode
  refine ⟨?_, ?_, ?_, ?_, p.changeState_lossApplied i _ rfl, p.mem_changeState_writes i _ hstart _⟩
  · exact (congrArg NodeRecord.state hnode).trans rfl
  · exact (congrArg NodeRecord.missCount hnode).trans rfl
  · exact (congrArg NodeRecord.countdown hnode).trans rfl
  · exact (congrArg NodeRecord.changeCount hnode).trans rfl

end

theorem Part.Reprobed.of_settled {p q t : Part} {i : NodeIx} (h : q.Reprobed p i) (ht : t.WorkSettled q) : t.Reprobed p i :=
  ⟨by rw [ht.node, h.state], by rw [ht.node, h.missCount], by rw [ht.node, h.countdown], by rw [ht.node, h.changeCount],
    by rw [ht.images]; exact h.loss, ht.writes.subset h.written⟩

/-! ## The end of a status record's write (R5, R21) -/

section
variable (p : Part)

/-- Step 6 of R5 is taken, and the next record's write begins. -/
structure Part.WriteEnded (q p : Part) (w : StatusWrite) (rest : List StatusWrite) : Prop where
  records : q.table.records = p.table.records
  writes : q.table.writes = rest
  cause : q.hasCause .node = (p.hasCause .node || w.cause)
  ladder : q.ladder = p.ladder

theorem Part.nextStatus_writeEnded {w v : StatusWrite} {rest : List StatusWrite} (h : p.table.writes = v :: rest) :
    (p.nextStatus w).WriteEnded p w rest := by
  let q := if w.cause then p.setCause .node else p
  have hq : q.table = p.table ∧ q.ladder = p.ladder ∧ q.hasCause .node = (p.hasCause .node || w.cause) := by
    unfold q
    split
    next hcause => exact ⟨rfl, rfl, by rw [Part.setCause_hasCause, hcause]; rfl⟩
    next hcause => exact ⟨rfl, rfl, by rw [Bool.eq_false_iff.mpr hcause, Bool.or_false]⟩
  obtain ⟨htable, hladder, hcause⟩ := hq
  let r : Part := { q with table := { q.table with writes := q.table.writes.drop 1 } }
  have hnext : p.nextStatus w = r.startStatus := rfl
  refine ⟨?_, ?_, ?_, ?_⟩
  · rw [hnext, Part.startStatus_records]
    exact show q.table.records = p.table.records by rw [htable]
  · rw [hnext, Part.startStatus_writes]
    change q.table.writes.drop 1 = rest
    rw [htable, h]
    rfl
  · rw [hnext, Part.hasCause, show r.startStatus.faults = r.faults by simp]
    exact hcause
  · rw [hnext]
    exact (Part.startStatus_ladder r).trans hladder

end

section
variable {p : Part} {w : StatusWrite} {rest : List StatusWrite}

theorem Part.modNode_node_self (i : NodeIx) (f : NodeRecord → NodeRecord) : (p.modNode i f).node i = f (p.node i) := by simp

/-- The last word of a record: the record is owed no longer. -/
theorem Part.statusStep_last_ended (h : p.table.writes = w :: rest) :
    ∃ q : Part, (p.statusStep 3).WriteEnded q w rest ∧
      q.table.records = (p.modNode w.node fun r => { r with statusOwed := false }).table.records ∧
      q.hasCause .node = p.hasCause .node ∧ q.ladder = p.ladder := by
  let q := p.modNode w.node fun r => { r with statusOwed := false }
  let r : Part := if q.events.blockedBy = some w.node ∧ rest.all (fun v => v.node != w.node) then
      { q with events := { q.events with blockedBy := none } } else q
  have hr : r.table = q.table ∧ r.faults = q.faults ∧ r.ladder = q.ladder := by
    unfold r
    split <;> exact ⟨rfl, rfl, rfl⟩
  obtain ⟨htable, hfaults, hladder⟩ := hr
  have hstep : p.statusStep 3 = r.nextStatus w := by
    rw [Part.statusStep, h]
    rfl
  refine ⟨r, ?_, by rw [htable], by rw [Part.hasCause, hfaults]; rfl, by rw [hladder]; rfl⟩
  rw [hstep]
  exact r.nextStatus_writeEnded (by rw [htable]; exact h)

/-- A failed word of a record: the record is owed. -/
theorem Part.statusFailed_ended (h : p.table.writes = w :: rest) :
    p.statusFailed.WriteEnded (p.modNode w.node fun r => { r with statusOwed := true }) w rest := by
  have hfailed : p.statusFailed = (p.modNode w.node fun r => { r with statusOwed := true }).nextStatus w := by
    rw [Part.statusFailed, Part.oweStatus, h]
  rw [hfailed]
  exact Part.nextStatus_writeEnded _ h

theorem Part.holdCheckStopped_table (p : Part) : p.holdCheckStopped.table = p.table := by
  have hjudge : p.judgeInRun.table = p.table := by
    unfold Part.judgeInRun
    (repeat' split) <;> simp [Part.skipRequest, Part.emptySlot]
  unfold Part.holdCheckStopped
  split
  · rw [← hjudge]
    rfl
  · rfl

theorem Part.holdCheckStopped_hasNode (p : Part) : p.holdCheckStopped.hasCause .node = p.hasCause .node := by
  have hjudge : p.judgeInRun.hasCause .node = p.hasCause .node := by
    unfold Part.judgeInRun
    split
    · rfl
    · split <;> rfl
    · rfl
    · exact (Part.report_hasCause _ _ _ _).trans (Bool.or_false _)
    · exact (Part.report_hasCause _ _ _ _).trans (Bool.or_false _)
  unfold Part.holdCheckStopped
  split
  · rw [← hjudge]
    rfl
  · rfl

end

section
variable {s : State} {f : Part → Part}

theorem State.act_table_of_notStarting (h : (f s.part).ladder.state ≠ .starting) :
    (s.act f).part.table.records = (f s.part).table.records ∧ (f s.part).table.writes <+: (s.act f).part.table.writes ∧
      (s.act f).part.hasCause .node = (f s.part).hasCause .node := by
  have hwork : (s.act f).part.WorkSettled (f s.part) := State.act_workSettled rfl (Part.startupWaits_of_notStarting h)
  refine ⟨hwork.records, hwork.writes, ?_⟩
  rw [Part.hasCause, Part.hasCause, State.act_faults, Part.settle_cause_of_notStarting _ h]

variable {x : Access} {w : StatusWrite} {rest : List StatusWrite}

theorem exec_statusWritten (hx : s.current = some x) (hp : s.part.ladder.softPending = false) (hstart : s.part.ladder.state ≠ .starting)
    (hw : s.part.table.writes = w :: rest) (hsource : x.source = .status 3) (dt : Nat) :
    ∃ t, exec (.memoryAccessComplete none dt) s = .next t ∧ (t.part.node w.node).statusOwed = false ∧
      t.part.hasCause .node = (s.part.hasCause .node || w.cause) ∧ rest <+: t.part.table.writes := by
  obtain ⟨f, hexec, hf⟩ := exec_accessEnds hx hp none dt
  let p := s.begun x none dt
  obtain ⟨q, hended, hrecords, hcause, hladder⟩ := Part.statusStep_last_ended (p := p) hw
  have hdone : f (s.afterWord x none).part = p.statusStep 3 := by rw [hf, hsource]; rfl
  obtain ⟨krecords, kwrites, kcause⟩ := State.act_table_of_notStarting (s := s.afterWord x none) (f := f)
    (by rw [hdone, hended.ladder, hladder]; exact hstart)
  refine ⟨_, hexec, ?_, ?_, ?_⟩
  · rw [Part.node, krecords, hdone, hended.records, hrecords]
    exact congrArg NodeRecord.statusOwed (p.modNode_node_self w.node _)
  · rw [kcause, hdone, hended.cause, hcause]
    rfl
  · rw [hdone, hended.writes] at kwrites
    exact kwrites

theorem exec_statusFails (hx : s.current = some x) (hp : s.part.ladder.softPending = false) (hstart : s.part.ladder.state ≠ .starting)
    (hw : s.part.table.writes = w :: rest) {k : Fin 4} (hsource : x.source = .status k) (dt : Nat) :
    ∃ t, exec (.memoryErrorResponse dt) s = .next t ∧ (t.part.node w.node).statusOwed = true ∧
      t.part.hasCause .node = (s.part.hasCause .node || w.cause) ∧ rest <+: t.part.table.writes := by
  obtain ⟨f, hexec, hf⟩ := exec_accessFails hx hp hstart dt
  let p := (s.begun x none dt).report .memory (BitVec.ofNat 16 x.offset)
  have hended := Part.statusFailed_ended (p := p) hw
  have hdone : f (s.offList s.mem).part = p.statusFailed.holdCheckStopped := by rw [hf, hsource]; rfl
  have hnot : p.statusFailed.holdCheckStopped.ladder.state ≠ .starting := by
    rcases p.statusFailed.holdCheckStopped_ladderState with h | ⟨-, h⟩
    · rw [h, hended.ladder]
      exact hstart
    · rw [h]
      decide
  obtain ⟨krecords, kwrites, kcause⟩ := State.act_table_of_notStarting (s := s.offList s.mem) (f := f) (by rwa [hdone])
  refine ⟨_, hexec, ?_, ?_, ?_⟩
  · rw [Part.node, krecords, hdone, Part.holdCheckStopped_table, hended.records]
    exact congrArg NodeRecord.statusOwed (p.modNode_node_self w.node _)
  · rw [kcause, hdone, Part.holdCheckStopped_hasNode, hended.cause]
    exact congrArg (· || w.cause) (((s.begun x none dt).report_hasCause .memory _ .node).trans (Bool.or_false _))
  · rw [hdone, Part.holdCheckStopped_table, hended.writes] at kwrites
    exact kwrites

/-- In STARTING a failed record's write ends start-up, the record owed (R21, R25). -/
theorem exec_statusFails_starting (hx : s.current = some x) (hp : s.part.ladder.softPending = false)
    (hstart : s.part.ladder.state = .starting) (hw : s.part.table.writes = w :: rest) {k : Fin 4} (hsource : x.source = .status k)
    (dt : Nat) :
    ∃ t, exec (.memoryErrorResponse dt) s = .next t ∧ t.part.ladder.state = .idle ∧
      (t.part.node w.node).statusOwed = true ∧ (t.part.node w.node).state = (s.part.node w.node).state := by
  let p := (s.begun x none dt).report .memory (BitVec.ofNat 16 x.offset)
  let f : Part → Part := fun p => (p.passTime dt).accessFailed x
  have hdone : f (s.offList s.mem).part = p.oweStatus.startupFail := by
    change (s.begun x none dt).accessFailed x = _
    rw [Part.accessFailed, hsource]
    exact if_pos hstart
  have hfailed : p.oweStatus = p.modNode w.node fun r => { r with statusOwed := true } := by
    rw [Part.oweStatus, show p.table.writes = w :: rest from hw]
  obtain ⟨hladder, -⟩ := (s.offList s.mem).act_keepsLine f (by rw [hdone]; nofun) (by rw [hdone]; nofun)
  obtain ⟨hrecords, -⟩ := (s.offList s.mem).act_keeps f
  have hnode : ((s.offList s.mem).act f).part.node w.node = { s.part.node w.node with statusOwed := true } := by
    rw [Part.node, hrecords, hdone, hfailed]
    exact p.modNode_node_self w.node _
  refine ⟨_, by rw [exec_memoryErrorResponse, State.fail_of_current hx hp], ?_, ?_, ?_⟩
  · change ((s.offList s.mem).act f).part.ladder.state = .idle
    rw [hladder, hdone]
    rfl
  · exact congrArg NodeRecord.statusOwed hnode
  · exact (congrArg NodeRecord.state hnode).trans rfl

end

/-! ## The answers that an open writes again, and patience (R128, R124) -/

section
variable (p : Part)

theorem Part.rewritesAnswers_iff :
    p.rewritesAnswers = true ↔ ∃ k o, .entry k ∈ p.parcels.answers ∧ p.parcelOf k = some o ∧ o.answerFailed = true := by
  rw [Part.rewritesAnswers, List.any_eq_true]
  constructor
  · rintro ⟨a, ha, hfailed⟩
    match a with
    | .entry k =>
      obtain ⟨o, ho, h⟩ := (Option.any_eq_true _ _).mp hfailed
      exact ⟨k, o, ha, ho, h⟩
  · rintro ⟨k, o, hk, ho, h⟩
    refine ⟨_, hk, ?_⟩
    dsimp only
    rw [ho]
    exact h

theorem Part.parcelOf_congr {q : Part} (h : q.parcels.queue = p.parcels.queue) (k : SlotIx) : q.parcelOf k = p.parcelOf k := by
  rw [Part.parcelOf, h]
  rfl

/-- An answer that begins leaves the list, but for one at its head that has no entry any more. -/
theorem Part.startAnswer_answers : p.startAnswer.parcels.answers = p.parcels.answers ∨
    ∃ a rest, p.parcels.answers = a :: rest ∧ p.startAnswer.parcels.answers = rest ∧ ∀ k, a = .entry k → p.parcelOf k = none := by
  unfold Part.startAnswer
  split
  next slot rest _ hlist =>
    split
    · split
      · left
        rw [Part.writeAnswer_parcels]
      · exact .inl rfl
    next hnone => exact .inr ⟨_, rest, hlist, rfl, fun k hk => by cases hk; exact hnone⟩
  · left
    rw [Part.writeAnswer_parcels]
  next rest _ hlist =>
    split
    · left
      rw [Part.writeAnswer_parcels]
    · exact .inr ⟨_, rest, hlist, rfl, nofun⟩
  · exact .inl rfl

theorem Part.startAnswer_queue : p.startAnswer.parcels.queue = p.parcels.queue := by
  rw [p.startAnswer_keepsButAnswers]

theorem Part.startAnswer_rewritesAnswers : p.startAnswer.rewritesAnswers = p.rewritesAnswers := by
  have hof := p.parcelOf_congr p.startAnswer_queue
  rw [Bool.eq_iff_iff, Part.rewritesAnswers_iff, Part.rewritesAnswers_iff]
  simp only [hof]
  rcases p.startAnswer_answers with h | ⟨a, rest, hlist, h, hnone⟩
  · rw [h]
  · rw [h, hlist]
    constructor
    · rintro ⟨k, o, hk, ho⟩
      exact ⟨k, o, List.mem_cons_of_mem _ hk, ho⟩
    · rintro ⟨k, o, hk, ho, hfailed⟩
      rcases List.mem_cons.mp hk with hhead | hrest
      · rw [hnone k hhead.symm] at ho
        cases ho
      · exact ⟨k, o, hrest, ho, hfailed⟩

theorem Part.freeParcel_parcelOf (slot k : SlotIx) : (p.freeParcel slot).parcelOf k = if k = slot then none else p.parcelOf k := by
  change (p.parcels.queue.filter (·.slot != slot)).find? (·.slot == k) = _
  rw [List.find?_filter]
  split
  next h =>
    subst h
    rw [List.find?_eq_none]
    intro e _
    simp
  next h =>
    refine List.find?_congr fun e _ => ?_
    by_cases he : e.slot = k <;> simp [he, h]

theorem find?_map_slot (g : Parcel → Parcel) (hg : ∀ e, (g e).slot = e.slot) (k : SlotIx) (l : List Parcel) :
    (l.map g).find? (·.slot == k) = (l.find? (·.slot == k)).map g := by
  rw [List.find?_map]
  congr 1
  exact congrArg (List.find? · l) (funext fun e => by rw [Function.comp, hg])

/-- The answer number of an entry's answer is written: the entry is counted and gone, and the next answer begins. -/
theorem Part.answerComplete_of_entry {slot : SlotIx} {rest : List AnswerFor} {e : Parcel}
    (hlist : p.parcels.answers = .entry slot :: rest) (he : p.parcelOf slot = some e) :
    p.answerComplete = ((p.countAnswer e.outcome).freeParcel slot).nextAnswer := by
  rw [Part.answerComplete, hlist]
  dsimp only
  rw [he]

end

/-- What follows an event in RUN does to the parcel unit what the steps of the open do. -/
theorem Part.settle_parcelOpen (p : Part) (hrun : p.ladder.state = .run) : ∃ r : Part,
    p.settle.parcels = r.settleParcelOpen.parcels ∧ p.settle.sched.parcelOpen = r.settleParcelOpen.sched.parcelOpen ∧
      r.parcels = p.parcels ∧ r.ladder = p.ladder ∧ r.sched.parcelOpen = p.sched.parcelOpen ∧
      r.sched.parcelOwed = p.sched.parcelOwed ∧ r.sched.cycle = p.sched.cycle := by
  let r := p.settleNodeOpen.settleCheck
  have hladder : r.ladder = p.ladder := by simp [r]
  have hstart : r.settleStartup = r := r.settleStartup_of_waits fun _ _ h => by
    rw [hladder, hrun] at h
    cases h.1
  have hsettle : p.settle = r.settleParcelOpen.settleSnapshot.startAppend.settleService := by
    change r.settleStartup.settleParcelOpen.settleSnapshot.startAppend.settleService = _
    rw [hstart]
  have hservice : p.settle = r.settleParcelOpen.settleSnapshot.startAppend := by
    rw [hsettle]
    refine if_neg fun h => ?_
    simp [hladder, hrun] at h
  have hopen : p.settleNodeOpen.sched.parcelOpen = p.sched.parcelOpen ∧ p.settleNodeOpen.sched.parcelOwed = p.sched.parcelOwed := by
    unfold Part.settleNodeOpen
    dsimp only
    (repeat' split) <;> simp
  obtain ⟨hpos, howed⟩ := hopen
  refine ⟨r, by rw [hservice]; simp, by rw [hservice]; simp, by simp [r], hladder, ?_, ?_, ?_⟩ <;> simp [r, hpos, howed]

section
variable {r : Part}

/-- While an answer is written again, the open waits. -/
theorem Part.settleParcelOpen_of_rewriting (hopen : r.sched.parcelOpen = .rewriting) (hanswers : r.rewritesAnswers = true) :
    r.settleParcelOpen = r := by
  have hrewrites : r.openRewrites = r := if_neg fun h => by rw [hopen] at h; cases h.1
  have hpatience : r.openPatience = r := if_neg fun h => by rw [hanswers] at h; cases h.2
  have hscan : r.openScan = r := if_neg fun h => by rw [hopen] at h; cases h.1
  unfold Part.settleParcelOpen
  split
  · rw [hrewrites, hpatience, hscan]
  · rfl

/-- Once none is, patience is lowered, and the open goes on. -/
theorem Part.settleParcelOpen_of_rewritten (hrun : r.ladder.state = .run) (hopen : r.sched.parcelOpen = .rewriting)
    (hanswers : r.rewritesAnswers = false) :
    r.settleParcelOpen.parcels.queue = r.lowerPatience.parcels.queue ∧ r.settleParcelOpen.sched.parcelOpen ≠ .rewriting := by
  have hrewrites : r.openRewrites = r := if_neg fun h => by rw [hopen] at h; cases h.1
  let q := r.lowerPatience.modSched fun s => { s with parcelOpen := .expiring }
  have hpatience : r.openPatience = q := if_pos ⟨hopen, hanswers⟩
  have hstep : r.settleParcelOpen = q.openScan := by
    rw [Part.settleParcelOpen, if_pos hrun, hrewrites, hpatience]
  rw [hstep, Part.openScan]
  split
  · refine ⟨Part.scanTrigger_queue _, ?_⟩
    rw [show ∀ p : Part, p.scanTrigger.sched = p.sched from fun p => by simp]
    change (if q.sched.parcelOwed = 0 then ParcelOpen.done else .waiting) ≠ .rewriting
    split <;> decide
  · exact ⟨rfl, nofun⟩

end

theorem Parcel.patienceRuns_iff (e : Parcel) : e.patienceRuns = true ↔ e.transfer ≠ .finishing := by
  rw [Parcel.patienceRuns, bne_iff_ne]

section
variable {s : State} {x : Access}

theorem exec_rewriteEnds {e : Parcel} {slot : SlotIx} {last : Nat × Word} {rest : List AnswerFor} (hx : s.current = some x)
    (hsource : x.source = .answer) (hp : s.part.ladder.softPending = false) (hrun : s.part.ladder.state = .run)
    (hopen : s.part.sched.parcelOpen = .rewriting) (hanswering : s.part.parcels.answering = some (.writing [last]))
    (hlist : s.part.parcels.answers = .entry slot :: rest) (he : s.part.parcelOf slot = some e) :
    let rewritten := ∃ k o, .entry k ∈ rest ∧ k ≠ slot ∧ s.part.parcelOf k = some o ∧ o.answerFailed = true
    ∃ t, exec .answerWriteComplete s = .next t ∧
      (rewritten → t.part.sched.parcelOpen = .rewriting ∧ ∀ k o, k ≠ slot → s.part.parcelOf k = some o →
        ∃ o', t.part.parcelOf k = some o' ∧ o'.patience = o.patience ∧ o'.transfer = o.transfer) ∧
      (¬ rewritten → t.part.sched.parcelOpen ≠ .rewriting ∧ ∀ k o, k ≠ slot → s.part.parcelOf k = some o →
        ∃ o', t.part.parcelOf k = some o' ∧ o'.transfer = o.transfer ∧
          o'.patience = (if o.transfer ≠ .finishing ∧ s.part.sched.parcelOwed < (s.part.sched.cycle - o.takenIn).toNat
            then o.patience - 1 else o.patience)) := by
  intro rewritten
  obtain ⟨f, heq, hf⟩ := completeIf_ends hx hp (mine := fun a => a.source == .answer && s.part.answerAtNumber)
    (by simp [hsource, Part.answerAtNumber, hanswering]) none 0
  let p := s.begun x none 0
  let freed := (p.countAnswer e.outcome).freeParcel slot
  let q := freed.nextAnswer
  have hdone : f (s.afterWord x none).part = q := by
    rw [hf, hsource]
    change p.takeParcelEnd (.answer (some _)) = _
    rw [Part.takeParcelEnd, if_neg (by rw [show p.ladder.state = .run from hrun]; decide)]
    change p.continueAnswer _ = _
    rw [Part.continueAnswer, show p.parcels.answering = _ from hanswering]
    exact p.answerComplete_of_entry hlist he
  have hqueue : q.parcels.queue = freed.parcels.queue := Part.startAnswer_queue _
  have hof (k : SlotIx) : q.parcelOf k = if k = slot then none else s.part.parcelOf k :=
    (Part.parcelOf_congr freed hqueue k).trans (Part.freeParcel_parcelOf _ slot k)
  have hladder : q.ladder = s.part.ladder := by simp [q, freed, p, State.begun, Part.countAnswer]; rfl
  have hsched : q.sched = p.sched := by simp [q, freed, Part.countAnswer]
  have hrewrites : q.rewritesAnswers = true ↔ rewritten := by
    have hsame : q.rewritesAnswers = { freed with
        parcels := { freed.parcels with answers := freed.parcels.answers.drop 1, answering := none } }.rewritesAnswers :=
      Part.startAnswer_rewritesAnswers _
    have hanswers : freed.parcels.answers.drop 1 = rest := by
      change s.part.parcels.answers.drop 1 = rest
      rw [hlist]
      rfl
    have hofFreed (k : SlotIx) : freed.parcelOf k = if k = slot then none else s.part.parcelOf k := Part.freeParcel_parcelOf _ slot k
    rw [hsame, Part.rewritesAnswers_iff]
    change (∃ k o, .entry k ∈ freed.parcels.answers.drop 1 ∧ freed.parcelOf k = some o ∧ _) ↔ _
    rw [hanswers]
    simp only [hofFreed]
    refine exists_congr fun k => exists_congr fun o => and_congr_right fun _ => ?_
    by_cases hk : k = slot <;> simp [hk]
  obtain ⟨r, hparcels, hpos, hrparcels, hrladder, hropen, hrowed, hrcycle⟩ := q.settle_parcelOpen (by rw [hladder, hrun])
  have hrrun : r.ladder.state = .run := by rw [hrladder, hladder, hrun]
  have hrrewriting : r.sched.parcelOpen = .rewriting := by rw [hropen, hsched]; exact hopen
  have hranswers : r.rewritesAnswers = q.rewritesAnswers := by
    rw [Bool.eq_iff_iff, Part.rewritesAnswers_iff, Part.rewritesAnswers_iff]
    simp only [hrparcels, Part.parcelOf_congr q (congrArg ParcelUnit.queue hrparcels)]
  let t := (s.afterWord x none).act f
  have htparcels : t.part.parcels = r.settleParcelOpen.parcels := by rw [State.act_parcels, hdone, hparcels]
  have htopen : t.part.sched.parcelOpen = r.settleParcelOpen.sched.parcelOpen := by rw [State.act_sched, hdone, hpos]
  have hofq {k : SlotIx} {o : Parcel} (hk : k ≠ slot) (ho : s.part.parcelOf k = some o) : r.parcelOf k = some o := by
    rw [Part.parcelOf_congr q (congrArg ParcelUnit.queue hrparcels), hof, if_neg hk, ho]
  refine ⟨t, congrArg Host.Outcome.next heq, fun h => ?_, fun h => ?_⟩
  · have hsame := Part.settleParcelOpen_of_rewriting hrrewriting (hranswers.trans (hrewrites.mpr h))
    refine ⟨by rw [htopen, hsame, hrrewriting], fun k o hk ho => ⟨o, ?_, rfl, rfl⟩⟩
    rw [Part.parcelOf_congr r (by rw [htparcels, hsame]), hofq hk ho]
  · obtain ⟨hlowered, hne⟩ := Part.settleParcelOpen_of_rewritten hrrun hrrewriting
      (by rw [hranswers, Bool.eq_false_iff]; exact fun htrue => h (hrewrites.mp htrue))
    refine ⟨by rwa [htopen], fun k o hk ho => ?_⟩
    have hfound : t.part.parcelOf k =
        (r.parcelOf k).map fun e => if r.lowers e then { e with patience := e.patience - 1 } else e := by
      rw [Part.parcelOf_congr r.lowerPatience (by rw [htparcels, hlowered])]
      exact find?_map_slot _ (fun e => by split <;> rfl) k _
    rw [hofq hk ho] at hfound
    have hlowers : r.lowers o = true ↔ o.transfer ≠ .finishing ∧ s.part.sched.parcelOwed < (s.part.sched.cycle - o.takenIn).toNat := by
      rw [Part.lowers, Bool.and_eq_true, Parcel.patienceRuns_iff, decide_eq_true_eq, hrowed, hrcycle, hsched]
      rfl
    refine ⟨_, hfound, ?_, ?_⟩ <;> dsimp only
    · split <;> rfl
    · by_cases hlow : r.lowers o = true
      · rw [if_pos hlow, if_pos (hlowers.mp hlow)]
      · rw [if_neg hlow, if_neg fun h => hlow (hlowers.mpr h)]

end

/-! ## Snapshots (R166, R167) -/

theorem getLsbD_zero_eq (w : Word) : w.getLsbD 0 = decide (w.toNat % 2 = 1) := by
  rw [BitVec.getLsbD, Nat.testBit_zero]

/-- A snapshot begins with an odd sequence value (R167). -/
theorem nextOdd_odd (seq : Word) : (nextOdd seq).getLsbD 0 = true := by
  unfold nextOdd
  split
  next h =>
    rw [getLsbD_zero_eq, decide_eq_true_eq] at h ⊢
    rw [BitVec.toNat_add, show (2 : Word).toNat = 2 from rfl]
    omega
  next h =>
    rw [getLsbD_zero_eq, decide_eq_true_eq] at h ⊢
    rw [BitVec.toNat_add, show (1 : Word).toNat = 1 from rfl]
    omega

/-- The copy that a snapshot begins with. -/
def Part.snapshotCopy (p : Part) : Snapshot :=
  { pos := 0, counters := p.faults.counters, cycle := p.sched.cycle, ask := p.faults.askSeen,
    totals := tabMap (fun _ r => (r.pollTotal, r.missTotal)) p.table.records }

theorem Part.beginSnapshot_faults (p : Part) :
    p.beginSnapshot.faults =
      { p.faults with snapState := .writing, snapshot := some p.snapshotCopy, snapSeq := nextOdd p.faults.snapSeq } := rfl

theorem Part.snapshotCopy_totals (p : Part) (i : NodeIx) :
    p.snapshotCopy.totals.get i = ((p.node i).pollTotal, (p.node i).missTotal) := by
  simp [Part.snapshotCopy, Part.node]

section
variable {s : State} {f : Part → Part} {q : Part}

/-- A trigger in RUN with no snapshot in progress begins one. -/
theorem State.act_triggers (hf : f s.part = q) (hrun : q.ladder.state = .run) (htriggered : q.faults.triggered = true)
    (hdue : q.faults.periodDue = false) (hasking : q.faults.askReading = false) (hnone : q.faults.snapshot = none) :
    (s.act f).part.faults.snapState = .writing ∧ (s.act f).part.faults.snapshot = some q.snapshotCopy ∧
      (s.act f).part.faults.snapSeq = nextOdd q.faults.snapSeq := by
  obtain ⟨r, hr, hsettle, hladder⟩ := q.settle_snapshot
  obtain ⟨-, rsnapshot, rseq, rtriggered, rasking, rdue, rask, rcounters, rcycle, rrecords⟩ := hr
  have hrrun : r.ladder.state = .run := by rw [hladder (by rw [hrun]; decide), hrun]
  have hbegins : r.settleSnapshot = (r.modFaults fun f => { f with triggered := false }).beginSnapshot := by
    rw [Part.settleSnapshot, if_pos (by rw [rtriggered, rdue, rasking, htriggered, hdue, hasking]; rfl), Part.triggerSnapshot]
    simp only [Part.modFaults, rsnapshot, hnone, hrrun]
    rfl
  obtain ⟨hstate, hsnapshot, hseq, -⟩ := hsettle
  rw [State.act_faults, hf, hstate, hsnapshot, hseq, hbegins, Part.beginSnapshot_faults]
  refine ⟨rfl, ?_, congrArg nextOdd rseq⟩
  change some (r.modFaults fun f => { f with triggered := false }).snapshotCopy = _
  simp only [Part.snapshotCopy, Part.modFaults, rcounters, rcycle, rask, rrecords]

/-- Without a trigger a snapshot stands as the event has left it. -/
theorem State.act_notTriggered (hf : f s.part = q) (htriggered : q.faults.triggered = false) :
    (s.act f).part.faults.snapState = q.faults.snapState ∧ (s.act f).part.faults.snapshot = q.faults.snapshot ∧
      (s.act f).part.faults.snapSeq = q.faults.snapSeq := by
  obtain ⟨r, ⟨rstate, rsnapshot, rseq, rtriggered, -⟩, ⟨hstate, hsnapshot, hseq, -⟩, -⟩ := q.settle_snapshot
  have hsame : r.settleSnapshot = r := if_neg (by simp [rtriggered, htriggered])
  rw [State.act_faults, hf, hstate, hsnapshot, hseq, hsame]
  exact ⟨rstate, rsnapshot, rseq⟩

end

section
variable {s : State}

theorem exec_statPeriodExpires (hdue : s.part.faults.periodDue = true) (hasking : s.part.faults.askReading = false)
    (hrun : s.part.ladder.state = .run) (hnone : s.part.faults.snapshot = none) :
    ∃ (t : State) (n : Snapshot), exec .statPeriodExpiry s = .next t ∧ t.part.faults.periodCount = 0 ∧
      t.part.faults.snapState = .writing ∧ t.part.faults.snapshot = some n ∧
      n.counters = s.part.faults.counters ∧ n.cycle = s.part.sched.cycle ∧ n.ask = s.part.faults.askSeen ∧
      (∀ i, n.totals.get i = ((s.part.node i).pollTotal, (s.part.node i).missTotal)) ∧
      t.part.faults.snapSeq.getLsbD 0 = true ∧
      t.part.faults.snapSeq = s.part.faults.snapSeq + (if s.part.faults.snapSeq.getLsbD 0 then 2 else 1) := by
  have hexec : exec .statPeriodExpiry s = .next (s.act fun p => p.periodExpired) := by
    change execStatPeriodExpiry s = _
    rw [execStatPeriodExpiry, State.actIf, if_pos hdue]
  obtain ⟨hstate, hsnapshot, hseq⟩ :=
    State.act_triggers (s := s) (f := fun p => p.periodExpired) (q := s.part.periodExpired) rfl hrun rfl rfl hasking hnone
  obtain ⟨-, -, -, -, -, -, -, -, -, -, -, -, hcount, -⟩ := s.act_keeps fun p => p.periodExpired
  refine ⟨_, s.part.periodExpired.snapshotCopy, hexec, hcount.trans rfl, hstate, hsnapshot, rfl, rfl, rfl,
    s.part.periodExpired.snapshotCopy_totals, ?_, ?_⟩
  · rw [hseq]
    exact nextOdd_odd _
  · rw [hseq]
    change nextOdd s.part.faults.snapSeq = _
    unfold nextOdd
    split <;> rfl

theorem exec_snapshotEnds {x : Access} {n : Snapshot} (hx : s.current = some x) (hsource : x.source = .snapshot)
    (hp : s.part.ladder.softPending = false) (hrun : s.part.ladder.state = .run) (htriggered : s.part.faults.triggered = false)
    (hn : s.part.faults.snapshot = some n) (hpos : n.pos + 1 = 172) :
    ∃ t, exec .snapshotEnd s = .next t ∧
      (s.part.faults.snapState = .writing →
        t.part.faults.snapState = .idle ∧ t.part.faults.snapshot = none ∧
        t.part.faults.snapSeq = s.part.faults.snapSeq) ∧
      (s.part.faults.snapState = .owed →
        t.part.faults.snapState = .writing ∧ t.part.faults.snapshot.isSome = true ∧
        t.part.faults.snapSeq.getLsbD 0 = true) := by
  obtain ⟨f, heq, hf⟩ := completeIf_ends hx hp (mine := fun a => a.source == .snapshot && s.part.snapshotAtEnd)
    (by simp [hsource, Part.snapshotAtEnd, hn, hpos, snapshotWords]) none 0
  let p := s.begun x none 0
  have hdone : f (s.afterWord x none).part = p.endSnapshot := by
    rw [hf, hsource]
    change p.continueSnapshot = _
    rw [Part.continueSnapshot, show p.faults.snapshot = some n from hn]
    exact if_neg (by rw [hpos]; decide)
  refine ⟨_, congrArg Host.Outcome.next heq, fun hstate => ?_, fun hstate => ?_⟩
  · have hidle : p.endSnapshot = p.modFaults fun f => { f with snapshot := none, snapState := .idle } := by
      simp only [Part.endSnapshot, Part.modFaults, show p.faults.snapState = .writing from hstate]
    exact State.act_notTriggered (hdone.trans hidle) htriggered
  · have howed : p.endSnapshot = (p.modFaults fun f => { f with snapshot := none }).beginSnapshot := by
      simp only [Part.endSnapshot, Part.modFaults, show p.faults.snapState = .owed from hstate, show p.ladder.state = .run from hrun]
      rfl
    obtain ⟨kstate, ksnapshot, kseq⟩ := State.act_notTriggered (hdone.trans howed) htriggered
    rw [kstate, ksnapshot, kseq]
    exact ⟨rfl, rfl, nextOdd_odd _⟩

theorem exec_reprobes {i : NodeIx} (hopen : s.part.sched.nodeOpen = .expiring) (hrun : s.part.ladder.state = .run)
    (hlost : (s.part.node i).state = .lost) (hzero : (s.part.node i).countdown = some 0) :
    ∃ t, exec (.reprobeCountdownExpiry i) s = .next t ∧ t.part.Reprobed s.part i ∧
      t.part.faults.cause = s.part.faults.cause := by
  have hexec : exec (.reprobeCountdownExpiry i) s = .next (s.act fun p => p.reprobe i) := by
    change execReprobeCountdownExpiry i s = _
    rw [execReprobeCountdownExpiry, State.actIf, if_pos (by simp [hopen, hrun, NodeRecord.reprobeDue, hlost, hzero])]
  have hstart : s.part.ladder.state ≠ .starting := by rw [hrun]; decide
  have hladder : (s.part.reprobe i).ladder.state ≠ .starting := by simpa using hstart
  refine ⟨_, hexec, (s.part.reprobe_reprobed i hstart).of_settled
    (State.act_workSettled (s := s) (f := fun p => p.reprobe i) rfl (Part.startupWaits_of_notStarting hladder)), ?_⟩
  rw [State.act_faults, Part.settle_cause_of_notStarting _ hladder]
  obtain ⟨-, -, -, -, hfaults, -⟩ := s.part.changeState_keeps i NodeRecord.toProbing .probing
  exact congrArg FaultUnit.cause hfaults

end

/-- Settles O58: each count of the open and each end of a snapshot by its own step. -/
theorem countsExpire : Obligations.CountsExpire := by
  refine ⟨fun s i hopen hrun hlost hzero => ?_,
    fun _ _ _ _ _ dt hx hp hstart hw hsource => exec_statusFails_starting hx hp hstart hw hsource dt,
    fun _ _ _ _ dt hx hp hstart hw =>
      ⟨fun hsource => exec_statusWritten hx hp hstart hw hsource dt, fun _ hsource => exec_statusFails hx hp hstart hw hsource dt⟩,
    fun _ _ _ _ _ _ hx hsource hp hrun hopen hanswering hlist he => exec_rewriteEnds hx hsource hp hrun hopen hanswering hlist he,
    fun _ hdue hasking hrun _ hnone => exec_statPeriodExpires hdue hasking hrun hnone,
    fun _ _ _ hx hsource hp hrun htriggered hn hpos => exec_snapshotEnds hx hsource hp hrun htriggered hn hpos⟩
  obtain ⟨t, hexec, ht, hcause⟩ := exec_reprobes hopen hrun hlost hzero
  exact ⟨t, hexec, ht.state, ht.missCount, ht.countdown, ht.changeCount, ht.loss, hcause, ht.written⟩

end Sys2Proof.Machine
end

section
/-! SUPPORT. What follows an event does to the parcel unit (R113, R124, R128): answers written again, patience lowered, a scan trigger. -/

namespace Sys2Proof.Machine

/-- What a parcel unit comes to by the steps of an open: the entries but for their patience, the answers but for those of entries, a walk
under way and an answer under way as they were. -/
structure ParcelUnit.OpenStep (v u : ParcelUnit) : Prop where
  walk : u.walk ≠ .idle → v.walk = u.walk
  idle : u.walk = .idle → v.walk = .idle ∨ v.walk = .total
  scanOwed : u.scanOwed = true → v.scanOwed = true
  deferred : v.deferred = u.deferred
  cursor : v.cursor = u.cursor
  queue : ∃ patience : Parcel → Nat, v.queue = u.queue.map fun e => { e with patience := patience e }
  answers : ∀ a, (∀ k, a ≠ .entry k) → (a = .deferred → u.deferred.isSome = true) → (a ∈ v.answers ↔ a ∈ u.answers)
  answering : u.answering.isSome = true → v.answering = u.answering
  pass : v.passPos = u.passPos ∧ v.passNamed = u.passNamed

section
variable {u v w : ParcelUnit}

theorem ParcelUnit.OpenStep.refl (u : ParcelUnit) : u.OpenStep u :=
  ⟨fun _ => rfl, .inl, id, rfl, rfl, ⟨Parcel.patience, (List.map_id _).symm⟩, fun _ _ _ => .rfl, fun _ => rfl, rfl, rfl⟩

theorem ParcelUnit.OpenStep.trans (h : w.OpenStep v) (k : v.OpenStep u) : w.OpenStep u where
  walk := fun hne => (h.walk (by rw [k.walk hne]; exact hne)).trans (k.walk hne)
  idle := fun hidle => (k.idle hidle).elim h.idle fun htotal => .inr ((h.walk (by rw [htotal]; nofun)).trans htotal)
  scanOwed := fun howed => h.scanOwed (k.scanOwed howed)
  deferred := h.deferred.trans k.deferred
  cursor := h.cursor.trans k.cursor
  queue := by
    obtain ⟨f, hf⟩ := h.queue
    obtain ⟨g, hg⟩ := k.queue
    exact ⟨fun e => f { e with patience := g e }, by rw [hf, hg, List.map_map]; rfl⟩
  answers := fun a hentry hdeferred =>
    (h.answers a hentry fun ha => by rw [k.deferred]; exact hdeferred ha).trans (k.answers a hentry hdeferred)
  answering := fun hsome => (h.answering (by rw [k.answering hsome]; exact hsome)).trans (k.answering hsome)
  pass := ⟨h.pass.1.trans k.pass.1, h.pass.2.trans k.pass.2⟩

end

section
variable (p : Part)

theorem mem_of_dropped {a b : AnswerFor} {rest : List AnswerFor} (h : a ≠ b) : a ∈ rest ↔ a ∈ b :: rest := by
  rw [List.mem_cons, or_iff_right h]

/-- An answer that begins: of the answers' list only a head with nothing to write goes. -/
theorem Part.startAnswer_answers_of_kept (a : AnswerFor) (hentry : ∀ k, a ≠ .entry k)
    (hdeferred : a = .deferred → p.parcels.deferred.isSome = true) :
    a ∈ p.startAnswer.parcels.answers ↔ a ∈ p.parcels.answers := by
  unfold Part.startAnswer
  split
  next hlist =>
    split
    · split
      · rw [Part.writeAnswer_parcels]
      · rfl
    · rw [hlist]
      exact mem_of_dropped (hentry _)
  · rw [Part.writeAnswer_parcels]
  next hlist =>
    split
    · rw [Part.writeAnswer_parcels]
    next hnone =>
      rw [hlist]
      exact mem_of_dropped fun ha => by simp [hnone] at hdeferred; exact hdeferred ha
  · rfl

theorem Part.startAnswer_answering (h : p.parcels.answering.isSome = true) : p.startAnswer = p := by
  obtain ⟨pos, hpos⟩ := Option.isSome_iff_exists.mp h
  simp [Part.startAnswer, hpos]

theorem Part.readyAnswer_openStep (slot : SlotIx) : (p.readyAnswer (.entry slot)).parcels.OpenStep p.parcels := by
  let q : Part := { p with parcels := { p.parcels with answers := p.parcels.answers ++ [.entry slot] } }
  have hkeeps : (p.readyAnswer (.entry slot)).parcels.KeepsButAnswers q.parcels := q.startAnswer_keepsButAnswers
  have hmem (a : AnswerFor) (hentry : ∀ k, a ≠ .entry k) : a ∈ q.parcels.answers ↔ a ∈ p.parcels.answers := by
    change a ∈ p.parcels.answers ++ [.entry slot] ↔ _
    rw [List.mem_append, List.mem_singleton, or_iff_left (hentry slot)]
  refine ⟨fun _ => by rw [hkeeps], fun h => .inl (by rw [hkeeps]; exact h), fun h => by rw [hkeeps]; exact h, by rw [hkeeps],
    by rw [hkeeps], ⟨Parcel.patience, by rw [hkeeps]; exact (List.map_id _).symm⟩,
    fun a hentry hdeferred => (q.startAnswer_answers_of_kept a hentry hdeferred).trans (hmem a hentry),
    fun h => congrArg (fun r : Part => r.parcels.answering) (q.startAnswer_answering h) |>.trans rfl, by rw [hkeeps]; exact ⟨rfl, rfl⟩⟩

theorem Part.retryAnswers_openStep : p.retryAnswers.parcels.OpenStep p.parcels := by
  unfold Part.retryAnswers
  dsimp only
  split
  · exact .refl _
  · exact foldl_relates (fun q p => q.parcels.OpenStep p.parcels) (.refl _) (fun h k => h.trans k) _
      (fun q (e : Parcel) => q.readyAnswer_openStep e.slot) _ _

theorem Part.lowerPatience_openStep : p.lowerPatience.parcels.OpenStep p.parcels := by
  refine ⟨fun _ => rfl, .inl, id, rfl, rfl, ⟨fun e => if p.lowers e then e.patience - 1 else e.patience, ?_⟩, fun _ _ _ => .rfl,
    fun _ => rfl, rfl, rfl⟩
  refine List.map_congr_left fun e _ => ?_
  by_cases h : p.lowers e = true <;> simp [h]

theorem Part.scanTrigger_openStep (h : p.ladder.state.pauses = false) : p.scanTrigger.parcels.OpenStep p.parcels := by
  have hqueue : ∃ patience : Parcel → Nat, p.scanTrigger.parcels.queue = p.parcels.queue.map fun e => { e with patience := patience e } :=
    ⟨Parcel.patience, by rw [Part.scanTrigger_queue]; exact (List.map_id _).symm⟩
  unfold Part.scanTrigger at hqueue ⊢
  rw [h, if_neg Bool.false_ne_true] at hqueue ⊢
  split at hqueue
  next hwalk =>
    exact ⟨fun hne => absurd hwalk hne, fun _ => .inr rfl, id, rfl, rfl, hqueue, fun _ _ _ => .rfl, fun _ => rfl, rfl, rfl⟩
  next =>
    exact ⟨fun _ => rfl, .inl, id, rfl, rfl, hqueue, fun _ _ _ => .rfl, fun _ => rfl, rfl, rfl⟩
  next =>
    exact ⟨fun _ => rfl, .inl, fun _ => rfl, rfl, rfl, hqueue, fun _ _ _ => .rfl, fun _ => rfl, rfl, rfl⟩

theorem Part.settleParcelOpen_openStep : p.settleParcelOpen.parcels.OpenStep p.parcels := by
  unfold Part.settleParcelOpen
  split
  next hrun =>
    have hrewrites : p.openRewrites.parcels.OpenStep p.parcels := by
      unfold Part.openRewrites
      split
      · exact p.retryAnswers_openStep
      · exact .refl _
    have hpatience (q : Part) : q.openPatience.parcels.OpenStep q.parcels := by
      unfold Part.openPatience
      split
      · exact q.lowerPatience_openStep
      · exact .refl _
    have hscan (q : Part) (hq : q.ladder.state = .run) : q.openScan.parcels.OpenStep q.parcels := by
      unfold Part.openScan
      split
      · exact Part.scanTrigger_openStep (q.modSched _) (by rw [Part.modSched_ladder, hq]; rfl)
      · exact .refl _
    exact ((hscan _ (by simpa using hrun)).trans (hpatience _)).trans hrewrites
  · exact .refl _

/-- What follows any event does no more to the parcel unit than the steps of an open do. -/
theorem Part.settle_openStep : p.settle.parcels.OpenStep p.parcels := by
  by_cases hrun : p.ladder.state = .run
  · obtain ⟨r, hparcels, -, hr, -⟩ := p.settle_parcelOpen hrun
    rw [hparcels, ← hr]
    exact r.settleParcelOpen_openStep
  · rw [p.settle_parcels hrun]
    exact .refl _

end

theorem State.act_openStep {s : State} {f : Part → Part} {q : Part} (hf : f s.part = q) :
    (s.act f).part.parcels.OpenStep q.parcels := by
  rw [State.act_parcels, hf]
  exact q.settle_openStep

/-- An entry keeps all but its patience. -/
theorem ParcelUnit.OpenStep.parcelOf {p q : Part} (h : q.parcels.OpenStep p.parcels) (k : SlotIx) :
    ∃ patience : Parcel → Nat, q.parcelOf k = (p.parcelOf k).map fun e => { e with patience := patience e } := by
  obtain ⟨patience, hqueue⟩ := h.queue
  refine ⟨patience, ?_⟩
  rw [Part.parcelOf, hqueue]
  exact find?_map_slot (fun e => { e with patience := patience e }) (fun _ => rfl) k _

/-! ## SLOT VISITS (R114, R178) -/

section
variable {p : Part} {slot : SlotIx} {left : Nat}

/-- An answer of the walk is put on the list, and stays there as it begins. -/
theorem Part.mem_readyAnswer {a : AnswerFor} (hentry : ∀ k, a ≠ .entry k) (hdeferred : a = .deferred → p.parcels.deferred.isSome = true) :
    a ∈ (p.readyAnswer a).parcels.answers := by
  refine (Part.startAnswer_answers_of_kept _ a hentry ?_).mpr ?_
  · exact hdeferred
  · exact List.mem_append_right _ (List.mem_singleton_self _)

theorem Part.readyAnswer_walk (a : AnswerFor) : (p.readyAnswer a).parcels.walk = p.parcels.walk := by
  rw [Part.readyAnswer_keepsButAnswers]

theorem Part.walkEnd_walk : p.walkEnd.parcels.walk = .idle ∨ p.walkEnd.parcels.walk = .total := by
  unfold Part.walkEnd
  dsimp only
  split
  · unfold Part.scanTrigger
    split <;> simp [Part.readTotal]
  · exact .inl rfl

theorem Part.walkEnd_answers : p.walkEnd.parcels.answers = p.parcels.answers := by
  unfold Part.walkEnd Part.scanTrigger
  dsimp only
  (repeat' split) <;> rfl

theorem Part.walkOn_answers : (p.walkOn slot left).parcels.answers = p.parcels.answers := by
  unfold Part.walkOn
  split
  · exact Part.walkEnd_answers
  · rfl

end

/-! ### The three numbers of a slot -/

section
variable {p : Part} {slot : SlotIx} {left : Nat}

theorem Part.deferredAt_iff : p.deferredAt slot = true ↔ ∃ d, p.parcels.deferred = some d ∧ d.slot = slot := by
  rw [Part.deferredAt, beq_iff_eq, Option.map_eq_some_iff]

theorem Part.notJudged_iff {ask taken answer : Half} :
    p.notJudged slot ask taken answer = true ↔ ask = taken ∨ ask = answer ∨ ∃ e ∈ p.parcels.queue, e.slot = slot := by
  rw [Part.notJudged, Bool.or_eq_true, Bool.or_eq_true, beq_iff_eq, beq_iff_eq, or_assoc, Part.parcelOf, List.find?_isSome]
  simp only [beq_iff_eq]

theorem Part.visitRead_deferred {ask taken answer : Word} (h : p.deferredAt slot = true) :
    p.visitRead slot left [ask, taken, answer] = p.answerDeferred slot left := if_pos h

theorem Part.visitRead_passed {ask taken answer : Word} (h : p.deferredAt slot = false)
    (hpassed : p.notJudged slot (halfAt ask 0) (halfAt taken 0) (halfAt answer 0) = true) :
    p.visitRead slot left [ask, taken, answer] = p.walkOn slot left := (if_neg (by simp [h])).trans (if_pos hpassed)

theorem Part.visitRead_goesOn {ask taken answer : Word} (h : p.deferredAt slot = false)
    (hjudged : p.notJudged slot (halfAt ask 0) (halfAt taken 0) (halfAt answer 0) = false) :
    p.visitRead slot left [ask, taken, answer] =
      { p with parcels := { p.parcels with walk := .visit slot left [ask, taken, answer] } }.issueRead .walk
        (0x2000 + 512 * slot.val + 0x004) := (if_neg (by simp [h])).trans (if_neg (by simp [hjudged]))

end

section
variable {s : State} {x : Access}

theorem Part.takeParcelEnd_of_works {p : Part} (h : p.ladder.state.pauses = false) (e : ParcelEnd) : p.takeParcelEnd e = p.parcelEnd e :=
  if_neg (by simp [h])

theorem Part.takeParcelEnd_of_pauses {p : Part} (h : p.ladder.state.pauses = true) (e : ParcelEnd) :
    p.takeParcelEnd e = { p with parcels := { p.parcels with keptEnd := some e } } := if_pos h

theorem State.completeIf_of_other {mine : Access → Bool} (hx : s.current = some x) (h : mine x = false) (host : Option Word) (dt : Nat) :
    s.completeIf mine host dt = s := by
  rw [State.completeIf, hx]
  exact if_neg (by simp [h])

/-- The read that decides a slot completes as SLOT_VISIT, and the walk goes on with its word. -/
theorem exec_slotVisit (hx : s.current = some x) (hsource : x.source = .walk) (hp : s.part.ladder.softPending = false)
    {host : Option Word} (hdecides : s.part.visitDecides (s.wordOf x host) = true) :
    ∃ f : Part → Part, exec (.slotVisit host) s = .next ((s.afterWord x host).act f) ∧
      f (s.afterWord x host).part = (s.begun x host 0).takeParcelEnd (.walk (some (s.wordOf x host))) := by
  obtain ⟨f, heq, hf⟩ := completeIf_ends hx hp
    (mine := fun a => a.source == .walk && s.part.visitDecides (s.nextValue a host)) (by rw [hsource]; exact hdecides) host 0
  exact ⟨f, congrArg Host.Outcome.next heq, by rw [hf, hsource]; rfl⟩

theorem exec_walkRead (hx : s.current = some x) (hsource : x.source = .walk) (hp : s.part.ladder.softPending = false)
    (host : Option Word) (dt : Nat) :
    ∃ f : Part → Part, exec (.memoryAccessComplete host dt) s = .next ((s.afterWord x host).act f) ∧
      f (s.afterWord x host).part = (s.begun x host dt).takeParcelEnd (.walk (some (s.wordOf x host))) := by
  obtain ⟨f, hexec, hf⟩ := exec_accessEnds hx hp host dt
  exact ⟨f, hexec, by rw [hf, hsource]; rfl⟩

theorem Part.continueWalk_of_visit {p : Part} {slot : SlotIx} {left : Nat} {got : List Word} (h : p.parcels.walk = .visit slot left got)
    (w : Word) : p.continueWalk w = p.visitRead slot left (got ++ [w]) := by
  rw [Part.continueWalk, h]

theorem exec_answerNumberRead {host : Option Word} {slot : SlotIx} {left : Nat} {ask taken answer : Word} (dt : Nat)
    (hx : s.current = some x) (hsource : x.source = .walk) (hp : s.part.ladder.softPending = false)
    (hworks : s.part.ladder.state.pauses = false) (hwalk : s.part.parcels.walk = .visit slot left [ask, taken])
    (hanswer : answer = s.wordOf x host) :
    let deferred := ∃ d, s.part.parcels.deferred = some d ∧ d.slot = slot
    let passed := ask.extractLsb' 0 16 = taken.extractLsb' 0 16 ∨ ask.extractLsb' 0 16 = answer.extractLsb' 0 16 ∨
      ∃ e ∈ s.part.parcels.queue, e.slot = slot
    (deferred → ∃ t, exec (.slotVisit host) s = .next t ∧ t.part.parcels.walk = .answering slot left ∧
      .deferred ∈ t.part.parcels.answers) ∧
    (¬ deferred → passed → ∃ t, exec (.slotVisit host) s = .next t ∧
      (1 < left → t.part.parcels.walk = .visit (slot + 1) (left - 1) []) ∧
      (left ≤ 1 → t.part.parcels.walk = .idle ∨ t.part.parcels.walk = .total) ∧
      ∀ n o, .immediate slot n o ∈ t.part.parcels.answers → .immediate slot n o ∈ s.part.parcels.answers) ∧
    (¬ deferred → ¬ passed → exec (.slotVisit host) s = .next s ∧
      ∃ t, exec (.memoryAccessComplete host dt) s = .next t ∧
        t.part.parcels.walk = .visit slot left [ask, taken, answer] ∧
        t.part.asks { offset := 0x2000 + 512 * slot.val + 0x004, write := none, source := .walk }) := by
  intro deferred passed
  have hdecides : s.part.visitDecides (s.wordOf x host) =
      (s.part.deferredAt slot || s.part.notJudged slot (halfAt ask 0) (halfAt taken 0) (halfAt answer 0)) := by
    rw [Part.visitDecides, hwalk, hanswer]
  have hgoes {f : Part → Part} {dt : Nat} (hf : f (s.afterWord x host).part =
      (s.begun x host dt).takeParcelEnd (.walk (some (s.wordOf x host)))) :
      f (s.afterWord x host).part = (s.begun x host dt).visitRead slot left [ask, taken, answer] := by
    rw [hf, Part.takeParcelEnd_of_works (p := s.begun x host dt) hworks, ← hanswer]
    exact Part.continueWalk_of_visit (p := s.begun x host dt) hwalk answer
  refine ⟨fun h => ?deferred, fun h hpassed => ?passed, fun h hjudged => ?judged⟩
  case deferred =>
    have hat : s.part.deferredAt slot = true := Part.deferredAt_iff.mpr h
    obtain ⟨f, hexec, hf⟩ := exec_slotVisit hx hsource hp (hdecides.trans (by rw [hat]; rfl))
    have hdone := (hgoes hf).trans (Part.visitRead_deferred hat)
    have hstep := State.act_openStep hdone
    let p := s.begun x host 0
    let q : Part := { p with parcels := { p.parcels with walk := .answering slot left } }
    have hq : p.answerDeferred slot left = q.readyAnswer .deferred := rfl
    have hwalked : (p.answerDeferred slot left).parcels.walk = .answering slot left := by rw [hq, Part.readyAnswer_walk]
    have hsome : q.parcels.deferred.isSome = true := by
      obtain ⟨d, hd, -⟩ := h
      exact Option.isSome_iff_exists.mpr ⟨d, hd⟩
    have hkept : (p.answerDeferred slot left).parcels.deferred = q.parcels.deferred := by rw [hq, Part.readyAnswer_keepsButAnswers]
    refine ⟨_, hexec, (hstep.walk (by rw [hwalked]; nofun)).trans hwalked, (hstep.answers .deferred nofun fun _ => ?_).mpr ?_⟩
    · rw [hkept]
      exact hsome
    · rw [hq]
      exact Part.mem_readyAnswer nofun fun _ => hsome
  case passed =>
    have hat : s.part.deferredAt slot = false := Bool.eq_false_iff.mpr fun htrue => h (Part.deferredAt_iff.mp htrue)
    have hnot : s.part.notJudged slot (halfAt ask 0) (halfAt taken 0) (halfAt answer 0) = true := Part.notJudged_iff.mpr hpassed
    obtain ⟨f, hexec, hf⟩ := exec_slotVisit hx hsource hp (hdecides.trans (by rw [hnot, Bool.or_true]))
    have hdone := (hgoes hf).trans (Part.visitRead_passed hat hnot)
    have hstep := State.act_openStep hdone
    refine ⟨_, hexec, fun hmore => ?_, fun hlast => ?_, fun n o hmem => ?_⟩
    · have hon : ((s.begun x host 0).walkOn slot left).parcels.walk = .visit (slot + 1) (left - 1) [] := by
        rw [Part.walkOn, if_neg (by omega)]
        rfl
      exact (hstep.walk (by rw [hon]; nofun)).trans hon
    · have hon : (s.begun x host 0).walkOn slot left = (s.begun x host 0).walkEnd := if_pos hlast
      rw [hon] at hstep
      rcases (s.begun x host 0).walkEnd_walk with hidle | htotal
      · exact hstep.idle hidle
      · exact .inr ((hstep.walk (by rw [htotal]; nofun)).trans htotal)
    · have hmem := (hstep.answers (.immediate slot n o) nofun nofun).mp hmem
      rwa [Part.walkOn_answers] at hmem
  case judged =>
    have hat : s.part.deferredAt slot = false := Bool.eq_false_iff.mpr fun htrue => h (Part.deferredAt_iff.mp htrue)
    have hnot : s.part.notJudged slot (halfAt ask 0) (halfAt taken 0) (halfAt answer 0) = false :=
      Bool.eq_false_iff.mpr fun htrue => hjudged (Part.notJudged_iff.mp htrue)
    have hother : exec (.slotVisit host) s = .next s := by
      refine congrArg Host.Outcome.next (State.completeIf_of_other hx ?_ host 0)
      rw [Bool.and_eq_false_iff]
      exact .inr (hdecides.trans (by rw [hat, hnot]; rfl))
    obtain ⟨f, hexec, hf⟩ := exec_walkRead hx hsource hp host dt
    have hdone := (hgoes hf).trans (Part.visitRead_goesOn hat hnot)
    refine ⟨hother, _, hexec, (State.act_openStep hdone).walk nofun, State.act_asks _ f ?_⟩
    rw [hdone]
    exact Part.mem_issueRead _ _ _

end

/-! ### The words of a request -/

section
variable {p : Part} {slot : SlotIx} {left : Nat} {ask withdraw : Half} {target length : Word}

/-- The request length decides a slot: what it asks for is no request of the unit (R114, case 4). -/
def invalidRequest (target length : Word) : Prop :=
  ¬ (1 ≤ (target.extractLsb' 0 8).toNat ∧ (target.extractLsb' 0 8).toNat ≤ 250) ∨
    ¬ (1 ≤ (target.extractLsb' 8 8).toNat ∧ (target.extractLsb' 8 8).toNat ≤ 3) ∨
    240 < (length.extractLsb' 0 16).toNat ∨ (target.extractLsb' 8 8).toNat = 2 ∧ (length.extractLsb' 0 16).toNat = 0

/-- The record of a line address can be sent to (R114, case 5). -/
def Part.availableAt (p : Part) (address : Byte) : Prop :=
  ∃ i, p.enabledAt address = some i ∧ (p.node i).state ≠ .lost ∧ (p.node i).state ≠ .misfit

theorem Operation.ofCode_cases (b : Byte) :
    (Operation.ofCode b = none ∧ ¬ (1 ≤ b.toNat ∧ b.toNat ≤ 3)) ∨
      ∃ op, Operation.ofCode b = some op ∧ op.code = b ∧ (1 ≤ b.toNat ∧ b.toNat ≤ 3) ∧ ((op == .write) = decide (b.toNat = 2)) := by
  revert b
  decide

theorem not_isLineAddress_iff {a : Byte} : (!isLineAddress a) = true ↔ ¬ (1 ≤ a.toNat ∧ a.toNat ≤ 250) := by
  rw [isLineAddress, Bool.not_eq_true', Bool.eq_false_iff, ne_eq, Bool.and_eq_true, decide_eq_true_eq, decide_eq_true_eq]
  rfl

theorem Part.judgeSlot_of_withdrawn (h : withdraw = ask) :
    p.judgeSlot slot left ask withdraw target length = p.answerAtOnce slot left ask .withdrawn := if_pos h

theorem Part.judgeSlot_of_invalid (hw : withdraw ≠ ask) (h : invalidRequest target length) :
    p.judgeSlot slot left ask withdraw target length = p.answerAtOnce slot left ask .refusedRequest := by
  rw [Part.judgeSlot]
  rw [if_neg hw]
  rcases Operation.ofCode_cases (byteAt target 1) with ⟨hop, -⟩ | ⟨op, hop, -, hrange, hwrite⟩
  · rw [hop]
  · rw [hop]
    refine if_pos ?_
    rw [hwrite]
    simp only [Bool.or_eq_true, Bool.and_eq_true, not_isLineAddress_iff, decide_eq_true_eq, beq_iff_eq]
    rcases h with h | h | h | h
    · exact .inl (.inl h)
    · exact absurd hrange h
    · exact .inl (.inr h)
    · exact .inr h

theorem Part.judgeSlot_of_valid (hw : withdraw ≠ ask) (h : ¬ invalidRequest target length) :
    ∃ op : Operation, op.code = target.extractLsb' 8 8 ∧ p.judgeSlot slot left ask withdraw target length =
      match p.enabledAt (target.extractLsb' 0 8) with
      | none => p.answerAtOnce slot left ask .nodeUnavailable
      | some i =>
        if (p.node i).state = .lost ∨ (p.node i).state = .misfit then p.answerAtOnce slot left ask .nodeUnavailable
        else if p.parcels.queue.length < Config.parcelEntries then
          p.beginTake slot left
            { node := i, ask := ask, target := target.extractLsb' 0 8, operation := op, parameter := halfAt target 1,
              length := (halfAt length 0).toNat }
        else p.walkStop slot := by
  rw [invalidRequest, not_or, not_or, not_or, not_not, not_not] at h
  obtain ⟨haddress, hoperation, hlength, hempty⟩ := h
  rcases Operation.ofCode_cases (byteAt target 1) with ⟨-, hrange⟩ | ⟨op, hop, hcode, -, hwrite⟩
  · exact absurd hoperation hrange
  · refine ⟨op, hcode, ?_⟩
    rw [Part.judgeSlot]
    rw [if_neg hw, hop]
    refine if_neg ?_
    rw [hwrite]
    simp only [Bool.or_eq_true, Bool.and_eq_true, not_isLineAddress_iff, decide_eq_true_eq, beq_iff_eq]
    rintro ((hbad | hbad) | hbad)
    · exact hbad haddress
    · exact hlength hbad
    · exact hempty hbad

theorem Part.judgeSlot_of_unavailable (hw : withdraw ≠ ask) (h : ¬ invalidRequest target length)
    (hnone : ¬ p.availableAt (target.extractLsb' 0 8)) :
    p.judgeSlot slot left ask withdraw target length = p.answerAtOnce slot left ask .nodeUnavailable := by
  obtain ⟨op, -, hjudge⟩ := p.judgeSlot_of_valid (slot := slot) (left := left) hw h
  rw [hjudge]
  split
  · rfl
  next i hi =>
    refine if_pos ?_
    by_contra hstate
    exact hnone ⟨i, hi, not_or.mp hstate⟩

theorem Part.judgeSlot_of_available (hw : withdraw ≠ ask) (h : ¬ invalidRequest target length)
    (havailable : p.availableAt (target.extractLsb' 0 8)) : ∃ header : SlotHeader,
      p.enabledAt (target.extractLsb' 0 8) = some header.node ∧ header.ask = ask ∧ header.target = target.extractLsb' 0 8 ∧
      header.operation.code = target.extractLsb' 8 8 ∧ header.parameter = target.extractLsb' 16 16 ∧
      header.length = (length.extractLsb' 0 16).toNat ∧
      p.judgeSlot slot left ask withdraw target length =
        if p.parcels.queue.length < 6 then p.beginTake slot left header else p.walkStop slot := by
  obtain ⟨op, hcode, hjudge⟩ := p.judgeSlot_of_valid (slot := slot) (left := left) hw h
  obtain ⟨i, hi, hlost, hmisfit⟩ := havailable
  refine ⟨{ node := i, ask := ask, target := target.extractLsb' 0 8, operation := op, parameter := halfAt target 1,
            length := (halfAt length 0).toNat }, hi, rfl, rfl, hcode, rfl, rfl, ?_⟩
  rw [hjudge, hi]
  exact if_neg (not_or.mpr ⟨hlost, hmisfit⟩)

theorem Part.beginTake_walk (header : SlotHeader) : (p.beginTake slot left header).parcels.walk =
    if header.length = 0 then .taking slot left header [] else .copying slot left header [] := by
  unfold Part.beginTake
  split
  next h => simp [Part.writeTaken]
  · rfl

theorem Part.mem_answerAtOnce (outcome : ParcelOutcome) :
    .immediate slot ask outcome ∈ (p.answerAtOnce slot left ask outcome).parcels.answers :=
  Part.mem_readyAnswer (p := { p with parcels := { p.parcels with walk := .answering slot left } }) nofun nofun

end

section
variable {s : State} {x : Access}

theorem exec_requestLengthRead {host : Option Word} {slot : SlotIx} {left : Nat} {ask taken answer withdraw target length : Word}
    (hx : s.current = some x) (hsource : x.source = .walk) (hp : s.part.ladder.softPending = false)
    (hworks : s.part.ladder.state.pauses = false)
    (hwalk : s.part.parcels.walk = .visit slot left [ask, taken, answer, withdraw, target]) (hlength : length = s.wordOf x host) :
    let number := ask.extractLsb' 0 16
    let node := s.part.enabledAt (target.extractLsb' 0 8)
    ∃ t, exec (.slotVisit host) s = .next t ∧
      (withdraw.extractLsb' 0 16 = number → .immediate slot number .withdrawn ∈ t.part.parcels.answers) ∧
      (withdraw.extractLsb' 0 16 ≠ number → invalidRequest target length →
        .immediate slot number .refusedRequest ∈ t.part.parcels.answers) ∧
      (withdraw.extractLsb' 0 16 ≠ number → ¬ invalidRequest target length → ¬ s.part.availableAt (target.extractLsb' 0 8) →
        .immediate slot number .nodeUnavailable ∈ t.part.parcels.answers) ∧
      (withdraw.extractLsb' 0 16 ≠ number → ¬ invalidRequest target length → s.part.availableAt (target.extractLsb' 0 8) →
        s.part.parcels.queue.length < 6 →
        ∃ h : SlotHeader, node = some h.node ∧ h.ask = number ∧ h.target = target.extractLsb' 0 8 ∧
          h.operation.code = target.extractLsb' 8 8 ∧ h.parameter = target.extractLsb' 16 16 ∧
          h.length = (length.extractLsb' 0 16).toNat ∧
          t.part.parcels.walk =
            (if h.length = 0 then .taking slot left h [] else .copying slot left h [])) ∧
      (withdraw.extractLsb' 0 16 ≠ number → ¬ invalidRequest target length → s.part.availableAt (target.extractLsb' 0 8) →
        6 ≤ s.part.parcels.queue.length → t.part.parcels.cursor = slot ∧ t.part.parcels.scanOwed = true) := by
  intro number node
  obtain ⟨f, hexec, hf⟩ := exec_slotVisit hx hsource hp (host := host) (by rw [Part.visitDecides, hwalk])
  let p := s.begun x host 0
  have hdone : f (s.afterWord x host).part = p.judgeSlot slot left number (withdraw.extractLsb' 0 16) target length := by
    rw [hf, Part.takeParcelEnd_of_works (p := p) hworks, ← hlength]
    exact Part.continueWalk_of_visit (p := p) hwalk length
  have hanswered {outcome : ParcelOutcome}
      (h : p.judgeSlot slot left number (withdraw.extractLsb' 0 16) target length = p.answerAtOnce slot left number outcome) :
      .immediate slot number outcome ∈ ((s.afterWord x host).act f).part.parcels.answers :=
    ((State.act_openStep (hdone.trans h)).answers (.immediate slot number outcome) nofun nofun).mpr (Part.mem_answerAtOnce outcome)
  refine ⟨_, hexec, fun hw => hanswered (Part.judgeSlot_of_withdrawn hw), fun hw h => hanswered (Part.judgeSlot_of_invalid hw h),
    fun hw h hnone => hanswered (Part.judgeSlot_of_unavailable hw h hnone), fun hw h havailable hroom => ?_,
    fun hw h havailable hfull => ?_⟩
  · obtain ⟨header, hnode, hask, htarget, hoperation, hparameter, hlen, hjudge⟩ :=
      Part.judgeSlot_of_available (p := p) (slot := slot) (left := left) hw h havailable
    have htaken := hdone.trans (hjudge.trans (if_pos hroom))
    have hwalked := p.beginTake_walk (slot := slot) (left := left) header
    refine ⟨header, hnode, hask, htarget, hoperation, hparameter, hlen, ((State.act_openStep htaken).walk ?_).trans hwalked⟩
    rw [hwalked]
    split <;> nofun
  · obtain ⟨header, -, -, -, -, -, -, hjudge⟩ :=
      Part.judgeSlot_of_available (p := p) (slot := slot) (left := left) hw h havailable
    have hstep := State.act_openStep (hdone.trans (hjudge.trans (if_neg (Nat.not_lt.mpr hfull))))
    exact ⟨hstep.cursor.trans rfl, hstep.scanOwed rfl⟩

/-- At rest the parcel unit keeps the end of its access (R129; log 37). -/
theorem State.act_keepsEnd {t : State} {f : Part → Part} {p : Part} {e : ParcelEnd}
    (hrest : p.ladder.state = .resting ∨ p.ladder.state = .rousing) (hf : f t.part = p.takeParcelEnd e) :
    (t.act f).part.parcels = { p.parcels with keptEnd := some e } := by
  have hkept := hf.trans (Part.takeParcelEnd_of_pauses (by rcases hrest with h | h <;> rw [h] <;> rfl) e)
  rw [State.act_parcels, hkept]
  exact Part.settle_parcels _ (by rcases hrest with h | h <;> simp [h])

theorem exec_parcelAccessFails_atRest (hx : s.current = some x) (hp : s.part.ladder.softPending = false)
    (hrest : s.part.ladder.state = .resting ∨ s.part.ladder.state = .rousing) {e : ParcelEnd}
    (hsource : ∀ p : Part, p.blockFailed x.source = p.takeParcelEnd e) (dt : Nat) :
    ∃ t, exec (.memoryErrorResponse dt) s = .next t ∧ t.part.parcels = { s.part.parcels with keptEnd := some e } := by
  obtain ⟨f, hexec, hf⟩ := exec_accessFails hx hp (by rcases hrest with h | h <;> rw [h] <;> decide) dt
  let p := (s.begun x none dt).report .memory (BitVec.ofNat 16 x.offset)
  have hsame : (p.takeParcelEnd e).holdCheckStopped = p.takeParcelEnd e := by
    refine if_neg fun h => ?_
    have hladder : (p.takeParcelEnd e).ladder.state = s.part.ladder.state := by simp [p]; rfl
    rw [hladder] at h
    rcases hrest with hr | hr <;> rw [hr] at h <;> cases h.1
  have hdone : f (s.offList s.mem).part = p.takeParcelEnd e := by
    rw [hf, hsource]
    exact hsame
  refine ⟨_, hexec, (State.act_keepsEnd (p := p) hrest hdone).trans ?_⟩
  exact congrArg (fun u : ParcelUnit => { u with keptEnd := some e })
    ((s.begun x none dt).report_parcels .memory (BitVec.ofNat 16 x.offset))

theorem exec_walkEnds_atRest (hx : s.current = some x) (hsource : x.source = .walk) (hp : s.part.ladder.softPending = false)
    (hrest : s.part.ladder.state = .resting ∨ s.part.ladder.state = .rousing) (host : Option Word) (dt : Nat) :
    let kept := fun t : State => t.part.parcels = { s.part.parcels with keptEnd := some (.walk (some (s.wordOf x host))) }
    (∃ t, exec (.memoryAccessComplete host dt) s = .next t ∧ kept t) ∧
    (∀ slot left ask taken answer withdraw target,
      s.part.parcels.walk = .visit slot left [ask, taken, answer, withdraw, target] →
      ∃ t, exec (.slotVisit host) s = .next t ∧ kept t) ∧
    (∃ t, exec (.memoryErrorResponse dt) s = .next t ∧
      t.part.parcels = { s.part.parcels with keptEnd := some (.walk none) }) := by
  intro kept
  refine ⟨?_, fun slot left ask taken answer withdraw target hwalk => ?_,
    exec_parcelAccessFails_atRest hx hp hrest (fun p => by rw [hsource]; rfl) dt⟩
  · obtain ⟨f, hexec, hf⟩ := exec_walkRead hx hsource hp host dt
    exact ⟨_, hexec, State.act_keepsEnd (p := s.begun x host dt) hrest hf⟩
  · obtain ⟨f, hexec, hf⟩ := exec_slotVisit hx hsource hp (host := host) (by rw [Part.visitDecides, hwalk])
    exact ⟨_, hexec, State.act_keepsEnd (p := s.begun x host 0) hrest hf⟩

end

/-- Settles O56: the answer number's read, the request length's read, and the walk's reads at rest. -/
theorem slotVisited : Obligations.SlotVisited :=
  ⟨fun _ _ _ dt _ _ _ _ _ hx hsource hp hworks hwalk hanswer => exec_answerNumberRead dt hx hsource hp hworks hwalk hanswer,
    fun _ _ _ _ _ _ _ _ _ _ _ hx hsource hp hworks hwalk hlength => exec_requestLengthRead hx hsource hp hworks hwalk hlength,
    fun _ _ host dt hx hsource hp hrest => exec_walkEnds_atRest hx hsource hp hrest host dt⟩

end Sys2Proof.Machine
end

section
/-! SUPPORT. A parcel's exchanges (R118 to R124): what naming an exchange does to the entries, the outcome of a SEG or a NEXT, and an
entry's way to its end. -/

namespace Sys2Proof.Machine

/-! ## Entries as a pass goes by -/

/-- An entry but for the marks of the pass and its patience. -/
def Parcel.Same (f e : Parcel) : Prop := f = { e with given := f.given, passed := f.passed, patience := f.patience }

theorem Parcel.Same.refl (e : Parcel) : e.Same e := rfl

theorem Parcel.Same.trans {e f g : Parcel} (h : g.Same f) (k : f.Same e) : g.Same e := by
  rw [Parcel.Same] at *
  rw [h, k]

theorem Parcel.Same.answerWrites {e f : Parcel} (h : f.Same e) : f.answerWrites = e.answerWrites := by
  rw [h]
  rfl

/-- What the choice of the next exchange leaves of the parcel unit: all but the marks of the pass and its place. -/
structure ParcelUnit.PassStep (v u : ParcelUnit) : Prop where
  queue : ∃ given passed : Parcel → Bool, v.queue = u.queue.map fun e => { e with given := given e, passed := passed e }
  answers : v.answers = u.answers
  answering : v.answering = u.answering

theorem ParcelUnit.PassStep.of_queue {v u : ParcelUnit} (h : v.queue = u.queue) (ha : v.answers = u.answers)
    (hb : v.answering = u.answering) : v.PassStep u :=
  ⟨⟨Parcel.given, Parcel.passed, h.trans (List.map_id _).symm⟩, ha, hb⟩

theorem ParcelUnit.PassStep.trans {w v u : ParcelUnit} (h : w.PassStep v) (k : v.PassStep u) : w.PassStep u := by
  obtain ⟨given, passed, hw⟩ := h.queue
  obtain ⟨given', passed', hv⟩ := k.queue
  refine ⟨⟨fun e => given { e with given := given' e, passed := passed' e },
    fun e => passed { e with given := given' e, passed := passed' e }, ?_⟩, h.answers.trans k.answers, h.answering.trans k.answering⟩
  rw [hw, hv, List.map_map]
  rfl

theorem Part.parcelOf_of_map {q p : Part} {g : Parcel → Parcel} (hg : ∀ e, (g e).slot = e.slot)
    (h : q.parcels.queue = p.parcels.queue.map g) (k : SlotIx) : q.parcelOf k = (p.parcelOf k).map g := by
  rw [Part.parcelOf, h]
  exact find?_map_slot g hg k _

theorem ParcelUnit.PassStep.parcelOf {q p : Part} (h : q.parcels.PassStep p.parcels) {k : SlotIx} {e : Parcel}
    (he : p.parcelOf k = some e) : ∃ e', q.parcelOf k = some e' ∧ e'.Same e := by
  obtain ⟨given, passed, hqueue⟩ := h.queue
  let g : Parcel → Parcel := fun e => { e with given := given e, passed := passed e }
  exact ⟨g e, by rw [Part.parcelOf_of_map (g := g) (fun _ => rfl) hqueue, he]; rfl, rfl⟩

theorem ParcelUnit.OpenStep.same {q p : Part} (h : q.parcels.OpenStep p.parcels) {k : SlotIx} {e : Parcel} (he : p.parcelOf k = some e) :
    ∃ e', q.parcelOf k = some e' ∧ e' = { e with patience := e'.patience } := by
  obtain ⟨patience, hof⟩ := h.parcelOf k
  exact ⟨_, by rw [hof, he]; rfl, rfl⟩

/-- What follows an event leaves an entry but for its patience. -/
theorem State.act_parcelOf {s : State} {f : Part → Part} {q : Part} (hf : f s.part = q) {k : SlotIx} {e : Parcel}
    (he : q.parcelOf k = some e) : ∃ e', (s.act f).part.parcelOf k = some e' ∧ e' = { e with patience := e'.patience } :=
  (State.act_openStep hf).same he

section
variable (p : Part)

theorem parcelOf_slot {p : Part} {slot : SlotIx} {e : Parcel} (h : p.parcelOf slot = some e) : e.slot = slot :=
  beq_iff_eq.mp (List.find?_some (p := fun e : Parcel => e.slot == slot) h)

theorem Part.modParcel_parcelOf {f : Parcel → Parcel} (hf : ∀ e, (f e).slot = e.slot) (slot k : SlotIx) :
    (p.modParcel slot f).parcelOf k = (p.parcelOf k).map fun e => if e.slot = slot then f e else e :=
  Part.parcelOf_of_map (fun e => by split <;> simp [hf]) rfl k

theorem Part.modParcel_parcelOf_self {f : Parcel → Parcel} (hf : ∀ e, (f e).slot = e.slot) {slot : SlotIx} {e : Parcel}
    (he : p.parcelOf slot = some e) : (p.modParcel slot f).parcelOf slot = some (f e) := by
  rw [Part.modParcel_parcelOf _ hf, he]
  exact congrArg some (if_pos (parcelOf_slot he))

theorem Part.enterClosing_passStep : p.enterClosing.parcels.PassStep p.parcels := .of_queue rfl rfl rfl

theorem Part.nameExchange_passStep (e : Parcel) (bt : Nat) (ex : Exchange) (frame : List Byte) :
    (p.nameExchange e bt id ex frame).parcels.PassStep p.parcels := by
  unfold Part.nameExchange
  split
  · refine ⟨⟨fun o => if o.slot = e.slot then true else o.given, Parcel.passed, ?_⟩, rfl, rfl⟩
    refine List.map_congr_left fun o _ => ?_
    by_cases h : o.slot = e.slot <;> simp [h]
  · exact p.enterClosing_passStep

theorem Part.serveParcel_passStep (e : Parcel) : (p.serveParcel e).parcels.PassStep p.parcels := by
  unfold Part.serveParcel
  split
  · exact .of_queue rfl rfl rfl
  · exact .of_queue rfl rfl rfl
  · exact p.nameExchange_passStep _ _ _ _
  · exact p.nameExchange_passStep _ _ _ _

theorem Part.newPass_passStep : p.newPass.parcels.PassStep p.parcels := ⟨⟨fun _ => false, Parcel.passed, rfl⟩, rfl, rfl⟩

theorem Part.parcelNext_passStep : p.parcelNext.parcels.PassStep p.parcels := by
  unfold Part.parcelNext
  split
  · exact p.serveParcel_passStep _
  · split
    · dsimp only
      split
      · exact (Part.serveParcel_passStep _ _).trans p.newPass_passStep
      · exact (Part.enterClosing_passStep _).trans p.newPass_passStep
    · exact p.enterClosing_passStep

theorem Part.nameExchange_extends (e : Parcel) (bt : Nat) (f : Parcel → Parcel) (ex : Exchange) (frame : List Byte) :
    (p.nameExchange e bt f ex frame).Extends p := by
  unfold Part.nameExchange
  split
  · exact .rfl
  · exact List.prefix_append _ _

theorem Part.serveParcel_extends (e : Parcel) : (p.serveParcel e).Extends p := by
  unfold Part.serveParcel
  split
  · exact List.prefix_append _ _
  · exact List.prefix_append _ _
  · exact p.nameExchange_extends _ _ _ _ _
  · exact p.nameExchange_extends _ _ _ _ _

theorem Part.parcelNext_extends : p.parcelNext.Extends p := by
  unfold Part.parcelNext
  split
  · exact p.serveParcel_extends _
  · split
    · dsimp only
      split
      · exact p.newPass.serveParcel_extends _
      · exact List.prefix_append _ _
    · exact List.prefix_append _ _

theorem Part.parcelNext_table : p.parcelNext.table = p.table := by simp

end

section
variable {s : State} {f : Part → Part} {q : Part} {k : SlotIx} {e : Parcel}

/-- Behind an outcome of the parcel phase the entries stand as the outcome has left them. -/
theorem State.act_parcelNext (hf : f s.part = q.parcelNext) (he : q.parcelOf k = some e) :
    ∃ e', (s.act f).part.parcelOf k = some e' ∧ e'.Same e := by
  obtain ⟨e₁, he₁, hsame₁⟩ := q.parcelNext_passStep.parcelOf he
  obtain ⟨e₂, he₂, hsame₂⟩ := State.act_parcelOf hf he₁
  exact ⟨e₂, he₂, Parcel.Same.trans (by rw [Parcel.Same, hsame₂]) hsame₁⟩

theorem State.act_node (f : Part → Part) (i : NodeIx) : (s.act f).part.node i = (f s.part).node i := by
  obtain ⟨hrecords, -⟩ := s.act_keeps f
  rw [Part.node, hrecords]
  rfl

end

/-! ## GUARD_END in RUN -/

/-- The part as an outcome is returned in RUN (R59). -/
def Part.returned (p : Part) (dt : Nat) : Part := (p.passTime dt).frameState .listening

theorem exec_guardEnd_of_run {s : State} {ex : Exchange} {a : Attempt} (hrun : s.part.ladder.state = .run)
    (hguard : s.part.frames.state = .guarding) (hex : s.part.frames.exchange = some ex) (hout : s.part.frames.outcome = some a)
    (dt : Nat) :
    ∃ f : Part → Part, exec (.guardEnd dt) s = .next (s.act f) ∧
      f s.part = (s.part.returned dt).takeOutcome ex (if a = .good then s.part.frames.rx else none) := by
  refine ⟨fun p => (p.passTime dt).returnOutcome, ?_, ?_⟩
  · change execGuardEnd dt s = _
    rw [execGuardEnd, State.actIf, if_pos (by rw [hguard, hout]; rfl)]
  · have hreply : s.part.frames.reply = if a = .good then s.part.frames.rx else none := by
      rw [FrameEngine.reply, hout]
      simp only [Option.some.injEq]
    have hreturn : (s.part.passTime dt).returnOutcome = (s.part.returned dt).takeOutcome ex s.part.frames.reply := by
      simp only [Part.returnOutcome, Part.passTime_frames, hex, Part.frameState_ladder, Part.passTime_ladder, hrun]
      rfl
    exact hreturn.trans (by rw [hreply])

/-! ## The outcome of a SEG or a NEXT -/

section
variable (p : Part) {slot : SlotIx} {e : Parcel}

/-- The entry after a GOOD SEGACK (R120, R119). -/
def Parcel.acked (e : Parcel) (segment : Byte) : Parcel :=
  match e.transfer with
  | .sending n =>
    if n = lastSegment e.request.length then { e with attempts := 0, pastCutoff := true, transfer := .asking 0 }
    else { e with attempts := 0, transfer := .sending (n + 1) }
  | .finishing => { e with pastCutoff := e.pastCutoff || segment.getLsbD 7 }
  | .waiting | .asking _ => e

theorem Part.segAcked_parcelOf (he : p.parcelOf slot = some e) (segment : Byte) :
    (p.segAcked slot segment).parcelOf slot = some (e.acked segment) :=
  p.modParcel_parcelOf_self (f := fun e => e.acked segment) (fun e => by unfold Parcel.acked; (repeat' split) <;> rfl) he

/-- The entry after a failed attempt (R120 to R122). -/
def Parcel.failed (e : Parcel) : Parcel :=
  if e.attempts + 1 = 3 then
    { e with attempts := e.attempts + 1, transfer := .finishing, outcome := .transferFailed, nodeStatus := 0, abandonOwed := true }
  else { e with attempts := e.attempts + 1 }

/-- An entry of SENDING or ASKING. -/
def Parcel.Transferring (e : Parcel) : Prop := (∃ n, e.transfer = .sending n) ∨ ∃ n, e.transfer = .asking n

theorem Part.parcelAttemptFailed_of_transferring (he : p.parcelOf slot = some e) (h : e.Transferring) :
    p.parcelAttemptFailed slot =
      let q := p.modParcel slot fun e => { e with attempts := e.attempts + 1 }
      if e.attempts + 1 = Config.parcelAttempts then q.abandonParcel slot .transferFailed else q := by
  rw [Part.parcelAttemptFailed, he]
  rcases h with ⟨n, hn⟩ | ⟨n, hn⟩ <;> simp only [hn]

theorem Part.parcelAttemptFailed_parcelOf (he : p.parcelOf slot = some e) (h : e.Transferring) :
    (p.parcelAttemptFailed slot).parcelOf slot = some e.failed := by
  have hcounted := p.modParcel_parcelOf_self (f := fun e => { e with attempts := e.attempts + 1 }) (fun _ => rfl) he
  rw [p.parcelAttemptFailed_of_transferring he h, Parcel.failed]
  split
  next hlast =>
    rw [if_pos (show e.attempts + 1 = 3 from hlast)]
    exact Part.modParcel_parcelOf_self _ (f := fun e => { e with transfer := .finishing, outcome := .transferFailed, nodeStatus := 0,
                                                                  abandonOwed := true }) (fun _ => rfl) hcounted
  next hlast =>
    rw [if_neg (show ¬ e.attempts + 1 = 3 from hlast)]
    exact hcounted

theorem Part.parcelAttemptFailed_of_finishing (he : p.parcelOf slot = some e) (h : e.transfer = .finishing) :
    p.parcelAttemptFailed slot = p := by
  rw [Part.parcelAttemptFailed, he]
  simp only [h]

theorem Part.parcelAttemptFailed_table (slot : SlotIx) : (p.parcelAttemptFailed slot).table = p.table := by simp

end

section
variable (p : Part) {slot : SlotIx} {e : Parcel}

/-- The SEGREP agrees with what the entry has of its reply (R121). -/
def Parcel.Agrees (e : Parcel) (n : Nat) (f : Frame) : Prop :=
  let total := (payloadByte f.payload 3).toNat
  total ≤ 240 ∧ (n ≠ 0 → total = e.total) ∧ f.payload.length - 4 = min 48 (total - 48 * n) ∧
    ((payloadByte f.payload 1).getLsbD 7 = true ↔ n = lastSegment total)

theorem Parcel.consistent_iff (n : Nat) (f : Frame) : e.consistent n f = true ↔ e.Agrees n f := by
  rw [Parcel.consistent, Parcel.Agrees]
  simp only [Bool.and_eq_true, Bool.or_eq_true, decide_eq_true_eq, beq_iff_eq, and_assoc]
  rw [or_iff_not_imp_left, Bool.eq_iff_iff, beq_iff_eq]

/-- The entry with a reply segment taken (R121). -/
def Parcel.replied (e : Parcel) (n : Nat) (f : Frame) : Parcel :=
  { e with reply := e.reply.take (48 * n) ++ f.payload.drop 4, total := (payloadByte f.payload 3).toNat, attempts := 0 }

/-- The entry with the last reply segment taken (R121). -/
def Parcel.repliedLast (e : Parcel) (n : Nat) (f : Frame) : Parcel :=
  { e.replied n f with
    transfer := .finishing, outcome := if payloadByte f.payload 2 = 0 then .done else .nodeRejected,
    nodeStatus := payloadByte f.payload 2, abandonOwed := false }

theorem Part.segReplied_of_other (he : p.parcelOf slot = some e) {n : Nat} (h : e.transfer ≠ .asking n) (f : Frame) :
    p.segReplied slot n f = p := by
  rw [Part.segReplied, he]
  exact if_pos h

theorem Part.segReplied_of_notReady (he : p.parcelOf slot = some e) {n : Nat} (h : e.transfer = .asking n) {f : Frame}
    (hflag : f.flag 0 = true) : p.segReplied slot n f = p.modParcel slot fun e => { e with attempts := 0 } := by
  rw [Part.segReplied, he]
  exact (if_neg (not_not.mpr h)).trans (if_pos hflag)

theorem Part.segReplied_of_inconsistent (he : p.parcelOf slot = some e) {n : Nat} (h : e.transfer = .asking n) {f : Frame}
    (hflag : f.flag 0 = false) (hbad : ¬ e.Agrees n f) : p.segReplied slot n f = p.parcelAttemptFailed slot := by
  rw [Part.segReplied, he]
  exact (if_neg (not_not.mpr h)).trans ((if_neg (by simp [hflag])).trans (if_neg fun hc => hbad ((Parcel.consistent_iff n f).mp hc)))

theorem Part.segReplied_of_consistent (he : p.parcelOf slot = some e) {n : Nat} (h : e.transfer = .asking n) {f : Frame}
    (hflag : f.flag 0 = false) (hgood : e.Agrees n f) :
    p.segReplied slot n f =
      let q := p.modParcel slot fun e => e.replied n f
      if n = lastSegment (payloadByte f.payload 3).toNat then
        q.finishParcel slot (if payloadByte f.payload 2 = 0 then .done else .nodeRejected) (payloadByte f.payload 2)
      else q.modParcel slot fun e => { e with transfer := .asking (n + 1) } := by
  rw [Part.segReplied, he]
  exact (if_neg (not_not.mpr h)).trans ((if_neg (by simp [hflag])).trans (if_pos ((Parcel.consistent_iff n f).mpr hgood)))

theorem Part.finishParcel_parcelOf (he : p.parcelOf slot = some e) (outcome : ParcelOutcome) (status : Byte) :
    (p.finishParcel slot outcome status).parcelOf slot =
      some { e with transfer := .finishing, outcome := outcome, nodeStatus := status, abandonOwed := false } := by
  refine (Part.parcelOf_congr _ (Part.startAnswer_queue _) slot).trans ?_
  exact p.modParcel_parcelOf_self
    (f := fun e => { e with transfer := .finishing, outcome := outcome, nodeStatus := status, abandonOwed := false }) (fun _ => rfl) he

/-- An entry past its cut-off is answered at once where no answer is under way (R119, R127). -/
theorem Part.finishParcel_answers (he : p.parcelOf slot = some e) (hcutoff : e.pastCutoff = true) (hnone : p.parcels.answering = none)
    (hempty : p.parcels.answers = []) (outcome : ParcelOutcome) (status : Byte) :
    let done : Parcel := { e with transfer := .finishing, outcome := outcome, nodeStatus := status, abandonOwed := false }
    (p.finishParcel slot outcome status).parcels.answering = some (.writing done.answerWrites) ∧
      ∀ first, done.answerWrites.head? = some first →
        { offset := first.1, write := some first.2, source := .answer } ∈ (p.finishParcel slot outcome status).bus := by
  intro done
  let q := p.modParcel slot fun e => { e with transfer := .finishing, outcome := outcome, nodeStatus := status, abandonOwed := false }
  let r : Part := { q with parcels := { q.parcels with answers := q.parcels.answers ++ [.entry slot] } }
  have hof : r.parcelOf slot = some done := p.modParcel_parcelOf_self
    (f := fun e => { e with transfer := .finishing, outcome := outcome, nodeStatus := status, abandonOwed := false }) (fun _ => rfl) he
  have hbegins : p.finishParcel slot outcome status = r.writeAnswer done.answerWrites := by
    change r.startAnswer = _
    have hlist : r.parcels.answers = [.entry slot] := by
      change p.parcels.answers ++ [.entry slot] = _
      rw [hempty]
      rfl
    have hanswering : r.parcels.answering = none := hnone
    simp only [Part.startAnswer, hlist, hanswering, hof]
    exact if_pos hcutoff
  rw [hbegins, Part.writeAnswer_parcels]
  refine ⟨rfl, fun first hfirst => ?_⟩
  obtain ⟨tail, htail⟩ := List.head?_eq_some_iff.mp hfirst
  rw [htail]
  exact Part.mem_issueWrite _ _ _ _

theorem Part.setLastGood_node (i : NodeIx) :
    ((p.setLastGood i).node i).lastGood = p.sched.cycle ∧ ((p.setLastGood i).node i).missCount = (p.node i).missCount := by
  rw [Part.setLastGood, Part.modNode_node_self]
  exact ⟨rfl, rfl⟩

theorem Part.setLastGood_parcelOf (i : NodeIx) (k : SlotIx) : (p.setLastGood i).parcelOf k = p.parcelOf k := rfl

theorem Part.segReplied_table (slot : SlotIx) (n : Nat) (f : Frame) : (p.segReplied slot n f).table = p.table := by simp

theorem Part.segAcked_table (slot : SlotIx) (segment : Byte) : (p.segAcked slot segment).table = p.table := rfl

end

section
variable {s : State} {i : NodeIx} {slot : SlotIx} {tag segment : Byte} {e : Parcel} {a : Attempt} {f : Frame} {dt : Nat}

/-- A GOOD SEGACK: the entry's next segment or its cut-off. -/
theorem exec_segAcked (hrun : s.part.ladder.state = .run) (hguard : s.part.frames.state = .guarding)
    (hex : s.part.frames.exchange = some (.seg i slot tag segment)) (hout : s.part.frames.outcome = some .good)
    (hrx : s.part.frames.rx = some f) (he : s.part.parcelOf slot = some e) (dt : Nat) :
    ∃ (t : State) (e' : Parcel), exec (.guardEnd dt) s = .next t ∧ t.part.parcelOf slot = some e' ∧ e'.Same (e.acked segment) ∧
      (t.part.node i).lastGood = s.part.sched.cycle ∧ (t.part.node i).missCount = (s.part.node i).missCount := by
  obtain ⟨f, hexec, hf⟩ := exec_guardEnd_of_run hrun hguard hex hout dt
  rw [if_pos rfl, hrx] at hf
  let p := s.part.returned dt
  have hdone : f s.part = ((p.setLastGood i).segAcked slot segment).parcelNext := hf
  obtain ⟨e', he', hsame⟩ := State.act_parcelNext hdone (Part.segAcked_parcelOf _ (e := e) he segment)
  have hnode : (s.act f).part.node i = (p.setLastGood i).node i := by
    rw [State.act_node, hdone, Part.node, Part.parcelNext_table, Part.segAcked_table]
    rfl
  obtain ⟨hgood, hmiss⟩ := p.setLastGood_node i
  exact ⟨_, e', hexec, he', hsame, by rw [hnode, hgood]; rfl, by rw [hnode, hmiss]; rfl⟩

/-- A failed attempt of a SEG or a NEXT. -/
theorem exec_parcelAttemptFails (hrun : s.part.ladder.state = .run) (hguard : s.part.frames.state = .guarding)
    (hex : s.part.frames.exchange = some (.seg i slot tag segment) ∨ s.part.frames.exchange = some (.next i slot tag segment))
    (hout : s.part.frames.outcome = some a) (ha : a ≠ .good) (dt : Nat) :
    ∃ f : Part → Part, exec (.guardEnd dt) s = .next (s.act f) ∧
      f s.part = ((s.part.returned dt).parcelAttemptFailed slot).parcelNext := by
  rcases hex with hex | hex
  all_goals
    obtain ⟨f, hexec, hf⟩ := exec_guardEnd_of_run hrun hguard hex hout dt
    rw [if_neg ha] at hf
    exact ⟨f, hexec, hf⟩

theorem exec_parcelAttemptFails_transferring (hrun : s.part.ladder.state = .run) (hguard : s.part.frames.state = .guarding)
    (hex : s.part.frames.exchange = some (.seg i slot tag segment) ∨ s.part.frames.exchange = some (.next i slot tag segment))
    (hout : s.part.frames.outcome = some a) (ha : a ≠ .good) (he : s.part.parcelOf slot = some e) (htransfer : e.Transferring)
    (dt : Nat) :
    ∃ (t : State) (e' : Parcel), exec (.guardEnd dt) s = .next t ∧ t.part.parcelOf slot = some e' ∧ e'.Same e.failed ∧
      (t.part.node i).missCount = (s.part.node i).missCount := by
  obtain ⟨f, hexec, hf⟩ := exec_parcelAttemptFails hrun hguard hex hout ha dt
  let p := s.part.returned dt
  obtain ⟨e', he', hsame⟩ := State.act_parcelNext hf (p.parcelAttemptFailed_parcelOf (e := e) he htransfer)
  refine ⟨_, e', hexec, he', hsame, ?_⟩
  rw [State.act_node, hf, Part.node, Part.parcelNext_table, Part.parcelAttemptFailed_table]
  rfl

/-- A GOOD SEGREP for an entry: the entry as `segReplied` leaves it. -/
theorem exec_segReplied (hrun : s.part.ladder.state = .run) (hguard : s.part.frames.state = .guarding)
    (hex : s.part.frames.exchange = some (.next i slot tag segment)) (hout : s.part.frames.outcome = some .good)
    (hrx : s.part.frames.rx = some f) (dt : Nat) :
    ∃ g : Part → Part, exec (.guardEnd dt) s = .next (s.act g) ∧
      g s.part = (((s.part.returned dt).setLastGood i).segReplied slot segment.toNat f).parcelNext ∧
      ((s.act g).part.node i).lastGood = s.part.sched.cycle ∧ ((s.act g).part.node i).missCount = (s.part.node i).missCount := by
  obtain ⟨g, hexec, hg⟩ := exec_guardEnd_of_run hrun hguard hex hout dt
  rw [if_pos rfl, hrx] at hg
  let p := s.part.returned dt
  have hdone : g s.part = ((p.setLastGood i).segReplied slot segment.toNat f).parcelNext := hg
  have hnode : (s.act g).part.node i = (p.setLastGood i).node i := by
    rw [State.act_node, hdone, Part.node, Part.parcelNext_table, Part.segReplied_table]
    rfl
  obtain ⟨hgood, hmiss⟩ := p.setLastGood_node i
  exact ⟨g, hexec, hdone, by rw [hnode, hgood]; rfl, by rw [hnode, hmiss]; rfl⟩

/-- An entry timed out while its frame was out keeps its outcome (log 56). -/
theorem exec_outcomeOfFinished (hrun : s.part.ladder.state = .run) (hguard : s.part.frames.state = .guarding)
    (hex : s.part.frames.exchange = some (.seg i slot tag segment) ∨ s.part.frames.exchange = some (.next i slot tag segment))
    (hout : s.part.frames.outcome = some a) (hrx : a = .good → s.part.frames.rx.isSome = true)
    (he : s.part.parcelOf slot = some e) (hfinishing : e.transfer = .finishing) (dt : Nat) :
    ∃ (t : State) (e' : Parcel), exec (.guardEnd dt) s = .next t ∧ t.part.parcelOf slot = some e' ∧
      e'.Same (if s.part.frames.exchange = some (.seg i slot tag segment) ∧ a = .good then
        { e with pastCutoff := e.pastCutoff || segment.getLsbD 7 } else e) := by
  by_cases ha : a = .good
  · subst ha
    obtain ⟨f, hf⟩ := Option.isSome_iff_exists.mp (hrx rfl)
    rcases hex with hex | hex
    · obtain ⟨t, e', hexec, he', hsame, -⟩ := exec_segAcked hrun hguard hex hout hf he dt
      have hacked : e.acked segment = { e with pastCutoff := e.pastCutoff || segment.getLsbD 7 } := by
        simp only [Parcel.acked, hfinishing]
      rw [hacked] at hsame
      exact ⟨t, e', hexec, he', by rw [if_pos ⟨hex, rfl⟩]; exact hsame⟩
    · obtain ⟨g, hexec, hg, -⟩ := exec_segReplied hrun hguard hex hout hf dt
      let p := s.part.returned dt
      rw [Part.segReplied_of_other (p.setLastGood i) (e := e) he (by rw [hfinishing]; nofun)] at hg
      obtain ⟨e', he', hsame⟩ := State.act_parcelNext (k := slot) (e := e) hg he
      exact ⟨_, e', hexec, he', by rw [if_neg (by rw [hex]; nofun)]; exact hsame⟩
  · obtain ⟨f, hexec, hf⟩ := exec_parcelAttemptFails hrun hguard hex hout ha dt
    rw [Part.parcelAttemptFailed_of_finishing (s.part.returned dt) (e := e) he hfinishing] at hf
    obtain ⟨e', he', hsame⟩ := State.act_parcelNext (k := slot) (e := e) hf he
    exact ⟨_, e', hexec, he', by rw [if_neg fun h => ha h.2]; exact hsame⟩

end

section
variable {s : State} {i : NodeIx} {slot : SlotIx} {tag wanted : Byte} {e : Parcel} {f : Frame} {dt : Nat}

/-- The entry after a GOOD SEGREP (R121, R122). -/
structure Parcel.RepliedTo (e' e : Parcel) (n : Nat) (f : Frame) : Prop where
  notReady : f.flag 0 = true → e'.Same { e with attempts := 0 }
  last : f.flag 0 = false → e.Agrees n f → n = lastSegment (payloadByte f.payload 3).toNat → e'.Same (e.repliedLast n f)
  more : f.flag 0 = false → e.Agrees n f → n ≠ lastSegment (payloadByte f.payload 3).toNat →
    e'.Same { e.replied n f with transfer := .asking (n + 1) }
  inconsistent : f.flag 0 = false → ¬ e.Agrees n f → e'.Same e.failed

theorem Part.segReplied_parcelOf (p : Part) (he : p.parcelOf slot = some e) {n : Nat} (h : e.transfer = .asking n) (f : Frame) :
    ∃ e₁, (p.segReplied slot n f).parcelOf slot = some e₁ ∧ ∀ e' : Parcel, e'.Same e₁ → e'.RepliedTo e n f := by
  by_cases hflag : f.flag 0 = true
  · refine ⟨{ e with attempts := 0 }, ?_, fun e' hsame => ⟨fun _ => hsame, ?_, ?_, ?_⟩⟩
    · rw [p.segReplied_of_notReady he h hflag]
      exact p.modParcel_parcelOf_self (f := fun e => { e with attempts := 0 }) (fun _ => rfl) he
    all_goals exact fun hnot => absurd hflag (by rw [hnot]; decide)
  · have hflag : f.flag 0 = false := Bool.eq_false_iff.mpr hflag
    have hnot (hset : f.flag 0 = true) : False := by
      rw [hflag] at hset
      cases hset
    by_cases hgood : e.Agrees n f
    · have hreplied : (p.modParcel slot fun e => e.replied n f).parcelOf slot = some (e.replied n f) :=
        p.modParcel_parcelOf_self (f := fun e => e.replied n f) (fun _ => rfl) he
      have hstep := p.segReplied_of_consistent he h hflag hgood
      by_cases hlast : n = lastSegment (payloadByte f.payload 3).toNat
      · refine ⟨e.repliedLast n f, ?_, fun e' hsame =>
          ⟨fun h => (hnot h).elim, fun _ _ _ => hsame, fun _ _ hne => absurd hlast hne, fun _ hbad => absurd hgood hbad⟩⟩
        rw [hstep]
        dsimp only
        rw [if_pos hlast]
        exact Part.finishParcel_parcelOf _ hreplied _ _
      · refine ⟨{ e.replied n f with transfer := .asking (n + 1) }, ?_, fun e' hsame =>
          ⟨fun h => (hnot h).elim, fun _ _ heq => absurd heq hlast, fun _ _ _ => hsame, fun _ hbad => absurd hgood hbad⟩⟩
        rw [hstep]
        dsimp only
        rw [if_neg hlast]
        exact Part.modParcel_parcelOf_self _ (f := fun e => { e with transfer := .asking (n + 1) }) (fun _ => rfl) hreplied
    · refine ⟨e.failed, ?_, fun e' hsame =>
        ⟨fun h => (hnot h).elim, fun _ h => absurd h hgood, fun _ h => absurd h hgood, fun _ _ => hsame⟩⟩
      rw [p.segReplied_of_inconsistent he h hflag hgood]
      exact p.parcelAttemptFailed_parcelOf he (.inr ⟨n, h⟩)

/-- The answer of an entry past its cut-off begins with the last reply segment, and what follows leaves it so (R119, R127). -/
theorem State.act_segReplied_answers {g : Part → Part} {p : Part} (hg : g s.part = (p.segReplied slot wanted.toNat f).parcelNext)
    (he : p.parcelOf slot = some e) (htransfer : e.transfer = .asking wanted.toNat) (hflag : f.flag 0 = false)
    (hgood : e.Agrees wanted.toNat f) (hlast : wanted.toNat = lastSegment (payloadByte f.payload 3).toNat)
    (hcutoff : e.pastCutoff = true) (hnone : p.parcels.answering = none) (hempty : p.parcels.answers = []) :
    (s.act g).part.parcels.answering = some (.writing (e.repliedLast wanted.toNat f).answerWrites) ∧
      ∀ first, (e.repliedLast wanted.toNat f).answerWrites.head? = some first →
        (s.act g).part.asks { offset := first.1, write := some first.2, source := .answer } := by
  have hreplied : (p.modParcel slot fun e => e.replied wanted.toNat f).parcelOf slot = some (e.replied wanted.toNat f) :=
    p.modParcel_parcelOf_self (f := fun e => e.replied wanted.toNat f) (fun _ => rfl) he
  have hstep := p.segReplied_of_consistent he htransfer hflag hgood
  dsimp only at hstep
  rw [if_pos hlast] at hstep
  obtain ⟨hanswering, hwrites⟩ := Part.finishParcel_answers _ hreplied hcutoff hnone hempty
    (if payloadByte f.payload 2 = 0 then .done else .nodeRejected) (payloadByte f.payload 2)
  rw [← hstep] at hanswering hwrites
  have hnext : (p.segReplied slot wanted.toNat f).parcelNext.parcels.answering =
      some (.writing (e.repliedLast wanted.toNat f).answerWrites) := (Part.parcelNext_passStep _).answering.trans hanswering
  refine ⟨((State.act_openStep hg).answering (by rw [hnext]; rfl)).trans hnext, fun first hfirst => State.act_asks _ g ?_⟩
  rw [hg]
  exact (Part.parcelNext_extends _).subset (hwrites first hfirst)

end

/-! ## Eligible entries and their pass (R118) -/

section
variable (p : Part)

theorem Part.parcelEligible_iff (e : Parcel) :
    p.parcelEligible e = true ↔
      ((p.node e.node).state = .live ∨ (p.node e.node).state = .suspect) ∧
      ((∃ n, e.transfer = .sending n) ∨ (∃ n, e.transfer = .asking n) ∨
       e.transfer = .finishing ∧ e.abandonOwed = true ∨
       e.transfer = .waiting ∧
        (∀ o ∈ p.parcels.queue, o.slot ≠ e.slot → o.node = e.node → o.inTransfer = false) ∧
        (∀ o ∈ p.parcels.queue.takeWhile (·.slot != e.slot), o.node = e.node → o.transfer ≠ .waiting)) := by
  rw [Part.parcelEligible, Bool.and_eq_true]
  refine and_congr ?_ ?_
  · cases (p.node e.node).state <;> simp [NodeState.inService]
  · cases e.transfer with
    | sending n => simp
    | asking n => simp
    | finishing => simp
    | waiting =>
      simp only [reduceCtorEq, exists_false, false_and, true_and, false_or, Bool.and_eq_true, List.all_eq_true, Bool.or_eq_true,
        beq_iff_eq, bne_iff_ne, Bool.not_eq_true', ne_eq]
      refine and_congr (forall₂_congr fun o _ => ?_) (forall₂_congr fun o _ => ?_)
      · rw [or_assoc, or_iff_not_imp_left, or_iff_not_imp_left, not_not]
      · rw [or_iff_not_imp_left, not_not]

theorem Part.parcelNext_of_offered {e : Parcel} (h : p.offered (p.parcels.passPos.getD 0) = some e) :
    p.parcelNext = p.serveParcel e := by
  rw [Part.parcelNext, h]

theorem Part.parcelNext_of_none (h : p.offered (p.parcels.passPos.getD 0) = none) (hnamed : p.parcels.passNamed = false) :
    p.parcelNext = p.enterClosing := by
  simp [Part.parcelNext, h, hnamed]

theorem Part.parcelNext_of_newPass (h : p.offered (p.parcels.passPos.getD 0) = none) (hnamed : p.parcels.passNamed = true) :
    p.parcelNext = match p.newPass.offered 0 with
      | some e => p.newPass.serveParcel e
      | none => p.newPass.enterClosing := by
  rw [Part.parcelNext, h]
  exact if_pos hnamed

/-- A new pass offers the first entry that is eligible and not passed over. -/
theorem Part.newPass_offered : p.newPass.offered 0 =
    (p.parcels.queue.find? fun o => p.parcelEligible o && !o.passed).map fun e => { e with given := false } := by
  let g : Parcel → Parcel := fun e => { e with given := false }
  have hqueue : p.newPass.parcels.queue = p.parcels.queue.map g := rfl
  have helig (e : Parcel) : p.newPass.parcelEligible (g e) = p.parcelEligible e := by
    have hnode (i : NodeIx) : p.newPass.node i = p.node i := rfl
    unfold Part.parcelEligible
    rw [hnode, hqueue]
    simp only [g, List.all_map, List.takeWhile_map, Function.comp_def, Parcel.inTransfer]
  rw [Part.offered, List.drop_zero, hqueue, List.find?_map]
  refine congrArg (Option.map g) (congrArg (List.find? · p.parcels.queue) (funext fun e => ?_))
  rw [Function.comp, helig]
  simp [g]

/-- An entry served without a withdraw read takes its place in the pass where its exchange fits. -/
theorem Part.serveParcel_named {e : Parcel} (hsends : e.sendsNext = false) (hparcelling : (p.serveParcel e).sched.state = .parcelling) :
    (p.serveParcel e).parcels.passPos = some ((p.parcels.queue.takeWhile (·.slot != e.slot)).length + 1) ∧
      (p.serveParcel e).parcels.passNamed = true ∧ ∀ o ∈ (p.serveParcel e).parcels.queue, o.slot = e.slot → o.given = true := by
  have hnamed {bt : Nat} {ex : Exchange} {frame : List Byte} (h : (p.nameExchange e bt id ex frame).sched.state = .parcelling) :
      (p.nameExchange e bt id ex frame).parcels.passPos = some ((p.parcels.queue.takeWhile (·.slot != e.slot)).length + 1) ∧
        (p.nameExchange e bt id ex frame).parcels.passNamed = true ∧
        ∀ o ∈ (p.nameExchange e bt id ex frame).parcels.queue, o.slot = e.slot → o.given = true := by
    unfold Part.nameExchange at h ⊢
    split at h
    next hfits =>
      rw [if_pos hfits]
      refine ⟨rfl, rfl, fun o ho hslot => ?_⟩
      obtain ⟨u, -, hu⟩ := List.mem_map.mp ho
      by_cases huslot : u.slot = e.slot
      · rw [if_pos huslot] at hu
        rw [← hu]
      · rw [if_neg huslot] at hu
        exact absurd (hu ▸ hslot) huslot
    · cases h
  unfold Part.serveParcel at hparcelling ⊢
  cases htransfer : e.transfer with
  | waiting => simp [Parcel.sendsNext, htransfer] at hsends
  | sending n => simp [Parcel.sendsNext, htransfer] at hsends
  | asking n =>
    rw [htransfer] at hparcelling
    exact hnamed hparcelling
  | finishing =>
    rw [htransfer] at hparcelling
    exact hnamed hparcelling

theorem ParcelUnit.PassStep.summary {v u : ParcelUnit} (h : v.PassStep u) :
    (v.queue.map fun o => (o.slot, o.transfer, o.attempts)) = u.queue.map fun o => (o.slot, o.transfer, o.attempts) := by
  obtain ⟨given, passed, hqueue⟩ := h.queue
  rw [hqueue, List.map_map]
  rfl

theorem Part.parcelNext_spec {pos : Nat} (hpos : p.parcels.passPos = some pos) :
    ((p.parcelNext.parcels.queue.map fun o => (o.slot, o.transfer, o.attempts)) =
      p.parcels.queue.map fun o => (o.slot, o.transfer, o.attempts)) ∧
    (∀ e, (p.parcels.queue.drop pos).find? (fun o => p.parcelEligible o && !o.given && !o.passed) = some e →
      p.parcelServed p.parcelNext 0 e ∧
      (e.sendsNext = false → p.parcelNext.sched.state = .parcelling →
        p.parcelNext.parcels.passPos = some ((p.parcels.queue.takeWhile (·.slot != e.slot)).length + 1) ∧
        p.parcelNext.parcels.passNamed = true ∧ ∀ o ∈ p.parcelNext.parcels.queue, o.slot = e.slot → o.given = true)) ∧
    ((p.parcels.queue.drop pos).find? (fun o => p.parcelEligible o && !o.given && !o.passed) = none →
      p.parcels.passNamed = false → p.parcelNext.sched.state = .closing) ∧
    ((p.parcels.queue.drop pos).find? (fun o => p.parcelEligible o && !o.given && !o.passed) = none →
      p.parcels.passNamed = true →
      (∀ e, p.parcels.queue.find? (fun o => p.parcelEligible o && !o.passed) = some e → p.parcelServed p.parcelNext 0 e) ∧
      (p.parcels.queue.find? (fun o => p.parcelEligible o && !o.passed) = none → p.parcelNext.sched.state = .closing)) := by
  have hoffered : p.offered (p.parcels.passPos.getD 0) =
      (p.parcels.queue.drop pos).find? fun o => p.parcelEligible o && !o.given && !o.passed := by rw [hpos]; rfl
  refine ⟨p.parcelNext_passStep.summary, fun e he => ?_, fun hnone hnamed => ?_, fun hnone hnamed => ⟨fun e he => ?_, fun hno => ?_⟩⟩
  · rw [p.parcelNext_of_offered (hoffered.trans he)]
    exact ⟨p.serveParcel_served e, p.serveParcel_named⟩
  · rw [p.parcelNext_of_none (hoffered.trans hnone) hnamed]
    rfl
  · rw [p.parcelNext_of_newPass (hoffered.trans hnone) hnamed, Part.newPass_offered, he]
    exact p.newPass.serveParcel_served { e with given := false }
  · rw [p.parcelNext_of_newPass (hoffered.trans hnone) hnamed, Part.newPass_offered, hno]
    rfl

end

/-! ## WITHDRAW_CHECK before a SEG (R119) -/

section
variable (p : Part) {slot : SlotIx} {e : Parcel} {w : Word}

/-- The scheduler waits for no withdraw read any more. -/
def Part.withdrawDone (p : Part) : Part := p.modSched fun s => { s with withdrawRead := none }

theorem Part.withdrawRead_of_other (he : p.parcelOf slot = some e) (hsends : e.sendsNext = false) :
    p.withdrawRead slot w = p.withdrawDone.parcelNext := by
  rw [Part.withdrawRead]
  dsimp only
  rw [show (p.modSched fun s => { s with withdrawRead := none }).parcelOf slot = some e from he]
  exact if_neg (by simp [hsends])

theorem Part.withdrawRead_of_withdrawn (he : p.parcelOf slot = some e) (helig : p.parcelEligible e = true)
    (hsends : e.sendsNext = true) (hask : w.extractLsb' 0 16 = e.ask) :
    p.withdrawRead slot w =
      if e.segSent then (p.withdrawDone.abandonParcel slot .withdrawn).nameAbandon e
      else (p.withdrawDone.finishParcel slot .withdrawn 0).parcelNext := by
  rw [Part.withdrawRead]
  dsimp only
  rw [show (p.modSched fun s => { s with withdrawRead := none }).parcelOf slot = some e from he]
  exact (if_pos (by rw [show (p.modSched _).parcelEligible e = true from helig, hsends]; rfl)).trans
    (if_pos hask)

theorem Part.withdrawRead_of_seg (he : p.parcelOf slot = some e) (helig : p.parcelEligible e = true)
    (hsends : e.sendsNext = true) (hask : w.extractLsb' 0 16 ≠ e.ask) : p.withdrawRead slot w = p.withdrawDone.nameSeg e := by
  rw [Part.withdrawRead]
  dsimp only
  rw [show (p.modSched fun s => { s with withdrawRead := none }).parcelOf slot = some e from he]
  exact (if_pos (by rw [show (p.modSched _).parcelEligible e = true from helig, hsends]; rfl)).trans
    (if_neg hask)

theorem Parcel.sendsNext_iff (e : Parcel) : e.sendsNext = true ↔ e.transfer = .waiting ∨ ∃ n, e.transfer = .sending n := by
  cases h : e.transfer <;> simp [Parcel.sendsNext, h]

/-- A SEG given: its entry in SENDING, with its place in the pass (R120, R118); one that does not fit changes no entry. -/
theorem Part.nameSeg_entry (he : p.parcelOf slot = some e) :
    (p.fits (74 + p.timeoutOf e.node) = true →
      (p.nameSeg e).parcelOf slot = some { e with transfer := .sending e.transfer.segment, segSent := true, given := true } ∧
      (p.nameSeg e).parcels.passNamed = true ∧
      (p.nameSeg e).parcels.passPos = some ((p.parcels.queue.takeWhile (·.slot != slot)).length + 1)) ∧
    (p.fits (74 + p.timeoutOf e.node) = false → (p.nameSeg e).parcelOf slot = some e) := by
  obtain rfl : e.slot = slot := parcelOf_slot he
  constructor
  · intro hfits
    rw [Part.nameSeg]
    rw [Part.nameExchange, if_pos hfits]
    exact ⟨p.modParcel_parcelOf_self
      (f := fun o => { o with transfer := .sending e.transfer.segment, segSent := true, given := true }) (fun _ => rfl) he, rfl, rfl⟩
  · intro hfits
    rw [Part.nameSeg]
    rw [Part.nameExchange, if_neg (by simp [hfits])]
    exact he

end

section
variable {s : State} {x : Access} {slot : SlotIx} {e : Parcel} {w : Word} {host : Option Word}

theorem Parcel.abandoned_same {p : Part} {outcome : ParcelOutcome} (he : p.parcelOf slot = some e) :
    (p.abandonParcel slot outcome).parcelOf slot =
      some { e with transfer := .finishing, outcome := outcome, nodeStatus := 0, abandonOwed := true } :=
  p.modParcel_parcelOf_self (f := fun e => { e with transfer := .finishing, outcome := outcome, nodeStatus := 0, abandonOwed := true })
    (fun _ => rfl) he

theorem Part.fits_timeoutOf_iff (p : Part) (dt : Nat) (i : NodeIx) (bt : Nat) :
    (p.passTime dt).fits (bt + p.timeoutOf i) = true ↔ p.fitsIn dt (bt + p.replyTime i) :=
  (Part.fits_iff _ _).trans (p.passTime_fitsIn dt _)

theorem exec_withdrawCheck_before_seg (hx : s.current = some x) (hsource : x.source = .withdraw)
    (hp : s.part.ladder.softPending = false) (hrun : s.part.ladder.state = .run) (hwaits : s.part.sched.withdrawRead = some slot)
    (he : s.part.parcelOf slot = some e) (helig : s.part.parcelEligible e = true) (dt : Nat) (hw : w = s.wordOf x host) :
    ∃ t, exec (.withdrawCheck host dt) s = .next t ∧
      (e.sendsNext = true ↔ e.transfer = .waiting ∨ ∃ n, e.transfer = .sending n) ∧
      (e.sendsNext = false → ∃ e', t.part.parcelOf slot = some e' ∧ e'.transfer = e.transfer ∧
        e'.outcome = e.outcome ∧ e'.abandonOwed = e.abandonOwed) ∧
      (e.sendsNext = true → w.extractLsb' 0 16 = e.ask → ∃ e', t.part.parcelOf slot = some e' ∧
        e'.transfer = .finishing ∧ e'.outcome = .withdrawn ∧ e'.abandonOwed = e.segSent) ∧
      (e.sendsNext = true → w.extractLsb' 0 16 = e.ask → e.segSent = true → s.part.abandonGiven t.part dt e) ∧
      (e.sendsNext = true → w.extractLsb' 0 16 ≠ e.ask → ∃ (n : Nat) (e' : Parcel), t.part.parcelOf slot = some e' ∧
        (e.transfer = .sending n ∨ e.transfer = .waiting ∧ n = 0) ∧ s.part.segGiven t.part dt e n ∧
        e'.attempts = e.attempts ∧
        (s.part.fitsIn dt (74 + s.part.replyTime e.node) → e'.transfer = .sending n ∧ e'.segSent = true ∧
          e'.given = true ∧ t.part.parcels.passNamed = true ∧
          t.part.parcels.passPos = some ((s.part.parcels.queue.takeWhile (·.slot != slot)).length + 1)) ∧
        (¬ s.part.fitsIn dt (74 + s.part.replyTime e.node) → e'.transfer = e.transfer ∧ e'.segSent = e.segSent)) := by
  obtain ⟨f, heq, hf⟩ := completeIf_ends hx hp
    (mine := fun a => a.source == .withdraw || (a.source == .answer && s.part.parcels.answering == some .checking))
    (by rw [hsource]; rfl) host dt
  let off : Part := (s.afterWord x host).part
  let p := off.passTime dt
  have hpe : p.parcelOf slot = some e := he
  have hpelig : p.parcelEligible e = true := helig
  have hdone : f (s.afterWord x host).part = p.withdrawRead slot w := by
    rw [hf, hsource, ← hw]
    change p.withdrawEnded w = _
    rw [Part.withdrawEnded, Part.withdrawWaits, if_pos (show p.ladder.state = .run from hrun),
      show p.sched.withdrawRead = some slot from hwaits]
  refine ⟨_, congrArg Host.Outcome.next heq, e.sendsNext_iff, fun hsends => ?other, fun hsends hask => ?withdrawn,
    fun hsends hask hsent => ?abandon, fun hsends hask => ?seg⟩
  case other =>
    obtain ⟨e', he', hsame⟩ := State.act_parcelNext (hdone.trans (p.withdrawRead_of_other hpe hsends)) hpe
    exact ⟨e', he', by rw [hsame], by rw [hsame], by rw [hsame]⟩
  case withdrawn =>
    have hstep := hdone.trans (p.withdrawRead_of_withdrawn hpe hpelig hsends hask)
    by_cases hsent : e.segSent = true
    · rw [if_pos hsent] at hstep
      obtain ⟨e₁, he₁, hsame₁⟩ := (Part.nameExchange_passStep _ e 10 (.abandon e.node e.slot) _).parcelOf
        (Parcel.abandoned_same (p := p.withdrawDone) (outcome := .withdrawn) hpe)
      obtain ⟨e', he', hsame⟩ := State.act_parcelOf hstep he₁
      exact ⟨e', he', by rw [hsame, hsame₁], by rw [hsame, hsame₁], by rw [hsame, hsame₁, hsent]⟩
    · rw [if_neg hsent] at hstep
      obtain ⟨e', he', hsame⟩ := State.act_parcelNext hstep (p.withdrawDone.finishParcel_parcelOf hpe .withdrawn 0)
      exact ⟨e', he', by rw [hsame], by rw [hsame], by rw [hsame]; exact (Bool.eq_false_iff.mpr hsent).symm⟩
  case abandon =>
    have hstep := hdone.trans (p.withdrawRead_of_withdrawn hpe hpelig hsends hask)
    rw [if_pos hsent] at hstep
    let q := p.withdrawDone.abandonParcel slot .withdrawn
    have hladder : (q.nameAbandon e).ladder.state = .run := by
      rw [show (q.nameAbandon e).ladder = q.ladder by simp]
      exact hrun
    have hgiven : s.part.abandonGiven (q.nameAbandon e) dt e := (Part.passTime_parcelGiven off _ dt _ _ _).mp (q.nameAbandon_given e)
    exact Part.parcelGiven.shown hgiven
      (State.act_shows hstep (by rw [hladder]; decide) (by rw [hladder]; decide) (by rw [hladder]; rfl))
  case seg =>
    have hstep := hdone.trans (p.withdrawRead_of_seg hpe hpelig hsends hask)
    let q := p.withdrawDone
    have hladder : (q.nameSeg e).ladder.state = .run := by
      rw [show (q.nameSeg e).ladder = q.ladder by simp]
      exact hrun
    have hgiven : s.part.segGiven (q.nameSeg e) dt e e.transfer.segment :=
      (Part.passTime_parcelGiven off _ dt _ _ _).mp (q.nameSeg_given e)
    have hshown : s.part.segGiven ((s.afterWord x host).act f).part dt e e.transfer.segment :=
      Part.parcelGiven.shown hgiven
        (State.act_shows hstep (by rw [hladder]; decide) (by rw [hladder]; decide) (by rw [hladder]; rfl))
    have hsegment : e.transfer = .sending e.transfer.segment ∨ e.transfer = .waiting ∧ e.transfer.segment = 0 := by
      rcases e.sendsNext_iff.mp hsends with h | ⟨n, h⟩ <;> rw [h]
      · exact .inr ⟨rfl, rfl⟩
      · exact .inl rfl
    have hfit : q.fits (74 + q.timeoutOf e.node) = true ↔ s.part.fitsIn dt (74 + s.part.replyTime e.node) :=
      off.fits_timeoutOf_iff dt e.node 74
    obtain ⟨hfits, hnot⟩ := q.nameSeg_entry (e := e) hpe
    by_cases hroom : s.part.fitsIn dt (74 + s.part.replyTime e.node)
    · obtain ⟨hentry, hnamed, hpos⟩ := hfits (hfit.mpr hroom)
      obtain ⟨e', he', hsame⟩ := State.act_parcelOf hstep hentry
      obtain ⟨kpos, knamed⟩ := (State.act_openStep hstep).pass
      exact ⟨e.transfer.segment, e', he', hsegment, hshown, by rw [hsame],
        fun _ => ⟨by rw [hsame], by rw [hsame], by rw [hsame], knamed.trans hnamed, kpos.trans hpos⟩, fun h => absurd hroom h⟩
    · obtain ⟨e', he', hsame⟩ := State.act_parcelOf hstep (hnot (Bool.eq_false_iff.mpr fun h => hroom (hfit.mp h)))
      exact ⟨e.transfer.segment, e', he', hsegment, hshown, by rw [hsame], fun h => absurd h hroom,
        fun _ => ⟨by rw [hsame], by rw [hsame]⟩⟩

end

/-! ## PATIENCE_EXPIRY and ABANDON_SENT (R124, R123) -/

section
variable {s : State} {slot : SlotIx} {e : Parcel}

theorem exec_patienceExpires (hrun : s.part.ladder.state = .run) (hopen : s.part.sched.parcelOpen = .expiring)
    (he : s.part.parcelOf slot = some e) (htransfer : e.transfer ≠ .finishing) (hzero : e.patience = 0) :
    ∃ t, exec (.patienceExpiry slot) s = .next t ∧
      ∃ e', t.part.parcelOf slot = some e' ∧ e'.transfer = .finishing ∧ e'.outcome = .timedOut ∧ e'.abandonOwed = e.segSent := by
  have hout : e.outOfPatience = true := by
    rw [Parcel.outOfPatience, e.patienceRuns_iff.mpr htransfer, hzero]
    rfl
  let f : Part → Part := fun p => p.patienceExpired slot
  have hexec : exec (.patienceExpiry slot) s = .next (s.act f) := by
    change execPatienceExpiry slot s = _
    rw [execPatienceExpiry, State.actIf, if_pos (by rw [hrun, hopen, he]; exact hout)]
  have hexpired : f s.part =
      if e.segSent then s.part.abandonParcel slot .timedOut else s.part.finishParcel slot .timedOut 0 := by
    change s.part.patienceExpired slot = _
    rw [Part.patienceExpired, he]
    exact if_pos ⟨hopen, hout⟩
  by_cases hsent : e.segSent = true
  · rw [if_pos hsent] at hexpired
    obtain ⟨e', he', hsame⟩ := State.act_parcelOf hexpired (Parcel.abandoned_same he)
    exact ⟨_, hexec, e', he', by rw [hsame], by rw [hsame], by rw [hsame, hsent]⟩
  · rw [if_neg hsent] at hexpired
    obtain ⟨e', he', hsame⟩ := State.act_parcelOf hexpired (s.part.finishParcel_parcelOf he .timedOut 0)
    exact ⟨_, hexec, e', he', by rw [hsame], by rw [hsame], by rw [hsame]; exact (Bool.eq_false_iff.mpr hsent).symm⟩

theorem exec_patienceExpiry_outOfRun (hrun : s.part.ladder.state ≠ .run) : exec (.patienceExpiry slot) s = .next s := by
  change execPatienceExpiry slot s = _
  rw [execPatienceExpiry, State.actIf, if_neg (by simp [hrun])]

theorem exec_abandonSent {i : NodeIx} (hrun : s.part.ladder.state = .run) (hguard : s.part.frames.state = .guarding)
    (hex : s.part.frames.exchange = some (.abandon i slot)) (he : s.part.parcelOf slot = some e) (dt : Nat) :
    ∃ t, exec (.abandonSent dt) s = .next t ∧
      ∃ e', t.part.parcelOf slot = some e' ∧ e'.abandonOwed = false ∧ e'.outcome = e.outcome ∧ e'.transfer = e.transfer := by
  let f : Part → Part := fun p => (p.passTime dt).abandonSent slot
  have hexec : exec (.abandonSent dt) s = .next (s.act f) := by
    change execAbandonSent dt s = _
    rw [execAbandonSent, hrun, FrameEngine.abandoned, hguard, hex]
  let p := s.part.returned dt
  have hmod : (p.modParcel slot fun e => { e with abandonOwed := false }).parcelOf slot = some { e with abandonOwed := false } :=
    p.modParcel_parcelOf_self (f := fun e => { e with abandonOwed := false }) (fun _ => rfl) he
  have hentry : (p.abandonDone slot).parcelOf slot = some { e with abandonOwed := false } :=
    (Part.parcelOf_congr _ (Part.startAnswer_queue _) slot).trans hmod
  obtain ⟨e', he', hsame⟩ := State.act_parcelNext (f := f) (q := p.abandonDone slot) rfl hentry
  exact ⟨_, hexec, e', he', by rw [hsame], by rw [hsame], by rw [hsame]⟩

end

/-! ## The end of an answer (R116, R119, R127) -/

theorem Part.walkOn_deferred {p : Part} {slot : SlotIx} {left : Nat} :
    (p.walkOn slot left).parcels.deferred = p.parcels.deferred := by
  unfold Part.walkOn Part.walkEnd Part.scanTrigger
  dsimp only
  (repeat' split) <;> rfl

section
variable {s : State} {x : Access} {slot : SlotIx} {e : Parcel} {rest : List AnswerFor} {last : Nat × Word}

/-- The answer number's write completes (R116, R127). -/
theorem exec_answerNumberWritten (hx : s.current = some x) (hsource : x.source = .answer) (hp : s.part.ladder.softPending = false)
    (hanswering : s.part.parcels.answering = some (.writing [last])) :
    ∃ f : Part → Part, exec .answerWriteComplete s = .next ((s.afterWord x none).act f) ∧
      f (s.afterWord x none).part = (s.begun x none 0).takeParcelEnd (.answer (some (s.wordOf x none))) := by
  obtain ⟨f, heq, hf⟩ := completeIf_ends hx hp (mine := fun a => a.source == .answer && s.part.answerAtNumber)
    (by simp [hsource, Part.answerAtNumber, hanswering]) none 0
  exact ⟨f, congrArg Host.Outcome.next heq, by rw [hf, hsource]; rfl⟩

theorem Part.takeParcelEnd_of_lastWritten {p : Part} (h : p.ladder.state.pauses = false)
    (hanswering : p.parcels.answering = some (.writing [last])) (w : Word) :
    p.takeParcelEnd (.answer (some w)) = p.answerComplete := by
  rw [Part.takeParcelEnd_of_works h]
  change p.continueAnswer w = _
  rw [Part.continueAnswer, hanswering]

theorem Part.count_counter_add (p : Part) (b c : Counter) : (p.count b).counter c = p.counter c + if b = c then 1 else 0 := by
  refine (p.count_counter b c).trans ?_
  by_cases h : b = c <;> simp [h]

theorem Part.countAnswer_counters (p : Part) (outcome : ParcelOutcome) (c : Counter) :
    (p.countAnswer outcome).counter c =
      p.counter c + if (if outcome = .done then .parcelsDone else .parcelsOtherwise) = c then 1 else 0 :=
  p.count_counter_add _ c

theorem Part.countAnswer_hasParcel (p : Part) (outcome : ParcelOutcome) : (p.countAnswer outcome).hasCause .parcel = true := by
  rw [Part.countAnswer, Part.setCause_hasCause]
  simp

theorem State.act_counters (f : Part → Part) (c : Counter) : (s.act f).part.counter c = (f s.part).counter c := by
  obtain ⟨-, -, -, -, -, -, -, -, -, hcounters, -⟩ := s.act_keeps f
  rw [Part.counter, hcounters]
  rfl

/-- A step of the answers touches no register. -/
theorem Part.nextAnswer_faults (p : Part) : p.nextAnswer.faults = p.faults := by
  obtain ⟨-, -, -, -, -, -, -, hfaults⟩ := p.nextAnswer_keepsUnits
  exact hfaults

/-- The registers after an answer counted (R127). -/
theorem State.act_countAnswer {f : Part → Part} {t : State} {q : Part} {outcome : ParcelOutcome}
    (hf : (f t.part).faults = (q.countAnswer outcome).faults) :
    (t.act f).part.hasCause .parcel = true ∧
      (t.act f).part.counter .parcelsTaken = q.counter .parcelsTaken ∧
      (t.act f).part.counter .parcelsDone = q.counter .parcelsDone + (if outcome = .done then 1 else 0) ∧
      (t.act f).part.counter .parcelsOtherwise = q.counter .parcelsOtherwise + (if outcome = .done then 0 else 1) := by
  have hcounter (c : Counter) : (t.act f).part.counter c = (q.countAnswer outcome).counter c := by
    rw [State.act_counters, Part.counter, hf]
    rfl
  rw [State.act_hasCause _ f .parcel (by decide), Part.hasCause, hf, hcounter, hcounter, hcounter, Part.countAnswer_counters,
    Part.countAnswer_counters, Part.countAnswer_counters]
  refine ⟨q.countAnswer_hasParcel outcome, ?_, ?_, ?_⟩ <;> by_cases h : outcome = .done <;> simp [h]

theorem exec_entryAnswered (hx : s.current = some x) (hsource : x.source = .answer) (hp : s.part.ladder.softPending = false)
    (hworks : s.part.ladder.state.pauses = false) (hanswering : s.part.parcels.answering = some (.writing [last]))
    (hlist : s.part.parcels.answers = .entry slot :: rest) (he : s.part.parcelOf slot = some e) :
    ∃ t, exec .answerWriteComplete s = .next t ∧ t.part.parcelOf slot = none ∧ t.part.hasCause .parcel = true ∧
      t.part.counter .parcelsDone = s.part.counter .parcelsDone + (if e.outcome = .done then 1 else 0) ∧
      t.part.counter .parcelsOtherwise = s.part.counter .parcelsOtherwise + (if e.outcome = .done then 0 else 1) := by
  obtain ⟨f, hexec, hf⟩ := exec_answerNumberWritten hx hsource hp hanswering
  let p := s.begun x none 0
  have hdone : f (s.afterWord x none).part = ((p.countAnswer e.outcome).freeParcel slot).nextAnswer := by
    rw [hf, Part.takeParcelEnd_of_lastWritten (p := p) hworks hanswering]
    exact p.answerComplete_of_entry hlist he
  obtain ⟨patience, hof⟩ := (State.act_openStep hdone).parcelOf slot
  obtain ⟨hcause, -, hparcels, hothers⟩ := State.act_countAnswer (t := s.afterWord x none) (f := f) (q := p) (outcome := e.outcome)
    (by rw [hdone, Part.nextAnswer_faults]; rfl)
  refine ⟨_, hexec, ?_, hcause, hparcels, hothers⟩
  rw [hof, Part.parcelOf_congr _ (Part.nextAnswer_queue _), Part.freeParcel_parcelOf, if_pos rfl]
  rfl

theorem exec_withdrawCheck_before_answer {host : Option Word} {w : Word} (hx : s.current = some x) (hsource : x.source = .answer)
    (hp : s.part.ladder.softPending = false) (hworks : s.part.ladder.state.pauses = false)
    (hanswering : s.part.parcels.answering = some .checking) (hlist : s.part.parcels.answers = .entry slot :: rest)
    (he : s.part.parcelOf slot = some e) (dt : Nat) (hw : w = s.wordOf x host) :
    let checked := if e.pastCutoff = false ∧ w.extractLsb' 0 16 = e.ask then { e with outcome := .withdrawn, nodeStatus := 0 } else e
    ∃ (t : State) (e' : Parcel), exec (.withdrawCheck host dt) s = .next t ∧ t.part.parcelOf slot = some e' ∧
      e'.outcome = checked.outcome ∧ e'.nodeStatus = checked.nodeStatus ∧
      ∃ writes, checked.answeredBy writes ∧ t.part.parcels.answering = some (.writing writes) ∧
        ∀ first, writes.head? = some first → t.part.asks { offset := first.1, write := some first.2, source := .answer } := by
  intro checked
  obtain ⟨f, heq, hf⟩ := completeIf_ends hx hp
    (mine := fun a => a.source == .withdraw || (a.source == .answer && s.part.parcels.answering == some .checking))
    (by simp [hsource, hanswering]) host dt
  let p := s.begun x host dt
  have hof : (p.modParcel slot fun e => e.withdrawChecked w).parcelOf slot = some checked :=
    p.modParcel_parcelOf_self (f := fun e => e.withdrawChecked w) (fun e => by unfold Parcel.withdrawChecked; split <;> rfl) he
  have hdone : f (s.afterWord x host).part = (p.modParcel slot fun e => e.withdrawChecked w).writeAnswer checked.answerWrites := by
    rw [hf, hsource, ← hw]
    refine (Part.takeParcelEnd_of_works (p := p) hworks _).trans ?_
    change p.continueAnswer w = _
    rw [Part.continueAnswer, show p.parcels.answering = some .checking from hanswering]
    dsimp only
    rw [show p.parcels.answers = .entry slot :: rest from hlist]
    dsimp only
    rw [hof]
  have hwritten : ((p.modParcel slot fun e => e.withdrawChecked w).writeAnswer checked.answerWrites).parcelOf slot = some checked := by
    exact (Part.parcelOf_congr (p.modParcel slot fun e => e.withdrawChecked w) (by rw [Part.writeAnswer_parcels]) slot).trans hof
  obtain ⟨e', he', hsame⟩ := State.act_parcelOf hdone hwritten
  refine ⟨_, e', congrArg Host.Outcome.next heq, he', by rw [hsame], by rw [hsame], checked.answerWrites, checked.answerWrites_answeredBy,
    ?_, fun first hfirst => State.act_asks _ f ?_⟩
  · rw [(State.act_openStep hdone).answering (by rw [Part.writeAnswer_parcels]; rfl), Part.writeAnswer_parcels]
  · rw [hdone]
    obtain ⟨tail, htail⟩ := List.head?_eq_some_iff.mp hfirst
    rw [htail]
    exact Part.mem_issueWrite _ _ _ _

/-- The answer of the walk in progress: an immediate one, or the deferred one (R116). -/
def Part.walkAnswer (p : Part) (a : AnswerFor) (slot : SlotIx) (outcome : ParcelOutcome) : Prop :=
  (∃ ask, a = .immediate slot ask outcome) ∨ a = .deferred ∧ ∃ d, p.parcels.deferred = some d ∧ d.slot = slot ∧ d.outcome = outcome

/-- The walk's answer is counted, and the walk passes on from its slot (R116). -/
theorem Part.answerComplete_of_walk (p : Part) {a : AnswerFor} {outcome : ParcelOutcome} (hlist : p.parcels.answers = a :: rest)
    (h : p.walkAnswer a slot outcome) : ∃ q : Part, q.faults = ((p.count .parcelsTaken).countAnswer outcome).faults ∧
      q.parcels.walk = p.parcels.walk ∧ (a = .deferred → q.parcels.deferred = none) ∧
      p.answerComplete = match q.parcels.walk with | .answering _ left => q.walkOn slot left | _ => q := by
  rcases h with ⟨ask, rfl⟩ | ⟨rfl, d, hd, rfl, rfl⟩
  · let q := ((p.count .parcelsTaken).countAnswer outcome).nextAnswer
    refine ⟨q, Part.nextAnswer_faults _, ?_, nofun, ?_⟩
    · rw [show q.parcels = _ from Part.nextAnswer_keepsButAnswers _]
      rfl
    · rw [Part.answerComplete, hlist] <;> rfl
  · let r : Part := { p with parcels := { p.parcels with deferred := none } }
    let q := ((r.count .parcelsTaken).countAnswer d.outcome).nextAnswer
    refine ⟨q, Part.nextAnswer_faults _, ?_, fun _ => ?_, ?_⟩
    · rw [show q.parcels = _ from Part.nextAnswer_keepsButAnswers _]
      rfl
    · rw [show q.parcels = _ from Part.nextAnswer_keepsButAnswers _]
      rfl
    · rw [Part.answerComplete, hlist]
      dsimp only
      rw [hd] <;> rfl

theorem exec_walkAnswered {a : AnswerFor} {outcome : ParcelOutcome} (hx : s.current = some x) (hsource : x.source = .answer)
    (hp : s.part.ladder.softPending = false) (hworks : s.part.ladder.state.pauses = false)
    (hanswering : s.part.parcels.answering = some (.writing [last])) (hlist : s.part.parcels.answers = a :: rest)
    (h : s.part.walkAnswer a slot outcome) :
    ∃ t, exec .answerWriteComplete s = .next t ∧ t.part.hasCause .parcel = true ∧
      t.part.counter .parcelsTaken = s.part.counter .parcelsTaken + 1 ∧
      t.part.counter .parcelsDone = s.part.counter .parcelsDone + (if outcome = .done then 1 else 0) ∧
      t.part.counter .parcelsOtherwise = s.part.counter .parcelsOtherwise + (if outcome = .done then 0 else 1) ∧
      (a = .deferred → t.part.parcels.deferred = none) ∧
      (∀ walked left, s.part.parcels.walk = .answering walked left → 1 < left →
        t.part.parcels.walk = .visit (slot + 1) (left - 1) []) := by
  obtain ⟨f, hexec, hf⟩ := exec_answerNumberWritten hx hsource hp hanswering
  let p := s.begun x none 0
  obtain ⟨q, hfaults, hwalk, hdeferred, hcomplete⟩ := p.answerComplete_of_walk hlist h
  have hdone : f (s.afterWord x none).part = match q.parcels.walk with | .answering _ left => q.walkOn slot left | _ => q := by
    rw [hf, Part.takeParcelEnd_of_lastWritten (p := p) hworks hanswering, hcomplete]
  have hregisters : (f (s.afterWord x none).part).faults = ((p.count .parcelsTaken).countAnswer outcome).faults := by
    rw [hdone, ← hfaults]
    split
    · exact q.walkOn_faults _ _
    · rfl
  obtain ⟨hcause, htaken, hparcels, hothers⟩ := State.act_countAnswer hregisters
  have hcount (c : Counter) : (p.count .parcelsTaken).counter c = s.part.counter c + if .parcelsTaken = c then 1 else 0 :=
    p.count_counter_add .parcelsTaken c
  have hdoneCount : (p.count .parcelsTaken).counter .parcelsDone = s.part.counter .parcelsDone := (hcount _).trans (by simp)
  have hotherCount : (p.count .parcelsTaken).counter .parcelsOtherwise = s.part.counter .parcelsOtherwise :=
    (hcount _).trans (by simp)
  refine ⟨_, hexec, hcause, htaken.trans (hcount .parcelsTaken), by rw [hparcels, hdoneCount],
    by rw [hothers, hotherCount], fun ha => ?_, fun walked left hwalked hmore => ?_⟩
  · rw [(State.act_openStep rfl).deferred, hdone]
    split
    · exact Part.walkOn_deferred.trans (hdeferred ha)
    · exact hdeferred ha
  · rw [hwalk, show p.parcels.walk = .answering walked left from hwalked] at hdone
    have hon : (q.walkOn slot left).parcels.walk = .visit (slot + 1) (left - 1) [] := by
      rw [Part.walkOn, if_neg (by omega)]
      rfl
    exact ((State.act_openStep hdone).walk (by rw [hon]; nofun)).trans hon

theorem exec_answerEnds_atRest (hx : s.current = some x) (hsource : x.source = .answer) (hp : s.part.ladder.softPending = false)
    (hrest : s.part.ladder.state = .resting ∨ s.part.ladder.state = .rousing) (host : Option Word) (dt : Nat) :
    let ends := fun host (t : State) =>
      t.part.parcels = { s.part.parcels with keptEnd := some (.answer (some (s.wordOf x host))) }
    (∃ t, exec (.memoryAccessComplete host dt) s = .next t ∧ ends host t) ∧
    (s.part.parcels.answering = some .checking → ∃ t, exec (.withdrawCheck host dt) s = .next t ∧ ends host t) ∧
    (∀ last, s.part.parcels.answering = some (.writing [last]) → ∃ t, exec .answerWriteComplete s = .next t ∧ ends none t) ∧
    (∃ t, exec (.memoryErrorResponse dt) s = .next t ∧
      t.part.parcels = { s.part.parcels with keptEnd := some (.answer none) }) := by
  intro ends
  refine ⟨?_, fun hchecking => ?_, fun last hanswering => ?_,
    exec_parcelAccessFails_atRest hx hp hrest (fun p => by rw [hsource]; rfl) dt⟩
  · obtain ⟨f, hexec, hf⟩ := exec_accessEnds hx hp host dt
    exact ⟨_, hexec, State.act_keepsEnd (p := s.begun x host dt) hrest (by rw [hf, hsource]; rfl)⟩
  · obtain ⟨f, heq, hf⟩ := completeIf_ends hx hp
      (mine := fun a => a.source == .withdraw || (a.source == .answer && s.part.parcels.answering == some .checking))
      (by simp [hsource, hchecking]) host dt
    exact ⟨_, congrArg Host.Outcome.next heq, State.act_keepsEnd (p := s.begun x host dt) hrest (by rw [hf, hsource]; rfl)⟩
  · obtain ⟨f, hexec, hf⟩ := exec_answerNumberWritten hx hsource hp hanswering
    exact ⟨_, hexec, State.act_keepsEnd (p := s.begun x none 0) hrest hf⟩

end

/-- Settles O57: each outcome of a parcel's exchange, each end of its answer, and its accesses at rest. -/
theorem parcelsEnd : Obligations.ParcelsEnd := by
  refine ⟨fun s i slot tag segment e n f dt hrun hguard hex hout hrx he hsending => ?acked,
    fun s i slot tag segment e a dt hrun hguard hex hout hrx he hfinishing => ?finished,
    fun s i slot tag wanted e f dt hrun hguard hex hout hrx he hasking => ?replied,
    fun s i slot tag segment e a dt hrun hguard hex hout ha he htransfer => ?failed,
    fun p e => p.parcelEligible_iff e, fun p _ hpos => p.parcelNext_spec hpos,
    fun _ _ _ _ _ dt _ hx hsource hp hrun hwaits he helig hw => exec_withdrawCheck_before_seg hx hsource hp hrun hwaits he helig dt hw,
    fun _ _ _ hrun hopen he htransfer hzero => exec_patienceExpires hrun hopen he htransfer hzero,
    fun _ _ hrun => exec_patienceExpiry_outOfRun hrun,
    fun _ _ _ _ dt hrun hguard hex he => exec_abandonSent hrun hguard hex he dt,
    fun _ _ _ _ _ _ hx hsource hp hworks hanswering hlist he => exec_entryAnswered hx hsource hp hworks hanswering hlist he,
    fun _ _ _ _ _ _ dt _ hx hsource hp hworks hanswering hlist he hw =>
      exec_withdrawCheck_before_answer hx hsource hp hworks hanswering hlist he dt hw,
    fun s x last rest a outcome hx hsource hp hworks hanswering hlist ha => ?walk,
    fun _ _ host dt hx hsource hp hrest => exec_answerEnds_atRest hx hsource hp hrest host dt⟩
  case acked =>
    obtain ⟨t, e', hexec, he', hsame, hgood, hmiss⟩ := exec_segAcked hrun hguard hex hout hrx he dt
    refine ⟨t, e', hexec, he', ?_, hgood, hmiss, fun hlast => ?_, fun hmore => ?_⟩
    · rw [hsame]
      simp only [Parcel.acked, hsending]
      split <;> rfl
    · have hacked : e.acked segment = { e with attempts := 0, pastCutoff := true, transfer := .asking 0 } := by
        simp only [Parcel.acked, hsending]
        exact if_pos hlast
      rw [hsame, hacked]
      exact ⟨rfl, rfl⟩
    · have hacked : e.acked segment = { e with attempts := 0, transfer := .sending (n + 1) } := by
        simp only [Parcel.acked, hsending]
        exact if_neg hmore
      rw [hsame, hacked]
      exact ⟨rfl, rfl⟩
  case finished =>
    obtain ⟨t, e', hexec, he', hsame⟩ := exec_outcomeOfFinished hrun hguard hex hout hrx he hfinishing dt
    refine ⟨t, e', hexec, he', ?_, ?_, ?_, ?_, ?_, fun hseg hgood => ?_, fun hor => ?_⟩
    · rw [hsame]
      split <;> exact hfinishing
    iterate 4
      rw [hsame]
      split <;> rfl
    · rw [hsame, if_pos ⟨hseg, hgood⟩]
    · rw [hsame, if_neg]
      rintro ⟨hseg, hgood⟩
      rcases hor with hnext | hbad
      · rw [hseg] at hnext
        cases hnext
      · exact hbad hgood
  case replied =>
    intro n total status consistent
    obtain ⟨g, hexec, hg, hgood, hmiss⟩ := exec_segReplied hrun hguard hex hout hrx dt
    let p := (s.part.returned dt).setLastGood i
    obtain ⟨e₁, he₁, hreplied⟩ := p.segReplied_parcelOf (e := e) he hasking f
    obtain ⟨e', he', hsame⟩ := State.act_parcelNext hg he₁
    obtain ⟨hnotReady, hlast, hmore, hbad⟩ := hreplied e' hsame
    refine ⟨_, e', hexec, he', hgood, hmiss, fun hflag => ?_, fun hflag hagrees => ?_, fun hflag hdisagrees => ?_⟩
    · rw [hnotReady hflag]
      exact ⟨rfl, rfl, rfl, rfl⟩
    · by_cases hn : n = lastSegment total
      · have he'same := hlast hflag hagrees hn
        refine ⟨by rw [he'same]; rfl, by rw [he'same]; rfl, by rw [he'same]; rfl, fun h => absurd hn h, fun _ =>
          ⟨by rw [he'same]; rfl, by rw [he'same]; rfl, by rw [he'same]; rfl, by rw [he'same]; rfl, fun hcutoff hnone hempty => ?_⟩⟩
        obtain ⟨hanswering, hwrites⟩ := State.act_segReplied_answers (p := p) hg he hasking hflag hagrees hn hcutoff hnone hempty
        exact ⟨_, e'.answerWrites_answeredBy, by rw [he'same.answerWrites, hanswering], by rw [he'same.answerWrites]; exact hwrites⟩
      · have he'same := hmore hflag hagrees hn
        exact ⟨by rw [he'same]; rfl, by rw [he'same]; rfl, by rw [he'same]; rfl, fun _ => by rw [he'same], fun h => absurd h hn⟩
    · rw [hbad hflag hdisagrees, Parcel.failed]
      split
      next h => exact ⟨rfl, rfl, rfl, fun hne => absurd h hne, fun _ => ⟨rfl, rfl, rfl, rfl⟩⟩
      next h => exact ⟨rfl, rfl, rfl, fun _ => rfl, fun heq => absurd heq h⟩
  case failed =>
    obtain ⟨t, e', hexec, he', hsame, hmiss⟩ := exec_parcelAttemptFails_transferring hrun hguard hex hout ha he htransfer dt
    refine ⟨t, e', hexec, he', ?_⟩
    rw [hsame, Parcel.failed]
    split
    next h => exact ⟨rfl, hmiss, fun hne => absurd h hne, fun _ => ⟨rfl, rfl, rfl, rfl⟩⟩
    next h => exact ⟨rfl, hmiss, fun _ => rfl, fun heq => absurd heq h⟩
  case walk =>
    rcases ha with ⟨slot, ask, rfl⟩ | ⟨rfl, d, hd, houtcome, hwalked⟩
    · obtain ⟨t, hexec, hcause, htaken, hdone, hother, hdeferred, hwalk⟩ :=
        exec_walkAnswered hx hsource hp hworks hanswering hlist (slot := slot) (.inl ⟨ask, rfl⟩)
      refine ⟨t, hexec, hcause, htaken, hdone, hother, hdeferred, fun k left hk hslot hmore => ?_⟩
      rw [hwalk k left hk hmore, hslot slot ask rfl]
    · obtain ⟨t, hexec, hcause, htaken, hdone, hother, hdeferred, hwalk⟩ :=
        exec_walkAnswered hx hsource hp hworks hanswering hlist (slot := d.slot) (.inr ⟨rfl, d, hd, rfl, houtcome⟩)
      refine ⟨t, hexec, hcause, htaken, hdone, hother, hdeferred, fun k left hk _ hmore => ?_⟩
      rw [hwalk k left hk hmore, hwalked k left hk]

end Sys2Proof.Machine
end

section
/-! SUPPORT. The optional phases of a cycle behind an outcome or a slot (R37 to R39): what a phase's first choice and what follows it
leave of the nodes, entries and event marks that the choice was made by. -/

namespace Sys2Proof.Machine

/-! ## What a phase's choice was made by still stands -/

/-- The nodes, the entries but for the marks of the pass and their patience, and the event state but for places claimed and the fetched
flags stand in `t` as in `r`. -/
structure Part.StandsAs (t r : Part) : Prop where
  records : t.table.records = r.table.records
  entries : ∃ g : Parcel → Parcel, (∀ e, (g e).Same e) ∧ t.parcels.queue = r.parcels.queue.map g
  queue : t.events.queue = r.events.queue
  marks : ∀ i, t.marks i = r.marks i
  written : t.events.written = r.events.written
  taken : t.events.taken = r.events.taken
  takenInvalid : t.events.takenInvalid = r.events.takenInvalid
  appendStopped : t.events.appendStopped = r.events.appendStopped

theorem Part.StandsAs.refl (r : Part) : r.StandsAs r :=
  ⟨rfl, ⟨id, .refl, (List.map_id _).symm⟩, rfl, fun _ => rfl, rfl, rfl, rfl, rfl⟩

/-- Where the entries, the nodes and all of the event unit but a claim and the read stand, so does what a choice was made by. -/
theorem Part.StandsAs.of_kept {t r : Part} (hrecords : t.table.records = r.table.records) (hparcels : t.parcels.queue = r.parcels.queue)
    (hevents : t.events = { r.events with claimed := t.events.claimed, takenRead := t.events.takenRead }) : t.StandsAs r :=
  ⟨hrecords, ⟨id, .refl, hparcels.trans (List.map_id _).symm⟩, by rw [hevents],
    fun i => by rw [Part.marks, Part.nodeEvents, hevents]; rfl, by rw [hevents], by rw [hevents], by rw [hevents], by rw [hevents]⟩

theorem Part.StandsAs.trans {t q r : Part} (h : t.StandsAs q) (k : q.StandsAs r) : t.StandsAs r where
  records := h.records.trans k.records
  entries := by
    obtain ⟨g, hg, ht⟩ := h.entries
    obtain ⟨g', hg', hq⟩ := k.entries
    exact ⟨g ∘ g', fun e => (hg _).trans (hg' e), by rw [ht, hq, List.map_map]⟩
  queue := h.queue.trans k.queue
  marks i := (h.marks i).trans (k.marks i)
  written := h.written.trans k.written
  taken := h.taken.trans k.taken
  takenInvalid := h.takenInvalid.trans k.takenInvalid
  appendStopped := h.appendStopped.trans k.appendStopped

theorem ParcelUnit.PassStep.entries {v u : ParcelUnit} (h : v.PassStep u) :
    ∃ g : Parcel → Parcel, (∀ e, (g e).Same e) ∧ v.queue = u.queue.map g := by
  obtain ⟨given, passed, hqueue⟩ := h.queue
  exact ⟨fun e => { e with given := given e, passed := passed e }, fun _ => rfl, hqueue⟩

theorem ParcelUnit.OpenStep.entries {v u : ParcelUnit} (h : v.OpenStep u) :
    ∃ g : Parcel → Parcel, (∀ e, (g e).Same e) ∧ v.queue = u.queue.map g := by
  obtain ⟨patience, hqueue⟩ := h.queue
  exact ⟨fun e => { e with patience := patience e }, fun _ => rfl, hqueue⟩

/-! ## The phases -/

section
variable (p : Part)

theorem Part.parcelPhase_passStep : p.parcelPhase.parcels.PassStep p.parcels :=
  (Part.parcelNext_passStep _).trans ⟨⟨fun _ => false, fun _ => false, List.map_map⟩, rfl, rfl⟩

theorem Part.parcelNext_stands : p.parcelNext.StandsAs p := by
  have hevents := p.parcelNext_events
  refine ⟨by rw [p.parcelNext_table], p.parcelNext_passStep.entries, by rw [hevents], fun i => ?_, by rw [hevents], by rw [hevents],
    by rw [hevents], by rw [hevents]⟩
  rw [Part.marks, Part.nodeEvents, hevents]
  rfl

theorem Part.parcelPhase_stands : p.parcelPhase.StandsAs p :=
  (Part.parcelNext_stands _).trans
    ⟨rfl, ⟨fun e => { e with given := false, passed := false }, fun _ => rfl, List.map_map⟩, rfl, fun _ => rfl, rfl, rfl, rfl, rfl⟩

theorem Part.nameNode_marks (i j : NodeIx) : (p.nameNode i).marks j = p.marks j := by
  by_cases h : i = j
  · subst h
    simp [Part.marks, Part.nameNode, Part.claimPlace, Part.modEvents, Part.nodeEvents]
  · simp [Part.marks, Part.nameNode, Part.claimPlace, Part.modEvents, Part.nodeEvents, h]

theorem Part.nameNode_stands (i : NodeIx) : (p.nameNode i).StandsAs p :=
  ⟨rfl, ⟨id, .refl, (List.map_id _).symm⟩, rfl, p.nameNode_marks i, rfl, rfl, rfl, rfl⟩

theorem Part.beginFetch_stands (i : NodeIx) : (p.beginFetch i).StandsAs p := by
  unfold Part.beginFetch
  dsimp only
  split
  · exact .trans (q := p.nameNode i) (.of_kept rfl rfl rfl) (p.nameNode_stands i)
  · exact .trans (q := p.nameNode i) (.trans (Part.parcelPhase_stands _) (.of_kept rfl rfl rfl)) (p.nameNode_stands i)

theorem Part.requestTaken_stands (onFetch : Bool) : (p.requestTaken onFetch).StandsAs p := by
  unfold Part.requestTaken
  split <;> exact .of_kept rfl rfl rfl

theorem Part.fetchNext_stands : p.fetchNext.StandsAs p := by
  unfold Part.fetchNext
  split
  · exact p.parcelPhase_stands
  · split
    · exact p.beginFetch_stands _
    · exact (Part.requestTaken_stands _ true).trans (.of_kept rfl rfl rfl)

theorem Part.newRound_stands : p.newRound.StandsAs p :=
  ⟨rfl, ⟨id, .refl, (List.map_id _).symm⟩, rfl, p.newRound_marks, rfl, rfl, rfl, rfl⟩

theorem Part.fetchPhase_stands : p.fetchPhase.StandsAs p := (Part.fetchNext_stands _).trans p.newRound_stands

theorem Part.windowPhase_stands : p.windowPhase.StandsAs p := by
  unfold Part.windowPhase
  split
  · split
    · exact .of_kept rfl rfl rfl
    · unfold Part.windowNotFitted
      split
      · exact (Part.fetchPhase_stands _).trans (.of_kept rfl rfl rfl)
      · exact p.fetchPhase_stands
  · exact p.fetchPhase_stands

end

/-- What follows an event in RUN leaves standing what a choice was made by. -/
theorem State.act_stands {s : State} {f : Part → Part} {q : Part} (hf : f s.part = q) (hrun : q.ladder.state = .run) :
    (s.act f).part.StandsAs q := by
  have hq := State.act_settled hf (by rw [hrun]; nofun) (by rw [hrun]; nofun)
  obtain ⟨-, -, -, -, -, -, -, -, -, -, -, -, -, -, -, -, -, -, -, -, -, -, -, -, -, -, hwritten, htaken, hinvalid, hstopped, -⟩ :=
    s.act_keeps f
  rw [hf] at hwritten htaken hinvalid hstopped
  refine ⟨hq.records, (State.act_openStep hf).entries, hq.queue, fun i => ?_, hwritten, htaken, hinvalid, hstopped⟩
  rw [Part.marks, Part.nodeEvents, hq.nodes]
  rfl

/-! ## A phase begins as well by what still stands -/

/-- A phase begins in `b` as in `r`: `b` shows all that the choices of a phase read as `r` does. -/
structure Part.LeadsAs (b r : Part) : Prop extends b.StandsAs r where
  settings : b.loader.settings = r.loader.settings
  timer : b.sched.timer = r.sched.timer
  overrun : b.sched.overrun = r.sched.overrun
  claimed : b.events.claimed = r.events.claimed
  takenRead : b.events.takenRead = r.events.takenRead

section
variable {b r t : Part}

theorem Part.StandsAs.node (h : b.StandsAs r) (i : NodeIx) : b.node i = r.node i := by
  rw [Part.node, h.records]
  rfl

theorem Part.LeadsAs.fitsIn (h : b.LeadsAs r) (dt bt : Nat) : b.fitsIn dt bt ↔ r.fitsIn dt bt := by
  rw [Part.fitsIn, Part.fitsIn, Part.beforeExpiry, Part.beforeExpiry, h.settings, h.timer, h.overrun]

theorem Part.LeadsAs.replyTime (h : b.LeadsAs r) (i : NodeIx) : b.replyTime i = r.replyTime i := by
  rw [Part.replyTime, Part.replyTime, h.settings, h.node]

theorem Part.LeadsAs.hasPlace (h : b.LeadsAs r) : b.events.hasPlace ↔ r.events.hasPlace := by
  rw [EventUnit.hasPlace, EventUnit.hasPlace, h.written, h.taken, h.takenInvalid, h.appendStopped, h.claimed]

theorem Parcel.Same.fields {e f : Parcel} (h : f.Same e) :
    f.slot = e.slot ∧ f.node = e.node ∧ f.transfer = e.transfer ∧ f.abandonOwed = e.abandonOwed ∧ f.inTransfer = e.inTransfer := by
  rw [Parcel.Same] at h
  rw [h]
  exact ⟨rfl, rfl, rfl, rfl, rfl⟩

/-- The event state that a choice reads of a node, besides its fetched flag. -/
theorem Part.StandsAs.events (h : b.StandsAs r) (i : NodeIx) : (b.nodeEvents i).ackOwed = (r.nodeEvents i).ackOwed ∧
    (b.nodeEvents i).accepted = (r.nodeEvents i).accepted ∧ (b.nodeEvents i).intake = (r.nodeEvents i).intake := by
  have hmarks := h.marks i
  simp only [Part.marks, NodeEvents.mk.injEq] at hmarks
  obtain ⟨-, -, haccepted, -, howed, -, hintake⟩ := hmarks
  exact ⟨howed, haccepted, hintake⟩

/-- An entry is eligible or not whatever its marks of the pass and its patience. -/
theorem Part.parcelEligible_of_same {g : Parcel → Parcel} (hg : ∀ e, (g e).Same e) (hnode : ∀ i, b.node i = r.node i)
    (hqueue : b.parcels.queue = r.parcels.queue.map g) (e : Parcel) : b.parcelEligible (g e) = r.parcelEligible e := by
  simp only [Part.parcelEligible, hqueue, hnode, List.all_map, List.takeWhile_map, Function.comp_def, (hg _).fields]

theorem Part.parcelGiven.leads {dt bt : Nat} {ex : Exchange} {bytes : List Byte} (k : r.parcelGiven t dt bt ex bytes)
    (h : b.LeadsAs r) : b.parcelGiven t dt bt ex bytes := by
  rwa [Part.parcelGiven, h.fitsIn]

theorem Part.parcelServed.leads {dt : Nat} {e : Parcel} (k : r.parcelServed t dt e) (h : b.LeadsAs r) : b.parcelServed t dt e := by
  unfold Part.parcelServed at k ⊢
  split
  case h_3 n htransfer =>
    rw [htransfer] at k
    rw [Part.nextGiven, h.replyTime, h.node]
    exact Part.parcelGiven.leads k h
  case h_4 htransfer =>
    rw [htransfer] at k
    rw [Part.abandonGiven, h.node]
    exact Part.parcelGiven.leads k h
  all_goals
    next htransfer =>
      rw [htransfer] at k
      exact k

theorem Part.parcelPhaseBegins.leads {dt : Nat} (k : r.parcelPhaseBegins t dt) (h : b.LeadsAs r) : b.parcelPhaseBegins t dt := by
  obtain ⟨g, hg, hqueue⟩ := h.entries
  have hfind : b.parcels.queue.find? b.parcelEligible = (r.parcels.queue.find? r.parcelEligible).map g := by
    rw [hqueue, List.find?_map]
    congr 2
    funext e
    exact Part.parcelEligible_of_same hg h.node hqueue e
  unfold Part.parcelPhaseBegins at k ⊢
  rw [hfind]
  cases he : r.parcels.queue.find? r.parcelEligible with
  | none =>
    rw [he] at k
    exact k
  | some e =>
    rw [he] at k
    have hserved := Part.parcelServed.leads k h
    rw [Option.map_some, hg e]
    exact hserved

theorem Part.fetchAsked.leads {dt : Nat} {eligible : NodeIx → Bool} (k : r.fetchAsked t dt eligible) (h : b.LeadsAs r) :
    b.fetchAsked t dt eligible := by
  unfold Part.fetchAsked at k ⊢
  rw [h.queue, h.claimed]
  split
  next he =>
    rw [he] at k
    obtain ⟨hclaimed, hphase⟩ := k
    exact ⟨hclaimed, hphase.leads h⟩
  next i he =>
    rw [he] at k
    simp only [h.events, h.hasPlace, h.fitsIn, h.replyTime, h.node, h.takenRead]
    obtain ⟨hgiven, hnoFit, hnoPlace⟩ := k
    exact ⟨hgiven, fun hplace hfits => ⟨(hnoFit hplace hfits).1, (hnoFit hplace hfits).2.leads h⟩, hnoPlace⟩

theorem Part.fetchPhaseBegins.leads {dt : Nat} (k : r.fetchPhaseBegins t dt) (h : b.LeadsAs r) : b.fetchPhaseBegins t dt := by
  have hintake : (fun i => !(b.nodeEvents i).intake) = fun i => !(r.nodeEvents i).intake := by
    funext i
    rw [(h.events i).2.2]
  rw [Part.fetchPhaseBegins, hintake]
  exact Part.fetchAsked.leads k h

theorem Part.optionalPhasesBegin.leads {dt : Nat} (k : r.optionalPhasesBegin t dt) (h : b.LeadsAs r) (hwindows : b.windows = r.windows)
    (hinterval : b.sched.interval = r.sched.interval) (hcycle : b.sched.cycle = r.sched.cycle) : b.optionalPhasesBegin t dt := by
  unfold Part.optionalPhasesBegin at k ⊢
  have hbefore : b.beforeExpiry dt ↔ r.beforeExpiry dt := by
    rw [Part.beforeExpiry, Part.beforeExpiry, h.timer, h.overrun]
  simp only [hwindows, hinterval, hcycle, h.fitsIn, h.claimed, hbefore]
  obtain ⟨hopened, hnoFit, hnotDue⟩ := k
  exact ⟨hopened, fun hdue hfits => ⟨(hnoFit hdue hfits).1, (hnoFit hdue hfits).2.1, (hnoFit hdue hfits).2.2.leads h⟩,
    fun hdue => ⟨(hnotDue hdue).1, (hnotDue hdue).2.leads h⟩⟩

end

/-! ## Behind an outcome or a slot -/

/-- What an outcome or a slot leaves of the line's settings, the cycle timer and the read of the events-taken word. -/
structure Part.KeepsTime (r p : Part) : Prop where
  settings : r.loader.settings = p.loader.settings
  timer : r.sched.timer = p.sched.timer
  overrun : r.sched.overrun = p.sched.overrun
  interval : r.sched.interval = p.sched.interval
  cycle : r.sched.cycle = p.sched.cycle
  takenRead : r.events.takenRead = p.events.takenRead

section
variable {s : State} {f : Part → Part} {r : Part} {dt : Nat}

/-- The part as a phase began leads as the part behind the outcome, the timer moved. -/
theorem Part.behind_leadsAs {p t : Part} (ht : t.StandsAs r) (hr : r.KeepsTime (p.passTime dt)) :
    ((p.behind t r.events.claimed).passTime dt).LeadsAs r :=
  { ht with
    settings := hr.settings.symm
    timer := hr.timer.symm
    overrun := hr.overrun.symm
    claimed := rfl
    takenRead := hr.takenRead.symm }

/-- The optional phases begin behind an outcome in RUN. -/
theorem State.act_optionalPhases (hf : f s.part = r.windowPhase) (hrun : r.ladder.state = .run) (hr : r.KeepsTime (s.part.passTime dt))
    (hwindows : r.windows = s.part.windows) :
    (s.part.behind (s.act f).part r.events.claimed).optionalPhasesBegin (s.act f).part dt := by
  have hstate : r.windowPhase.ladder.state = .run := by rw [Part.windowPhase_ladder, hrun]
  have hstands := (State.act_stands hf hstate).trans r.windowPhase_stands
  have hshows := State.act_shows hf (by rw [hstate]; nofun) (by rw [hstate]; nofun) (by rw [hstate]; rfl)
  rw [← Part.passTime_optionalPhasesBegin]
  exact (r.windowPhase_begins.shown hshows).leads (Part.behind_leadsAs hstands hr) hwindows.symm hr.interval.symm hr.cycle.symm

/-- The fetch phase begins behind a slot. -/
theorem State.act_fetchPhase (hf : f s.part = r.fetchPhase) (hrun : r.ladder.state = .run) (hr : r.KeepsTime (s.part.passTime dt)) :
    (s.part.behind (s.act f).part r.events.claimed).fetchPhaseBegins (s.act f).part dt := by
  have hstate : r.fetchPhase.ladder.state = .run := by rw [Part.fetchPhase_ladder, hrun]
  have hstands := (State.act_stands hf hstate).trans r.fetchPhase_stands
  have hshows := State.act_shows hf (by rw [hstate]; nofun) (by rw [hstate]; nofun) (by rw [hstate]; rfl)
  have hbegins : r.fetchPhaseBegins (s.act f).part 0 := Part.fetchAsked.shown r.fetchPhase_begins hshows
  have hled := hbegins.leads (Part.behind_leadsAs hstands hr)
  rw [Part.fetchPhaseBegins] at hled ⊢
  exact (Part.passTime_fetchAsked _ _ _ _).mp hled

end
end Sys2Proof.Machine
end

section
/-! SUPPORT. A slot of a contention window (R14, R62, R83 to R88): its report, what a good bid does, and what a state change does to the
event unit. -/

namespace Sys2Proof.Machine

/-! ## A state change and the event unit (R95) -/

section
variable (p : Part) (i : NodeIx) (f : NodeRecord → NodeRecord) (new : NodeState)

theorem Part.changeState_events :
    (p.changeState i f new).events = if (p.node i).state.inService && !new.inService then (p.eventLeaves i).events else p.events := by
  have hmove (q : Part) (hnode : q.node i = p.node i) (hevents : q.events = p.events) : (q.moveNode i f new).events =
      if (p.node i).state.inService && !new.inService then (p.eventLeaves i).events else p.events := by
    rw [Part.moveNode_events, hnode, hevents]
    simp only [Part.eventLeaves, Part.unqueue, Part.modEvents, Part.setQueue, hevents]
  have hloss (e : NodeEntry) (size : Nat) : (p.applyLoss e size).events = p.events := by
    unfold Part.applyLoss
    split <;> rfl
  unfold Part.changeState
  dsimp only
  split
  · exact hmove p rfl rfl
  · exact hmove _ (p.applyLoss_node _ _ i) (hloss _ _)

/-- A node that leaves service leaves the queue with its latch cleared. -/
theorem Part.changeState_events_of_leaves (hin : (p.node i).state.inService = true) (hout : new.inService = false) :
    (p.changeState i f new).events.queue = p.events.queue.filter (· != i) ∧
      (p.changeState i f new).nodeEvents i = { p.nodeEvents i with latch := false } := by
  have hevents : (p.changeState i f new).events = (p.eventLeaves i).events := by
    rw [Part.changeState_events, hin, hout]
    rfl
  refine ⟨by rw [hevents]; rfl, ?_⟩
  rw [Part.nodeEvents, hevents]
  exact (p.eventLeaves_nodeEvents i i).trans (if_pos rfl)

theorem Part.changeState_keepsPlaces : (p.changeState i f new).events.claimed = p.events.claimed ∧
    (p.changeState i f new).events.noteUnderWay = p.events.noteUnderWay := by
  rw [Part.changeState_events]
  split <;> exact ⟨rfl, rfl⟩

theorem Part.changeState_frames (hnew : new ≠ .live) : (p.changeState i f new).frames = p.frames := by
  unfold Part.changeState Part.moveNode
  dsimp only
  (repeat' split) <;> simp_all

end

/-! ## The note under way (R107) -/

section
variable (p : Part)

/-- A note under way is not taken up or ended by `q`. -/
def Part.KeepsNote (q p : Part) : Prop := q.events.noteUnderWay = p.events.noteUnderWay

theorem Part.KeepsNote.of_events {p q : Part} (h : q.events = p.events) : q.KeepsNote p := congrArg EventUnit.noteUnderWay h

theorem Part.KeepsNote.trans {p q r : Part} (h : r.KeepsNote q) (k : q.KeepsNote p) : r.KeepsNote p := Eq.trans h k

theorem Part.startAppend_keepsNote : p.startAppend.KeepsNote p := by
  unfold Part.startAppend
  split <;> rfl

theorem Part.startAppend_claimed : p.startAppend.events.claimed = p.events.claimed := by
  unfold Part.startAppend
  split <;> rfl

theorem Part.requestTaken_keepsNote (onFetch : Bool) : (p.requestTaken onFetch).KeepsNote p := by
  unfold Part.requestTaken
  split <;> rfl

theorem Part.parcelPhase_keepsNote : p.parcelPhase.KeepsNote p := .of_events (Part.parcelNext_events _)

theorem Part.fetchNext_keepsNote : p.fetchNext.KeepsNote p := by
  unfold Part.fetchNext Part.beginFetch
  dsimp only
  split
  · exact p.parcelPhase_keepsNote
  · split
    · split
      · rfl
      · exact Part.parcelPhase_keepsNote _
    · exact Part.requestTaken_keepsNote _ true

theorem Part.fetchPhase_keepsNote : p.fetchPhase.KeepsNote p := p.newRound.fetchNext_keepsNote

theorem Part.serviceName_keepsNote (i : NodeIx) : (p.serviceName i).KeepsNote p := by
  unfold Part.serviceName
  split
  · rfl
  · exact Part.requestTaken_keepsNote _ true

theorem Part.serviceNext_keepsNote : p.serviceNext.KeepsNote p := by
  unfold Part.serviceNext
  split
  · exact .of_events p.endService_events
  split
  next j _ => exact p.serviceName_keepsNote j
  next =>
    split
    · exact .of_events p.endService_events
    split
    · dsimp only
      split
      next j _ => exact p.newRound.serviceName_keepsNote j
      next => exact .trans (q := p.newRound) (.of_events p.newRound.endService_events) rfl
    · rfl

theorem Part.settleService_keepsNote : p.settleService.KeepsNote p := by
  unfold Part.settleService
  split
  · split
    · exact .of_events p.endService_events
    split
    · exact Part.serviceNext_keepsNote _
    · rfl
  · rfl

theorem Part.settle_keepsNote : p.settle.KeepsNote p := by
  have hopen : p.settleNodeOpen.events = p.events := by
    unfold Part.settleNodeOpen
    dsimp only
    (repeat' split) <;> simp
  have hstartup (q : Part) : q.settleStartup.events = q.events := by
    unfold Part.settleStartup
    (repeat' split) <;> simp [Part.startupFail, Part.startupRead]
  have hparcel (q : Part) : q.settleParcelOpen.events = q.events := by
    unfold Part.settleParcelOpen Part.openScan Part.openPatience Part.openRewrites
    (repeat' split) <;> simp
  refine (Part.settleService_keepsNote _).trans ((Part.startAppend_keepsNote _).trans (.of_events ?_))
  simp [hparcel, hstartup, hopen]

end

theorem State.act_noteUnderWay {s : State} {f : Part → Part} {q : Part} (hf : f s.part = q) :
    (s.act f).part.events.noteUnderWay = q.events.noteUnderWay := by
  rw [State.act_events, hf]
  exact q.settle_keepsNote

/-! ## A slot's report (R62) -/

/-- An intact BID of a node with LEN 2, no flag, reason EVENT or ATTEND and a line address. -/
def Frame.IsBid (f : Frame) : Prop :=
  f.head.msb = true ∧ f.head.extractLsb' 3 4 = 7 ∧ f.head.extractLsb' 0 3 = 0 ∧ f.payload.length = 2 ∧
    (payloadByte f.payload 0 = 1 ∨ payloadByte f.payload 0 = 2) ∧ 1 ≤ f.address.toNat ∧ f.address.toNat ≤ 250

theorem Frame.kind_bid_iff (f : Frame) : f.kind = some .bid ↔ f.head.extractLsb' 3 4 = 7 := by
  rw [← BitVec.toNat_inj]
  change _ ↔ (f.head.extractLsb' 3 4).toNat = 7
  unfold Frame.kind
  split <;> simp_all

theorem Frame.flags_clear_iff (f : Frame) :
    f.head.extractLsb' 0 3 = 0 ↔ f.flag 0 = false ∧ f.flag 1 = false ∧ f.flag 2 = false := by
  have hflag (k : Nat) (hk : k < 3) : (f.head.extractLsb' 0 3).getLsbD k = f.flag k := by
    simp [Frame.flag, hk]
  constructor
  · intro h
    refine ⟨?_, ?_, ?_⟩
    · rw [← hflag 0 (by decide), h]; rfl
    · rw [← hflag 1 (by decide), h]; rfl
    · rw [← hflag 2 (by decide), h]; rfl
  · rintro ⟨h0, h1, h2⟩
    refine BitVec.eq_of_getLsbD_eq fun k hk => ?_
    rw [hflag k hk]
    match k, hk with
    | 0, _ => rw [h0]; rfl
    | 1, _ => rw [h1]; rfl
    | 2, _ => rw [h2]; rfl

theorem Frame.isGoodBid_iff (f : Frame) : f.isGoodBid = true ↔ f.IsBid := by
  unfold Frame.isGoodBid Frame.IsBid Frame.wellFormedAs Frame.fromNode isLineAddress Config.maxAddress
  simp only [Bool.and_eq_true, beq_iff_eq, f.kind_bid_iff, f.flags_clear_iff, Bool.or_eq_true, Bool.not_eq_true', decide_eq_true_eq]
  tauto

/-- The first good bid among the frames heard in a slot. -/
theorem find_goodBid_iff {l : List (Option Frame)} {f : Frame} :
    (l.filterMap id).find? Frame.isGoodBid = some f ↔
      f.IsBid ∧ ∃ before after, l = before ++ some f :: after ∧ ∀ g, some g ∈ before → ¬ g.IsBid := by
  have hfind : (l.filterMap id).find? Frame.isGoodBid = some f ↔ l.find? (fun a => a.any Frame.isGoodBid) = some (some f) := by
    rw [List.find?_filterMap]
    change (l.find? (fun a => a.any Frame.isGoodBid)).bind id = some f ↔ _
    cases hfound : l.find? (fun a => a.any Frame.isGoodBid) with
    | none => exact ⟨nofun, nofun⟩
    | some g =>
      rw [Option.bind_some, Option.some.injEq]
      rfl
  rw [hfind, List.find?_eq_some_iff_append]
  refine and_congr (by simp [f.isGoodBid_iff]) (exists_congr fun before => exists_congr fun after => and_congr_right fun _ => ?_)
  constructor
  · intro h g hg
    have hbad := h _ hg
    rw [← g.isGoodBid_iff]
    simpa using hbad
  · intro h a ha
    cases a with
    | none => rfl
    | some g =>
      have hbad := h g ha
      rw [← g.isGoodBid_iff] at hbad
      simpa using hbad

theorem slotFrames_nil {heard : SlotHeard} (h : heard.items = []) : slotFrames heard = [] := by
  rw [slotFrames, h]
  split <;> rfl

theorem slotReport_goodBid {heard : SlotHeard} {f : Frame} (hbid : f.IsBid)
    (hended : ∃ before after, slotFrames heard = before ++ some f :: after ∧ ∀ g, some g ∈ before → ¬ g.IsBid) :
    slotReport heard false false = .goodBid f.address (payloadByte f.payload 0) (payloadByte f.payload 1) := by
  have hitems : heard.items ≠ [] := by
    intro h
    obtain ⟨before, after, hframes, -⟩ := hended
    rw [slotFrames_nil h] at hframes
    cases before <;> cases hframes
  rw [slotReport, if_neg fun h => hitems h.1, if_neg (by decide), find_goodBid_iff.mpr ⟨hbid, hended⟩]

theorem slotReport_notGood {heard : SlotHeard} {spill clash : Bool} (hquiet : ¬ (heard.items = [] ∧ spill = false ∧ clash = false))
    (hbad : ∀ f : Frame, ¬ (spill = false ∧ clash = false ∧ f.IsBid ∧
      ∃ before after, slotFrames heard = before ++ some f :: after ∧ ∀ g, some g ∈ before → ¬ g.IsBid)) :
    slotReport heard spill clash = .notGood := by
  rw [slotReport, if_neg hquiet]
  split
  · rfl
  next hclean =>
    split
    next f hf =>
      have hclear : spill = false ∧ clash = false := by simpa using hclean
      exact absurd ⟨hclear.1, hclear.2, find_goodBid_iff.mp hf⟩ (hbad f)
    · rfl

/-- The bytes of one BID are heard as that BID. -/
theorem framesHeard_bid (address reason kind : Byte) :
    let check := crc16 [0xB8, address, 2, reason, kind]
    framesHeard ([Config.syncByte, 0xB8, address, 2, reason, kind, check.extractLsb' 8 8, check.extractLsb' 0 8].map .byte) =
      [some { head := 0xB8, address := address, payload := [reason, kind] }] := by
  intro check
  let items : List LineItem :=
    [Config.syncByte, 0xB8, address, 2, reason, kind, check.extractLsb' 8 8, check.extractLsb' 0 8].map .byte
  have hlead : leadingBytes items =
      Config.syncByte :: 0xB8 :: address :: 2 :: [reason, kind, check.extractLsb' 8 8, check.extractLsb' 0 8] := leadingBytes_bytes _
  have hlength : frameLength items = some 8 := by
    rw [frameLength, hlead]
    rfl
  have hreceive : receiveFrame items = some { head := 0xB8, address := address, payload := [reason, kind] } := by
    rw [receiveFrame_of_leadingBytes hlead]
    exact (if_pos ⟨rfl, by simp, by simp⟩).trans (if_pos ⟨rfl, rfl⟩)
  have hsplit : splitGaps items = [items] := rfl
  rw [framesHeard, hsplit]
  change framesOfStretch 9 items ++ [] = _
  rw [List.append_nil]
  change (match frameLength items with
    | some length => receiveFrame items :: framesOfStretch 8 (items.drop length)
    | none => [none]) = _
  rw [hlength, hreceive]
  rfl

/-! ## A good bid (R14, R94) -/

/-- What a BID of record `i` does, in `q`, to what stood in `p`. -/
structure Part.BidTaken (q p : Part) (i : NodeIx) (reason : Byte) : Prop where
  stays : (p.node i).state.inService = true → reason = 1 → q.node i = p.node i
  redundant : (p.node i).state.inService = true → reason = 1 → (p.node i).applied.eventsEnabled = true → (p.nodeEvents i).latch = true →
    q.counter .redundantIndications = p.counter .redundantIndications + 1
  notRedundant : ¬ ((p.node i).state.inService = true ∧ reason = 1 ∧ (p.node i).applied.eventsEnabled = true ∧
    (p.nodeEvents i).latch = true) → q.counter .redundantIndications = p.counter .redundantIndications
  latched : (p.node i).state.inService = true → reason = 1 → (p.node i).applied.eventsEnabled = true → (p.nodeEvents i).latch = false →
    q.marks i = { p.marks i with latch := true, origin := .bid } ∧ q.events.queue = p.events.queue.filter (· != i) ++ [i]
  uneventful : (p.node i).state.inService = true → reason = 1 →
    ((p.node i).applied.eventsEnabled = true → (p.nodeEvents i).latch = true) → q.events = p.events
  attends : (p.node i).state.inService = true → reason ≠ 1 →
    q.Reprobed p i ∧ (q.marks i).latch = false ∧ q.events.queue = p.events.queue.filter (· != i)
  lost : (p.node i).state = .lost → q.Reprobed p i ∧ q.events = p.events
  other : (p.node i).state = .probing ∨ (p.node i).state = .misfit → q = p

section
variable {p : Part} {i : NodeIx}

theorem Part.nodeBid_of_inService (h : (p.node i).state.inService = true) (reason : Byte) :
    p.nodeBid i reason = if reason = 1 then p.indicate i .bid else p.reprobe i := by
  unfold Part.nodeBid
  split <;> simp_all [NodeState.inService, Part.reprobe]

theorem Part.nodeBid_of_lost (h : (p.node i).state = .lost) (reason : Byte) : p.nodeBid i reason = p.reprobe i := by
  rw [Part.nodeBid, h]
  rfl

theorem Part.nodeBid_of_other (h : (p.node i).state.inService = false) (hlost : (p.node i).state ≠ .lost) (reason : Byte) :
    p.nodeBid i reason = p := by
  unfold Part.nodeBid
  split <;> simp_all [NodeState.inService]

theorem Part.reprobe_counter (c : Counter) : (p.reprobe i).counter c = p.counter c := by
  obtain ⟨-, -, -, -, hfaults, -⟩ := p.changeState_keeps i NodeRecord.toProbing .probing
  rw [Part.counter, Part.reprobe, hfaults]
  rfl

theorem Part.nodeBid_counter (reason : Byte) {c : Counter} (hc : c ≠ .redundantIndications) :
    (p.nodeBid i reason).counter c = p.counter c := by
  unfold Part.nodeBid
  split
  · split
    · exact Part.indicate_counter _ hc
    · exact Part.reprobe_counter c
  · split
    · exact Part.indicate_counter _ hc
    · exact Part.reprobe_counter c
  · exact Part.reprobe_counter c
  all_goals rfl

theorem Part.nodeBid_bidTaken (hstart : p.ladder.state ≠ .starting) (reason : Byte) : (p.nodeBid i reason).BidTaken p i reason := by
  by_cases hin : (p.node i).state.inService = true
  · have hlost : (p.node i).state ≠ .lost := by
      intro h
      rw [h] at hin
      cases hin
    have hother : ¬ ((p.node i).state = .probing ∨ (p.node i).state = .misfit) := by
      rintro (h | h) <;> rw [h] at hin <;> cases hin
    rw [Part.nodeBid_of_inService hin]
    by_cases hreason : reason = 1
    · rw [if_pos hreason]
      refine ⟨fun _ _ => ?_, fun _ _ hevents hlatch => ?_, fun hnot => ?_, fun _ _ hevents hlatch => ?_, fun _ _ hquiet => ?_,
        fun _ h => absurd hreason h, fun h => absurd h hlost, fun h => absurd h hother⟩
      · rw [Part.node, Part.indicate_records]
        rfl
      · rw [Part.indicate_of_latched hevents hlatch, Part.count_counter, if_pos rfl]
      · by_cases hevents : (p.node i).applied.eventsEnabled = true
        · have hlatch : (p.nodeEvents i).latch ≠ true := fun h => hnot ⟨hin, hreason, hevents, h⟩
          unfold Part.indicate Part.toTail
          rw [if_pos hevents, if_neg hlatch]
          split <;> rfl
        · rw [Part.indicate_of_disabled (by simpa using hevents)]
      · exact (Part.indicate_of_unlatched hevents hlatch .bid).symm
      · by_cases hevents : (p.node i).applied.eventsEnabled = true
        · rw [Part.indicate_of_latched hevents (hquiet hevents)]
          rfl
        · rw [Part.indicate_of_disabled (by simpa using hevents)]
    · rw [if_neg hreason]
      have hleaves := p.changeState_events_of_leaves i NodeRecord.toProbing .probing hin rfl
      refine ⟨fun _ h => absurd h hreason, fun _ h => absurd h hreason, fun _ => Part.reprobe_counter _, fun _ h => absurd h hreason,
        fun _ h => absurd h hreason, fun _ _ => ⟨p.reprobe_reprobed i hstart, ?_, hleaves.1⟩, fun h => absurd h hlost,
        fun h => absurd h hother⟩
      exact congrArg NodeEvents.latch hleaves.2
  · have hout : (p.node i).state.inService = false := by simpa using hin
    refine ⟨fun h => absurd h hin, fun h => absurd h hin, fun _ => ?_, fun h => absurd h hin, fun h => absurd h hin,
      fun h => absurd h hin, fun hlost => ?_, fun h => Part.nodeBid_of_other hout ?_ reason⟩
    · by_cases hlost : (p.node i).state = .lost
      · rw [Part.nodeBid_of_lost hlost, Part.reprobe_counter]
      · rw [Part.nodeBid_of_other hout hlost]
    · rw [Part.nodeBid_of_lost hlost]
      exact ⟨p.reprobe_reprobed i hstart, Part.changeState_events_of_outOfService hout _ _⟩
    · rcases h with h | h <;> rw [h] <;> nofun

end

/-! ## What a slot leaves -/

/-- What a slot's report leaves: the line, the line's settings, the read of the events-taken word, and the window but for a tally and a
stray; a note claims a place as it comes under way. -/
structure Part.KeepsInSlot (q p : Part) : Prop where
  ladder : q.ladder = p.ladder
  frames : q.frames = p.frames
  sched : q.sched = p.sched
  loader : q.loader = p.loader
  window : q.windows = { p.windows with tallies := q.windows.tallies, strays := q.windows.strays }
  takenRead : q.events.takenRead = p.events.takenRead
  places : q.events.claimed =
    p.events.claimed + if p.events.noteUnderWay = false ∧ q.events.noteUnderWay = true then 1 else 0

theorem Part.KeepsInSlot.of_kept {q p : Part} (hladder : q.ladder = p.ladder) (hframes : q.frames = p.frames) (hsched : q.sched = p.sched)
    (hloader : q.loader = p.loader) (hwindow : q.windows = { p.windows with tallies := q.windows.tallies, strays := q.windows.strays })
    (htaken : q.events.takenRead = p.events.takenRead)
    (hplaces : q.events.claimed = p.events.claimed ∧ q.events.noteUnderWay = p.events.noteUnderWay) : q.KeepsInSlot p := by
  refine ⟨hladder, hframes, hsched, hloader, hwindow, htaken, ?_⟩
  rw [hplaces.1, hplaces.2, if_neg]
  · rfl
  · rintro ⟨h, h'⟩
    rw [h] at h'
    cases h'

theorem Part.KeepsInSlot.of_counted {q p r : Part} (h : q.KeepsInSlot r) (hladder : r.ladder = p.ladder) (hframes : r.frames = p.frames)
    (hsched : r.sched = p.sched) (hloader : r.loader = p.loader)
    (hwindow : r.windows = { p.windows with tallies := r.windows.tallies }) (hevents : r.events = p.events) : q.KeepsInSlot p where
  ladder := h.ladder.trans hladder
  frames := h.frames.trans hframes
  sched := h.sched.trans hsched
  loader := h.loader.trans hloader
  window := by rw [h.window, hwindow]
  takenRead := by rw [h.takenRead, hevents]
  places := by rw [h.places, hevents]

section
variable (p : Part)

theorem Part.offerNote_keepsInSlot : p.offerNote.KeepsInSlot p := by
  by_cases hoffer : (!p.events.noteUnderWay && decide (0 < p.events.freePlaces) && p.ladder.state.worksMemory) = true
  · cases hstray : p.windows.strays.find? (·.pendingNote) with
    | none =>
      have hnone : p.offerNote = p := by
        rw [Part.offerNote, if_pos hoffer, hstray]
      rw [hnone]
      exact .of_kept rfl rfl rfl rfl rfl rfl ⟨rfl, rfl⟩
    | some stray =>
      obtain ⟨hclaimed, hnote⟩ : p.offerNote.events.claimed = p.events.claimed + 1 ∧ p.offerNote.events.noteUnderWay = true := by
        rw [Part.offerNote, if_pos hoffer, hstray]
        exact ⟨Part.startAppend_claimed _, Part.startAppend_keepsNote _⟩
      have hidle : p.events.noteUnderWay = false := by
        simp only [Bool.and_eq_true, Bool.not_eq_true'] at hoffer
        exact hoffer.1.1
      have hkept : p.offerNote.KeepsUnits p := by
        unfold Part.offerNote
        (repeat' split) <;> simp [Part.KeepsUnits]
      obtain ⟨-, hframes, hsched, -, hwindows, hloader, hladder, -⟩ := hkept
      have htaken : p.offerNote.events.takenRead = p.events.takenRead := by
        rw [Part.offerNote, if_pos hoffer, hstray]
        exact Part.startAppend_takenRead _
      refine ⟨hladder, hframes, hsched, hloader, by rw [hwindows], htaken, ?_⟩
      rw [hclaimed, if_pos ⟨hidle, hnote⟩]
  · rw [Part.offerNote, if_neg hoffer]
    exact .of_kept rfl rfl rfl rfl rfl rfl ⟨rfl, rfl⟩

theorem Part.sighting_keepsInSlot (a : Byte) (origin : StrayOrigin) (kind : Byte) : (p.sighting a origin kind).KeepsInSlot p := by
  unfold Part.sighting
  dsimp only
  split
  · obtain ⟨hladder, hframes, hsched, hloader, hwindow, htaken, hplaces⟩ :=
      (p.modWindows fun w => { w with strays := sight p.windows.strays a origin kind }).offerNote_keepsInSlot
    exact ⟨hladder, hframes, hsched, hloader, hwindow, htaken, hplaces⟩
  · exact .of_kept rfl rfl rfl rfl rfl rfl ⟨rfl, rfl⟩

theorem Part.sighting_tallies (a : Byte) (origin : StrayOrigin) (kind : Byte) :
    (p.sighting a origin kind).windows.tallies = p.windows.tallies := by
  have hoffer (q : Part) : q.offerNote.windows = q.windows := by
    unfold Part.offerNote
    (repeat' split) <;> simp
  unfold Part.sighting
  dsimp only
  split
  · rw [hoffer]
    rfl
  · rfl

theorem Part.indicate_keepsInSlot (i : NodeIx) (origin : LatchOrigin) : (p.indicate i origin).KeepsInSlot p := by
  unfold Part.indicate Part.toTail
  (repeat' split) <;> exact .of_kept rfl rfl rfl rfl rfl rfl ⟨rfl, rfl⟩

theorem Part.reprobe_keepsInSlot (i : NodeIx) : (p.reprobe i).KeepsInSlot p := by
  obtain ⟨hsched, hwindows, hloader, hladder, -⟩ := p.changeState_keeps i NodeRecord.toProbing .probing
  exact .of_kept hladder (p.changeState_frames i _ _ nofun) hsched hloader
    ((congrArg (fun w : WindowUnit => { w with tallies := w.tallies, strays := w.strays }) hwindows).trans (by rw [← hwindows]; rfl))
    (Part.changeState_takenRead _ _) (p.changeState_keepsPlaces i _ _)

theorem Part.nodeBid_keepsInSlot (i : NodeIx) (reason : Byte) : (p.nodeBid i reason).KeepsInSlot p := by
  by_cases hin : (p.node i).state.inService = true
  · rw [Part.nodeBid_of_inService hin]
    split
    · exact p.indicate_keepsInSlot i .bid
    · exact p.reprobe_keepsInSlot i
  · have hout : (p.node i).state.inService = false := by simpa using hin
    by_cases hlost : (p.node i).state = .lost
    · rw [Part.nodeBid_of_lost hlost]
      exact p.reprobe_keepsInSlot i
    · rw [Part.nodeBid_of_other hout hlost]
      exact .of_kept rfl rfl rfl rfl rfl rfl ⟨rfl, rfl⟩

theorem Part.takeSlot_keepsInSlot (report : SlotReport) : (p.takeSlot report).KeepsInSlot p := by
  unfold Part.takeSlot
  split
  · exact .of_kept rfl rfl rfl rfl rfl rfl ⟨rfl, rfl⟩
  · exact .of_kept rfl rfl rfl rfl rfl rfl ⟨rfl, rfl⟩
  · split
    · exact (Part.nodeBid_keepsInSlot _ _ _).of_counted rfl rfl rfl rfl rfl rfl
    · exact (Part.sighting_keepsInSlot _ _ _ _).of_counted rfl rfl rfl rfl rfl rfl

end
end Sys2Proof.Machine
end

section
/-! SUPPORT. SLOT_END (R62, R83 to R88): the slots that follow, the end of the window, and what a slot's report leaves after the event. -/

namespace Sys2Proof.Machine

section
variable {s : State} {heard : SlotHeard} {dt : Nat}

/-- The part as a slot's report has been taken. -/
def Part.slotTaken (p : Part) (heard : SlotHeard) : Part := p.takeSlot (slotReport heard p.frames.spill (p.frames.slotClash heard))

theorem exec_slotEnd_of_run (hrun : s.part.ladder.state = .run) (hslot : s.part.frames.state = .slotting) :
    exec (.slotEnd heard dt) s = .next (s.act fun p => (p.passTime dt).slotEnd heard) := by
  change execSlotEnd heard dt s = _
  rw [execSlotEnd, State.actIf, if_pos (by rw [hrun, hslot]; rfl)]

/-- What of a slot's report stands after the event, whatever phase follows the slot. -/
structure Part.SlotEnded (t q : Part) : Prop extends t.StandsAs q where
  tallies : t.windows.tallies = q.windows.tallies
  strays : t.windows.strays = q.windows.strays
  counter : ∀ c ∈ [Counter.windowClashes, .windowBids, .redundantIndications, .strayFrames], t.counter c = q.counter c
  shadow : t.images.shadow = q.images.shadow
  writes : q.table.writes <+: t.table.writes

variable {p q : Part} {f : Part → Part}

theorem Part.slotEnd_of_more (hq : p.slotTaken heard = q) (hmore : q.frames.slot + 1 < q.windows.size.slots) :
    p.slotEnd heard =
      { q with frames := { q.frames with slot := q.frames.slot + 1, spill := slotRunsOn heard q.frames.spill, clash := false } } := by
  subst hq
  exact if_pos hmore

theorem Part.slotEnd_of_last (hq : p.slotTaken heard = q) (hlast : ¬ q.frames.slot + 1 < q.windows.size.slots) :
    p.slotEnd heard = (q.endWindow.frameState .listening).fetchPhase := by
  subst hq
  exact if_neg hlast

/-- The part behind a slot, settled: the next slot, or the fetch phase behind the window. -/
theorem State.act_slotEnded (hrun : q.ladder.state = .run)
    (hf : (∃ u : FrameEngine, f s.part = { q with frames := u }) ∨ f s.part = (q.endWindow.frameState .listening).fetchPhase) :
    (s.act f).part.SlotEnded q := by
  rcases hf with ⟨u, hf⟩ | hf
  · have hwork := State.act_workSettled hf (Part.startupWaits_of_notStarting (by rw [hrun]; nofun))
    have hstands := (State.act_stands hf hrun).trans (.of_kept (r := q) rfl rfl rfl)
    refine ⟨hstands, by rw [hwork.windows], by rw [hwork.windows], fun c _ => ?_, by rw [hwork.images], hwork.writes⟩
    rw [State.act_counters, hf]
    rfl
  · let r := q.endWindow.frameState .listening
    have hladder : r.fetchPhase.ladder.state = .run := by rw [Part.fetchPhase_ladder, Part.frameState_ladder, Part.endWindow_ladder, hrun]
    have hwork := State.act_workSettled hf (Part.startupWaits_of_notStarting (by rw [hladder]; nofun))
    have hstands := ((State.act_stands hf hladder).trans (Part.fetchPhase_stands r)).trans
      (.of_kept (r := q) rfl rfl rfl)
    obtain ⟨-, -, htable, -, -, -, -, -, -, -, -, -, -, -, -, hshadow, -, -, -, -, -, -, -, -, -, -, -, -, -, -, hcounters⟩ :=
      Part.fetchPhase_keepsChoice r
    have hwindows : (s.act f).part.windows = r.windows := by rw [hwork.windows, Part.fetchPhase_windows]
    refine ⟨hstands, by rw [hwindows]; rfl, by rw [hwindows]; rfl, fun c hc => ?_, by rw [hwork.images, hshadow]; rfl, ?_⟩
    · rw [State.act_counters, hf]
      simp only [List.mem_cons, List.not_mem_nil, or_false] at hc
      have hkept : r.fetchPhase.faults.counters.get c.index = r.faults.counters.get c.index := by
        rcases hc with rfl | rfl | rfl | rfl <;> exact hcounters _ (by decide) (by decide) (by decide)
      exact hkept
    · have hwrites := hwork.writes
      rwa [htable] at hwrites

end

section
variable {p : Part} {heard : SlotHeard}

theorem Part.slotTaken_of_quiet (h : heard.items = [] ∧ p.frames.spill = false ∧ p.frames.slotClash heard = false) :
    p.slotTaken heard = p.tally fun t => { t with empty := t.empty + 1 } := by
  rw [Part.slotTaken, slotReport, if_pos h]
  rfl

theorem Part.slotTaken_of_enabled {address reason kind : Byte} {i : NodeIx}
    (hreport : slotReport heard p.frames.spill (p.frames.slotClash heard) = .goodBid address reason kind)
    (h : p.enabledAt address = some i) :
    p.slotTaken heard = ((p.tally fun t => { t with bid := t.bid + 1 }).count .windowBids).nodeBid i reason := by
  rw [Part.slotTaken, hreport, Part.takeSlot, h]

theorem Part.slotTaken_of_unknown {address reason kind : Byte}
    (hreport : slotReport heard p.frames.spill (p.frames.slotClash heard) = .goodBid address reason kind)
    (h : p.enabledAt address = none) :
    p.slotTaken heard = ((p.tally fun t => { t with stray := t.stray + 1 }).count .strayFrames).sighting address .bid kind := by
  rw [Part.slotTaken, hreport, Part.takeSlot, h]

end

/-- SLOT_END in RUN: what of the report stands after it, the next slot, and what follows the last one. -/
theorem exec_slotEnded {s : State} {heard : SlotHeard} {dt : Nat} (hrun : s.part.ladder.state = .run)
    (hslot : s.part.frames.state = .slotting) :
    ∃ t q, exec (.slotEnd heard dt) s = .next t ∧ q = (s.part.passTime dt).slotTaken heard ∧ t.part.SlotEnded q ∧
      (s.part.frames.slot + 1 < s.part.windows.size.slots →
        t.part.frames.state = .slotting ∧ t.part.frames.slot = s.part.frames.slot + 1 ∧
        t.part.frames.spill = (heard.overruns && (s.part.frames.spill || heard.items != [])) ∧ t.part.frames.clash = false ∧
        t.part.windows.isOpen = s.part.windows.isOpen ∧ t.part.windows.size = s.part.windows.size) ∧
      (s.part.windows.size.slots ≤ s.part.frames.slot + 1 →
        t.part.windows.isOpen = false ∧ t.part.windows.lastClash = decide (1 ≤ t.part.windows.tallies.clash) ∧
        (t.part.windows.size, t.part.windows.streak) =
          adapt s.part.windows.size s.part.windows.streak t.part.windows.tallies.clash
            (t.part.windows.tallies.bid + t.part.windows.tallies.stray) ∧
        (s.part.behind t.part (s.part.events.claimed +
          if s.part.events.noteUnderWay = false ∧ t.part.events.noteUnderWay = true then 1 else 0)).fetchPhaseBegins t.part dt) := by
  let p := s.part.passTime dt
  let f : Part → Part := fun p => (p.passTime dt).slotEnd heard
  let q := p.slotTaken heard
  have hexec : exec (.slotEnd heard dt) s = .next (s.act f) := exec_slotEnd_of_run hrun hslot
  obtain ⟨hladder, hframes, hsched, hloader, hwindow, htaken, hplaces⟩ := p.takeSlot_keepsInSlot
    (slotReport heard p.frames.spill (p.frames.slotClash heard))
  have hqrun : q.ladder.state = .run := (congrArg Ladder.state hladder).trans hrun
  have hsize : q.windows.size = s.part.windows.size := (congrArg WindowUnit.size hwindow).trans rfl
  have hslotEq : q.frames.slot = s.part.frames.slot := congrArg FrameEngine.slot hframes
  by_cases hmore : s.part.frames.slot + 1 < s.part.windows.size.slots
  · have hf : f s.part = _ := Part.slotEnd_of_more (p := p) (heard := heard) (q := q) rfl (by rw [hslotEq, hsize]; exact hmore)
    have hsettled := State.act_settled hf (by rw [hqrun]; nofun) (by rw [hqrun]; nofun)
    refine ⟨_, q, hexec, rfl, State.act_slotEnded hqrun (.inl ⟨_, hf⟩), fun _ => ?_, fun h => absurd hmore (by omega)⟩
    rw [hsettled.frames, hsettled.windows]
    refine ⟨?_, ?_, ?_, rfl, (congrArg WindowUnit.isOpen hwindow).trans rfl, hsize⟩
    · exact (congrArg FrameEngine.state hframes).trans hslot
    · exact congrArg (· + 1) hslotEq
    · exact congrArg (fun u : FrameEngine => slotRunsOn heard u.spill) hframes
  · let r := q.endWindow.frameState .listening
    have hf : f s.part = r.fetchPhase :=
      Part.slotEnd_of_last (p := p) (heard := heard) (q := q) rfl (by rw [hslotEq, hsize]; exact hmore)
    have hrrun : r.ladder.state = .run := (congrArg Ladder.state q.endWindow_ladder).trans hqrun
    have hended := State.act_slotEnded hqrun (.inr hf)
    have hwindows : (s.act f).part.windows = r.windows := by
      rw [(State.act_settled hf (by rw [Part.fetchPhase_ladder, hrrun]; nofun) (by rw [Part.fetchPhase_ladder, hrrun]; nofun)).windows,
        Part.fetchPhase_windows]
    have hkept : r.KeepsTime (s.part.passTime dt) :=
      ⟨congrArg Loader.settings hloader, congrArg Scheduler.timer hsched, congrArg Scheduler.overrun hsched,
        congrArg Scheduler.interval hsched, congrArg Scheduler.cycle hsched, htaken⟩
    have hphase := State.act_fetchPhase hf hrrun hkept
    have hnote : (s.act f).part.events.noteUnderWay = q.events.noteUnderWay := by
      rw [State.act_noteUnderWay hf]
      exact Part.fetchPhase_keepsNote r
    refine ⟨_, q, hexec, rfl, hended, fun h => absurd h hmore, fun _ => ?_⟩
    rw [hwindows, hnote]
    refine ⟨rfl, rfl, ?_, ?_⟩
    · change (adapt q.windows.size q.windows.streak _ _) = _
      rw [hsize, show q.windows.streak = s.part.windows.streak from (congrArg WindowUnit.streak hwindow).trans rfl]
      rfl
    · have hclaimed : r.events.claimed = _ := hplaces
      rwa [hclaimed] at hphase

end Sys2Proof.Machine
end

section
/-! PROOF. SLOT_END takes a slot's report (R14, R62, R83 to R88). -/

namespace Sys2Proof.Machine

section
variable {s t : State} {q : Part} {heard : SlotHeard} {dt : Nat} {i : NodeIx} {f : Frame}

/-- What a BID of record `i` does, as it stands after the event. -/
theorem Part.BidTaken.of_ended {p r t : Part} {reason : Byte} (h : r.BidTaken p i reason) (ht : t.SlotEnded r) :
    t.node i = r.node i ∧ t.counter .redundantIndications = r.counter .redundantIndications ∧ t.marks i = r.marks i ∧
      t.events.queue = r.events.queue ∧ (r.Reprobed p i → t.Reprobed p i) := by
  have hnode := ht.node i
  refine ⟨hnode, ht.counter _ (by simp), ht.marks i, ht.queue, fun hr => ?_⟩
  exact ⟨by rw [hnode, hr.state], by rw [hnode, hr.missCount], by rw [hnode, hr.countdown], by rw [hnode, hr.changeCount],
    by rw [ht.shadow]; exact hr.loss, ht.writes.subset hr.written⟩

theorem latch_origin_of_marks {p t : Part} (h : t.marks i = p.marks i) :
    (t.nodeEvents i).latch = (p.nodeEvents i).latch ∧ (t.nodeEvents i).origin = (p.nodeEvents i).origin := by
  simp only [Part.marks, NodeEvents.mk.injEq] at h
  exact ⟨h.1, h.2.1⟩

theorem Part.Reprobed.takenTogether {p t : Part} (h : t.Reprobed p i) :
    (t.node i).state = .probing ∧ (t.node i).missCount = 0 ∧ (t.node i).countdown = none ∧
      (t.node i).changeCount = (p.node i).changeCount + 1 ∧
      lossApplied (p.node i).applied p.loader.settings.inBytes p.images.shadow t.images.shadow ∧
      { node := i, cause := true } ∈ t.table.writes :=
  ⟨h.state, h.missCount, h.countdown, h.changeCount, h.loss, h.written⟩

end

/-- Settles O53: the report is the one of the frames that ended in the slot (`slotReport_goodBid`, `slotReport_notGood`), a BID does to
its record what `nodeBid` does by the record's state, and what follows the slot (`exec_slotEnded`) leaves all that standing. -/
theorem slotTaken : Obligations.SlotTaken := by
  unfold Obligations.SlotTaken
  dsimp only
  refine ⟨framesHeard_bid, fun s heard dt hrun hslot => ?_⟩
  obtain ⟨t, q, hexec, hq, hended, hmore, hlast⟩ := exec_slotEnded (heard := heard) (dt := dt) hrun hslot
  let p := s.part.passTime dt
  have hstart : p.ladder.state ≠ .starting := by
    change s.part.ladder.state ≠ .starting
    rw [hrun]
    nofun
  refine ⟨t, hexec, fun hquiet => ?_, fun hloud hbad => ?_, fun f hgood => ⟨fun i henabled => ?_, fun hunknown => ?_⟩, hmore, hlast⟩
  · rw [Part.slotTaken_of_quiet (p := p) hquiet] at hq
    rw [hended.tallies, hended.counter _ (by simp), hq]
    exact ⟨rfl, rfl⟩
  · have hreport : slotReport heard p.frames.spill (p.frames.slotClash heard) = .notGood := slotReport_notGood hloud hbad
    have hcount : q = (p.tally fun t => { t with clash := t.clash + 1 }).count .windowClashes := by
      rw [hq, Part.slotTaken, hreport]
      rfl
    rw [hended.tallies, hended.counter _ (by simp), hcount]
    exact ⟨rfl, (Part.count_counter _ _ _).trans (if_pos rfl)⟩
  · obtain ⟨hspill, hclash, hbid, hfirst⟩ := hgood
    have hreport : slotReport heard p.frames.spill (p.frames.slotClash heard) =
        .goodBid f.address (payloadByte f.payload 0) (payloadByte f.payload 1) := by
      rw [show p.frames.spill = false from hspill, show p.frames.slotClash heard = false from hclash]
      exact slotReport_goodBid hbid hfirst
    let p' := (p.tally fun t => { t with bid := t.bid + 1 }).count .windowBids
    have hnodeBid : q = p'.nodeBid i (payloadByte f.payload 0) := hq.trans (Part.slotTaken_of_enabled hreport henabled)
    have htaken := Part.nodeBid_bidTaken (p := p') (i := i) hstart (payloadByte f.payload 0)
    rw [← hnodeBid] at htaken
    obtain ⟨hnode, hredundant, hmarks, hqueue, hreprobed⟩ := htaken.of_ended hended
    have hquietly (hevents : q.events = p'.events) : (t.part.nodeEvents i).latch = (s.part.nodeEvents i).latch ∧
        (t.part.nodeEvents i).origin = (s.part.nodeEvents i).origin ∧ t.part.events.queue = s.part.events.queue := by
      have hkept : t.part.marks i = s.part.marks i := by
        rw [hmarks, Part.marks, Part.nodeEvents, hevents]
        rfl
      exact ⟨(latch_origin_of_marks hkept).1, (latch_origin_of_marks hkept).2, by rw [hqueue, hevents]; rfl⟩
    have hreprobedAs (hr : q.Reprobed p' i) := (hreprobed hr).takenTogether
    simp only [← NodeState.inService_iff]
    refine ⟨?_, ?_, ?_, fun hin hevent => by rw [hnode]; exact htaken.stays hin hevent, fun hin hevent hlistens hlatch => ?_,
      fun hin hevent hquiet => ?_, fun hin hattend => ?_, fun hlost => ?_, fun hother => ?_⟩
    · rw [hended.tallies, hnodeBid, show (p'.nodeBid i _).windows = p'.windows by simp]
      rfl
    · rw [hended.counter _ (by simp), hnodeBid, Part.nodeBid_counter _ (by decide)]
      exact (Part.count_counter _ _ _).trans (if_pos rfl)
    · have hcounted : p'.counter .redundantIndications = s.part.counter .redundantIndications :=
        (Part.count_counter _ _ _).trans (if_neg (by decide))
      rw [hredundant, ← hcounted]
      split
      next h => exact htaken.redundant h.1 h.2.1 h.2.2.1 h.2.2.2
      next h => exact (htaken.notRedundant h).trans (BitVec.add_zero _).symm
    · obtain ⟨hlatched, hqueued⟩ := htaken.latched hin hevent hlistens (Bool.eq_false_iff.mpr hlatch)
      rw [hlatched] at hmarks
      exact ⟨congrArg NodeEvents.latch hmarks, congrArg NodeEvents.origin hmarks, hqueue.trans hqueued⟩
    · exact hquietly (htaken.uneventful hin hevent hquiet)
    · obtain ⟨hprobes, hlatch, hqueued⟩ := htaken.attends hin hattend
      exact ⟨hreprobedAs hprobes, (congrArg NodeEvents.latch hmarks).trans hlatch, hqueue.trans hqueued⟩
    · obtain ⟨hprobes, hevents⟩ := htaken.lost hlost
      exact ⟨hreprobedAs hprobes, hquietly hevents⟩
    · have hsame := htaken.other hother
      exact ⟨by rw [hnode, hsame]; rfl, hquietly (by rw [hsame])⟩
  · obtain ⟨hspill, hclash, hbid, hfirst⟩ := hgood
    have hreport : slotReport heard p.frames.spill (p.frames.slotClash heard) =
        .goodBid f.address (payloadByte f.payload 0) (payloadByte f.payload 1) := by
      rw [show p.frames.spill = false from hspill, show p.frames.slotClash heard = false from hclash]
      exact slotReport_goodBid hbid hfirst
    let p' := (p.tally fun t => { t with stray := t.stray + 1 }).count .strayFrames
    have hsighting : q = p'.sighting f.address .bid (payloadByte f.payload 1) := hq.trans (Part.slotTaken_of_unknown hreport hunknown)
    obtain ⟨hstrays, hfaults, -, -⟩ := Part.sighting_keeps (p := p') f.address .bid (payloadByte f.payload 1)
    rw [← hsighting] at hstrays hfaults
    refine ⟨?_, ?_, ?_⟩
    · rw [hended.tallies, hsighting, Part.sighting_tallies]
      rfl
    · rw [hended.counter _ (by simp), Part.counter, hfaults]
      exact (Part.count_counter _ _ _).trans (if_pos rfl)
    · rw [hended.strays, hstrays]
      exact sight_sighted _ _ _ _

end Sys2Proof.Machine
end

section
/-! SUPPORT. The outcome of an exchange with a node, taken by the node table (R8, R10 to R13, R98): a good answer, a miss, an identity,
the confirmed ack, and what the next entry of the poll list leaves of it. -/

namespace Sys2Proof.Machine

/-! ## The places of the event list -/

/-- Neither a claimed place nor the read of the events-taken word comes or goes. -/
def Part.KeepsPlaces (q p : Part) : Prop := q.events.claimed = p.events.claimed ∧ q.events.takenRead = p.events.takenRead

theorem Part.KeepsPlaces.of_events {p q : Part} (h : q.events = p.events) : q.KeepsPlaces p := by
  rw [Part.KeepsPlaces, h]
  exact ⟨rfl, rfl⟩

theorem Part.KeepsPlaces.trans {p q r : Part} (h : r.KeepsPlaces q) (k : q.KeepsPlaces p) : r.KeepsPlaces p :=
  ⟨h.1.trans k.1, h.2.trans k.2⟩

section
variable (p : Part) (i : NodeIx)

theorem Part.changeState_keepsEventPlaces (f : NodeRecord → NodeRecord) (new : NodeState) : (p.changeState i f new).KeepsPlaces p :=
  ⟨(p.changeState_keepsPlaces i f new).1, Part.changeState_takenRead f new⟩

theorem Part.indicate_keepsPlaces (origin : LatchOrigin) : (p.indicate i origin).KeepsPlaces p := by
  unfold Part.indicate Part.toTail
  (repeat' split) <;> exact ⟨rfl, rfl⟩

theorem Part.confirmAck_keepsPlaces (ack : Option Byte) : (p.confirmAck i ack).KeepsPlaces p := by
  unfold Part.confirmAck
  (repeat' split) <;> exact ⟨rfl, rfl⟩

/-! ## The ack confirmed (R98) -/

theorem Part.confirmAck_nodeEvents (ack : Option Byte) : (p.confirmAck i ack).nodeEvents i =
    { p.nodeEvents i with ackOwed := (p.nodeEvents i).ackOwed && decide (ack ≠ some (p.nodeEvents i).accepted) } := by
  have hkept (h : ack ≠ some (p.nodeEvents i).accepted) : p.nodeEvents i =
      { p.nodeEvents i with ackOwed := (p.nodeEvents i).ackOwed && decide (ack ≠ some (p.nodeEvents i).accepted) } := by
    rw [decide_eq_true h, Bool.and_true]
  unfold Part.confirmAck
  split
  next a =>
    split
    next h =>
      rw [Part.modEvents_nodeEvents, if_pos rfl, decide_eq_false (by rw [h]; exact not_not.mpr rfl), Bool.and_false]
    next h => exact hkept fun hsome => h (Option.some.inj hsome).symm
  next => exact hkept nofun

theorem Part.confirmAck_nodeEvents_of_ne {j : NodeIx} (h : i ≠ j) (ack : Option Byte) :
    (p.confirmAck i ack).nodeEvents j = p.nodeEvents j := by
  unfold Part.confirmAck
  split
  · split
    · rw [Part.modEvents_nodeEvents, if_neg h]
    · rfl
  · rfl

theorem Part.confirmAck_queue (ack : Option Byte) : (p.confirmAck i ack).events.queue = p.events.queue := by
  unfold Part.confirmAck
  (repeat' split) <;> rfl

/-! ## A good answer (R10, R11) -/

variable {p i}

theorem Part.goodAnswer_node {f : NodeRecord → NodeRecord} (hin : (p.node i).state.inService = true)
    (hf : (f (p.node i)).state = (p.node i).state) : ∃ changes, (p.goodAnswer i f).node i =
      { f (p.node i) with lastGood := p.sched.cycle, missCount := 0, state := .live, changeCount := changes } := by
  unfold Part.goodAnswer
  dsimp only
  split
  · exact ⟨(f (p.node i)).changeCount + 1, (p.changeState_node i i _ _).trans (if_pos rfl)⟩
  next hlive =>
    have hstate : (f (p.node i)).state = .live := by
      rw [hf]
      cases hs : (p.node i).state <;> simp_all [NodeState.inService]
    refine ⟨(f (p.node i)).changeCount, ?_⟩
    rw [Part.modNode_node_self, ← hstate]

theorem Part.goodAnswer_keepsEvents (f : NodeRecord → NodeRecord) : (p.goodAnswer i f).events = p.events := by
  unfold Part.goodAnswer
  dsimp only
  split
  · rw [Part.changeState_events]
    simp [NodeState.inService]
  · rfl

theorem Part.goodAnswer_images (f : NodeRecord → NodeRecord) : (p.goodAnswer i f).images = p.images := by
  unfold Part.goodAnswer
  dsimp only
  split
  · exact (Part.changeState_images _ _ _ _).trans (if_pos rfl)
  · rfl

theorem Part.goodAnswer_faults (f : NodeRecord → NodeRecord) : (p.goodAnswer i f).faults = p.faults := by
  unfold Part.goodAnswer
  dsimp only
  split
  · obtain ⟨-, -, -, -, hfaults, -⟩ := p.changeState_keeps i (fun r => { f r with lastGood := p.sched.cycle, missCount := 0 }) .live
    exact hfaults
  · rfl

/-! ## DATA (R10, R13) -/

/-- A DATA with FRESH clear of node `i` in service, taken. -/
structure Part.DataTaken (r p : Part) (i : NodeIx) (f : Frame) : Prop where
  node : ∃ changes, r.node i =
    { p.node i with fresh := true, degraded := f.flag 1, lastGood := p.sched.cycle, missCount := 0, state := .live,
                    changeCount := changes }
  shadow : r.images.shadow = p.images.shadow.writeBytes (p.node i).applied.inOffset f.payload
  ackOwed : (r.nodeEvents i).ackOwed = (p.nodeEvents i).ackOwed
  latch : f.flag 0 = true → (p.node i).applied.eventsEnabled = true → (r.nodeEvents i).latch = true
  places : r.KeepsPlaces p

theorem Part.indicate_latch (h : (p.node i).applied.eventsEnabled = true) (origin : LatchOrigin) :
    ((p.indicate i origin).nodeEvents i).latch = true := by
  by_cases hlatch : (p.nodeEvents i).latch = true
  · rw [Part.indicate_of_latched h hlatch]
    exact hlatch
  · exact congrArg NodeEvents.latch (Part.indicate_of_unlatched h (Bool.eq_false_iff.mpr hlatch) origin).2

theorem Part.indicate_ackOwed (origin : LatchOrigin) : ((p.indicate i origin).nodeEvents i).ackOwed = (p.nodeEvents i).ackOwed := by
  by_cases h : (p.node i).applied.eventsEnabled = true
  · by_cases hlatch : (p.nodeEvents i).latch = true
    · rw [Part.indicate_of_latched h hlatch]
      rfl
    · have hmarks := (Part.indicate_of_unlatched h (Bool.eq_false_iff.mpr hlatch) origin).2
      simp only [Part.marks, NodeEvents.mk.injEq] at hmarks
      exact hmarks.2.2.2.2.1
  · rw [Part.indicate_of_disabled (Bool.eq_false_iff.mpr h)]

theorem Part.goodData_dataTaken (hin : (p.node i).state.inService = true) {f : Frame} (hfresh : f.flag 2 = false) :
    (p.goodData i f).DataTaken p i f := by
  let written := p.writeShadow (p.node i).applied.inOffset f.payload
  let answered := written.goodAnswer i fun r => { r with fresh := true, degraded := f.flag 1 }
  let reported := if (p.node i).state = .live ∧ (p.node i).degraded ≠ f.flag 1 then answered.queueStatus i false else answered
  obtain ⟨changes, hnode⟩ : ∃ changes, answered.node i = _ :=
    Part.goodAnswer_node (p := written) (f := fun r => { r with fresh := true, degraded := f.flag 1 }) hin rfl
  have hevents : answered.events = p.events := Part.goodAnswer_keepsEvents (p := written) _
  have himages : answered.images = written.images := Part.goodAnswer_images (p := written) _
  obtain ⟨hrnode, hrevents, hrimages⟩ :
      reported.node i = answered.node i ∧ reported.events = p.events ∧ reported.images = written.images := by
    unfold reported
    split
    · exact ⟨Part.queueStatus_node _ _ _ _, (answered.queueStatus_events i false).trans hevents, by simp [himages]⟩
    · exact ⟨rfl, hevents, himages⟩
  have hdata : p.goodData i f = if f.flag 0 then reported.indicate i .data else reported := by
    simp only [Part.goodData, hin, hfresh, if_true]
    rfl
  have hpending : (reported.nodeEvents i).ackOwed = (p.nodeEvents i).ackOwed := by
    rw [Part.nodeEvents, hrevents]
    rfl
  rw [hdata]
  split
  next hflag =>
    refine ⟨⟨changes, ?_⟩, ?_, (Part.indicate_ackOwed _).trans hpending, fun _ henabled => Part.indicate_latch ?_ _,
      (reported.indicate_keepsPlaces i .data).trans (.of_events hrevents)⟩
    · rw [Part.node, Part.indicate_records]
      exact hrnode.trans hnode
    · have hkept : (reported.indicate i .data).images = reported.images := by simp
      rw [hkept, hrimages]
      rfl
    · rw [hrnode, hnode]
      exact henabled
  next hflag =>
    exact ⟨⟨changes, hrnode.trans hnode⟩, by rw [hrimages]; rfl, hpending, fun h => absurd h hflag, .of_events hrevents⟩

/-- A DATA with FRESH set of node `i` in service: the node goes to PROBING with its loss policy applied, the payload dropped. -/
theorem Part.goodData_of_fresh (hin : (p.node i).state.inService = true) {f : Frame} (hfresh : f.flag 2 = true) :
    p.goodData i f = p.changeState i (fun r => { r.toProbing with lastGood := p.sched.cycle }) .probing := by
  rw [Part.goodData]
  exact (if_pos hin).trans (if_pos hfresh)

/-- Outside LIVE and SUSPECT a record that moves has neither DEGRADED nor FRESH. -/
theorem NodeRecord.moved_of_leaves (r : NodeRecord) (f : NodeRecord → NodeRecord) {new : NodeState} (h : new.inService = false) :
    r.moved f new = { f r with state := new, changeCount := (f r).changeCount + 1, degraded := false, fresh := false } :=
  if_neg (by simp [h])

/-! ## A miss (R12) -/

/-- A miss of node `i` in service, taken. -/
structure Part.MissTaken (r p : Part) (i : NodeIx) : Prop where
  missCount : (r.node i).missCount = (p.node i).missCount + 1
  missTotal : (r.node i).missTotal = (p.node i).missTotal + 1
  counter : ∀ c, r.counter c = p.counter c + if c = .nodeMisses then 1 else 0
  stays : (p.node i).missCount + 1 < (p.node i).applied.missLimit →
    (r.node i).state = .suspect ∧ r.images = p.images ∧ r.events = p.events
  lost : (p.node i).applied.missLimit ≤ (p.node i).missCount + 1 → (r.node i).state = .lost ∧
    (r.node i).countdown = loadedCountdown (p.node i).applied.reprobeDelay ∧
    lossApplied (p.node i).applied p.loader.settings.inBytes p.images.shadow r.images.shadow ∧
    r.events.queue = p.events.queue.filter (· != i) ∧ r.nodeEvents i = { p.nodeEvents i with latch := false }
  places : r.KeepsPlaces p

theorem Part.miss_missTaken (hin : (p.node i).state.inService = true) : (p.miss i).MissTaken p i := by
  let q := p.count .nodeMisses
  let f : NodeRecord → NodeRecord := fun r => { r with missCount := (p.node i).missCount + 1, missTotal := r.missTotal + 1 }
  have hcounted (c : Counter) : q.counter c = p.counter c + if c = .nodeMisses then 1 else 0 := by
    rw [Part.count_counter]
    by_cases h : Counter.nodeMisses = c
    · rw [if_pos h, if_pos h.symm]
    · rw [if_neg h, if_neg fun hc => h hc.symm]
      exact (BitVec.add_zero _).symm
  by_cases hlimit : (p.node i).applied.missLimit ≤ (p.node i).missCount + 1
  · let g : NodeRecord → NodeRecord := fun r => { f r with countdown := loadedCountdown r.applied.reprobeDelay }
    have hmiss : p.miss i = q.changeState i g .lost := by
      rw [Part.miss]
      exact (if_pos hin).trans (if_pos hlimit)
    have hnode : (q.changeState i g .lost).node i = (p.node i).moved g .lost := (q.changeState_node i i g .lost).trans (if_pos rfl)
    rw [NodeRecord.moved_of_leaves _ _ rfl] at hnode
    obtain ⟨hqueue, hevents⟩ := q.changeState_events_of_leaves i g .lost hin rfl
    obtain ⟨-, -, -, -, hfaults, -⟩ := q.changeState_keeps i g .lost
    rw [hmiss]
    refine ⟨by rw [hnode], by rw [hnode], fun c => ?_, fun h => absurd hlimit (by omega),
      fun _ => ⟨by rw [hnode], by rw [hnode], q.changeState_lossApplied i g rfl, hqueue, hevents⟩,
      (q.changeState_keepsEventPlaces i g .lost).trans ⟨rfl, rfl⟩⟩
    rw [Part.counter, hfaults]
    exact hcounted c
  · by_cases hlive : (p.node i).state = .live
    · have hmiss : p.miss i = q.changeState i f .suspect := by
        rw [Part.miss]
        exact (if_pos hin).trans ((if_neg hlimit).trans (if_pos hlive))
      have hnode : (q.changeState i f .suspect).node i = (p.node i).moved f .suspect :=
        (q.changeState_node i i f .suspect).trans (if_pos rfl)
      obtain ⟨_, _, hmoved⟩ := (p.node i).moved_fields f .suspect
      rw [hmoved] at hnode
      have hevents : (q.changeState i f .suspect).events = p.events := by
        rw [Part.changeState_events]
        simp [NodeState.inService, q]
      obtain ⟨-, -, -, -, hfaults, -⟩ := q.changeState_keeps i f .suspect
      rw [hmiss]
      refine ⟨by rw [hnode], by rw [hnode], fun c => ?_, fun _ => ⟨by rw [hnode], ?_, hevents⟩, fun h => absurd h hlimit,
        .of_events hevents⟩
      · rw [Part.counter, hfaults]
        exact hcounted c
      · exact (Part.changeState_images _ _ _ _).trans (if_pos rfl)
    · have hmiss : p.miss i = (q.modNode i f).queueStatus i false := by
        rw [Part.miss]
        exact (if_pos hin).trans ((if_neg hlimit).trans (if_neg hlive))
      have hnode : ((q.modNode i f).queueStatus i false).node i = f (p.node i) := by
        rw [Part.queueStatus_node, Part.modNode_node_self]
        rfl
      have hsuspect : (p.node i).state = .suspect := by
        cases hs : (p.node i).state <;> simp_all [NodeState.inService]
      rw [hmiss]
      refine ⟨by rw [hnode], by rw [hnode], fun c => ?_, fun _ => ⟨by rw [hnode]; exact hsuspect, by simp [q], by simp [q]⟩,
        fun h => absurd h hlimit, .of_events (by simp [q])⟩
      have hfaults : ((q.modNode i f).queueStatus i false).faults = q.faults := by simp
      rw [Part.counter, hfaults]
      exact hcounted c

theorem Part.MissTaken.events {r : Part} (h : r.MissTaken p i) : (r.nodeEvents i).ackOwed = (p.nodeEvents i).ackOwed ∧
    (r.nodeEvents i).accepted = (p.nodeEvents i).accepted := by
  by_cases hlimit : (p.node i).applied.missLimit ≤ (p.node i).missCount + 1
  · obtain ⟨-, -, -, -, hevents⟩ := h.lost hlimit
    rw [hevents]
    exact ⟨rfl, rfl⟩
  · obtain ⟨-, -, hevents⟩ := h.stays (by omega)
    rw [Part.nodeEvents, hevents]
    exact ⟨rfl, rfl⟩

/-! ## IDENT (R8) -/

/-- An IDENT of node `i` in PROBING, taken. -/
structure Part.IdentTaken (r p : Part) (i : NodeIx) (kind revision outLength inLength : Byte) : Prop where
  kindSeen : (r.node i).kindSeen = kind
  revisionSeen : (r.node i).revisionSeen = revision
  lastGood : (r.node i).lastGood = p.sched.cycle
  missCount : (r.node i).missCount = 0
  changeCount : (r.node i).changeCount = (p.node i).changeCount + 1
  misfit : (r.node i).misfit = misfitOf (p.node i).applied kind outLength.toNat inLength.toNat
  state : (r.node i).state = if (r.node i).misfit = .none then .live else .misfit
  fits : (r.node i).misfit = .none → r.images = p.images
  loss : (r.node i).misfit ≠ .none → lossApplied (p.node i).applied p.loader.settings.inBytes p.images.shadow r.images.shadow
  places : r.KeepsPlaces p

theorem Part.goodIdent_identTaken (hprobing : (p.node i).state = .probing) {f : Frame} {kind revision outLength inLength : Byte}
    (hf : f.payload = [kind, revision, outLength, inLength]) : (p.goodIdent i f).IdentTaken p i kind revision outLength inLength := by
  let reason := misfitOf (p.node i).applied kind outLength.toNat inLength.toNat
  let new : NodeState := if reason = .none then .live else .misfit
  let g : NodeRecord → NodeRecord := fun r =>
    { r with kindSeen := kind, revisionSeen := revision, misfit := reason, lastGood := p.sched.cycle, missCount := 0 }
  have hident : p.goodIdent i f = p.changeState i g new := by
    rw [Part.goodIdent]
    refine (if_pos hprobing).trans ?_
    rw [hf]
    rfl
  have hnode : (p.changeState i g new).node i = (p.node i).moved g new := (p.changeState_node i i g new).trans (if_pos rfl)
  obtain ⟨_, _, hmoved⟩ := (p.node i).moved_fields g new
  rw [hmoved] at hnode
  have hmisfit : ((p.changeState i g new).node i).misfit = reason := by rw [hnode]
  rw [hident]
  refine ⟨by rw [hnode], by rw [hnode], by rw [hnode], by rw [hnode], by rw [hnode], hmisfit, by rw [hmisfit, hnode], fun h => ?_,
    fun h => ?_, p.changeState_keepsEventPlaces i g new⟩
  · rw [hmisfit] at h
    rw [Part.changeState_images, if_pos (by rw [show new = .live from if_pos h]; rfl)]
  · rw [hmisfit] at h
    exact p.changeState_lossApplied i g (by rw [show new = .misfit from if_neg h]; rfl)

end
end Sys2Proof.Machine
end

section
/-! PROOF. GUARD_END of a POLL or a PROBE in RUN (R8, R10 to R13, R34, R59). -/

namespace Sys2Proof.Machine

/-! ## The next entry of the poll list -/

section
variable (p : Part)

theorem Part.givePoll_marks (i j : NodeIx) (ack : Option Byte) (slice : List Byte) : (p.givePoll i ack slice).marks j = p.marks j := rfl

theorem Part.pollAttempt_marks (i j : NodeIx) : (p.pollAttempt i).marks j = p.marks j := by
  unfold Part.pollAttempt
  dsimp only
  (repeat' split) <;> rfl

theorem Part.pollNext_marks (j : NodeIx) : p.pollNext.marks j = p.marks j := by
  unfold Part.pollNext
  split
  · exact p.windowPhase_stands.marks j
  · exact Part.pollAttempt_marks _ _ j
  · rfl

theorem Part.pollNext_node_of_other {i : NodeIx} (h : p.sched.pollList.head? ≠ some (.poll i)) : p.pollNext.node i = p.node i := by
  unfold Part.pollNext
  split
  · exact p.windowPhase_stands.node i
  next j rest hlist =>
    have hne : j ≠ i := fun hji => h (by rw [hlist, hji]; rfl)
    let q : Part := p.modSched fun s => { s with pollList := rest, attempts := (p.node j).applied.retries }
    let q' : Part := q.modNode j fun r => { r with pollTotal := r.pollTotal + 1 }
    let r : Part := { q' with frames := { q'.frames with toggles := tabModify q'.frames.toggles j not } }
    obtain ⟨-, -, htable, -⟩ := Part.pollAttempt_keepsChoice r j
    change (r.pollAttempt j).node i = _
    rw [Part.node, htable]
    change q'.node i = _
    rw [Part.modNode_node, if_neg hne]
    rfl
  · rfl

end

/-- What of an outcome stands behind the next entry of the poll list or the optional phases. -/
structure Part.PollEnded (t r : Part) : Prop where
  node : ∀ i, t.node i = { r.node i with pollTotal := (t.node i).pollTotal }
  shadow : t.images.shadow = r.images.shadow
  marks : ∀ i, t.marks i = r.marks i
  counter : ∀ c ∈ [Counter.nodeMisses, .pollAttemptFailures], t.counter c = r.counter c

section
variable {s : State} {f : Part → Part} {r : Part} {dt : Nat}

theorem State.act_pollNext (hf : f s.part = r.pollNext) (hrun : r.ladder.state = .run) : (s.act f).part.PollEnded r := by
  have hladder : r.pollNext.ladder.state = .run := by rw [Part.pollNext_ladder, hrun]
  have hq := State.act_workSettled hf (Part.startupWaits_of_notStarting (by rw [hladder]; nofun))
  obtain ⟨-, -, hnode, -, -, -, -, -, -, -, -, -, -, hshadow, -, -, -, -, -, -, -, -, -, -, -, hcounters⟩ := r.pollNext_keepsPoll
  refine ⟨fun i => ?_, by rw [hq.images, hshadow], fun i => by rw [hq.marks, r.pollNext_marks], fun c hc => ?_⟩
  · rw [hq.node]
    exact hnode i
  · rw [State.act_counters, hf]
    simp only [List.mem_cons, List.not_mem_nil, or_false] at hc
    rcases hc with rfl | rfl
    · exact hcounters _ (by decide) (by decide) (by decide)
    · exact hcounters _ (by decide) (by decide) (by decide)

/-- Behind the last entry of the poll list the optional phases begin. -/
theorem State.act_pollNext_phases (hf : f s.part = r.pollNext) (hrun : s.part.ladder.state = .run)
    (hkept : r.KeepsOffNodes (s.part.returned dt)) (hplaces : r.KeepsPlaces s.part) (hempty : s.part.sched.pollList = []) :
    (s.part.behind (s.act f).part s.part.events.claimed).optionalPhasesBegin (s.act f).part dt := by
  obtain ⟨hladder, hsched, hwindows, hloader, -⟩ := hkept
  have hlist : r.sched.pollList = [] := (congrArg Scheduler.pollList hsched).trans hempty
  rw [Part.pollNext_nil hlist] at hf
  have hphases := State.act_optionalPhases (dt := dt) hf ((congrArg Ladder.state hladder).trans hrun)
    ⟨congrArg Loader.settings hloader, congrArg Scheduler.timer hsched, congrArg Scheduler.overrun hsched,
      congrArg Scheduler.interval hsched, congrArg Scheduler.cycle hsched, hplaces.2⟩ hwindows
  rwa [hplaces.1] at hphases

end

/-! ## The outcomes -/

section
variable {s : State} {i : NodeIx} {ack : Option Byte} {f : Frame} {a : Attempt}

theorem NodeState.inService_of {n : NodeState} (h : n = .live ∨ n = .suspect) : n.inService = true := (NodeState.inService_iff n).mpr h

/-- GUARD_END of a POLL of a node in service whose reply is GOOD. -/
theorem exec_pollGood (hrun : s.part.ladder.state = .run) (hguard : s.part.frames.state = .guarding)
    (hex : s.part.frames.exchange = some (.poll i ack)) (hin : (s.part.node i).state = .live ∨ (s.part.node i).state = .suspect)
    (hout : s.part.frames.outcome = some .good) (hrx : s.part.frames.rx = some f) (dt : Nat) :
    ∃ t, exec (.guardEnd dt) s = .next t ∧
      (t.part.node i).lastGood = s.part.sched.cycle ∧ (t.part.node i).missCount = 0 ∧
      (t.part.node i).missTotal = (s.part.node i).missTotal ∧
      (t.part.nodeEvents i).ackOwed =
        ((s.part.nodeEvents i).ackOwed && decide (ack ≠ some (s.part.nodeEvents i).accepted)) ∧
      (s.part.sched.pollList = [] → (s.part.behind t.part s.part.events.claimed).optionalPhasesBegin t.part dt) ∧
      (f.flag 2 = false →
        (t.part.node i).state = .live ∧ (t.part.node i).fresh = true ∧ (t.part.node i).degraded = f.flag 1 ∧
        t.part.images.shadow = s.part.images.shadow.writeBytes (s.part.node i).applied.inOffset f.payload ∧
        (f.flag 0 = true → (s.part.node i).applied.eventsEnabled = true → (t.part.nodeEvents i).latch = true)) ∧
      (f.flag 2 = true →
        (t.part.node i).state = .probing ∧ (t.part.node i).fresh = false ∧ (t.part.node i).degraded = false ∧
        (t.part.node i).countdown = none ∧ (t.part.node i).changeCount = (s.part.node i).changeCount + 1 ∧
        (t.part.nodeEvents i).latch = false ∧
        lossApplied (s.part.node i).applied s.part.loader.settings.inBytes s.part.images.shadow t.part.images.shadow) := by
  obtain ⟨g, hexec, hg⟩ := exec_guardEnd_of_run hrun hguard hex hout dt
  rw [if_pos rfl, hrx] at hg
  let p := s.part.returned dt
  let q := p.confirmAck i ack
  let r := q.goodData i f
  have hdone : g s.part = r.pollNext := hg
  have hqrecords : q.table.records = p.table.records := p.confirmAck_records i ack
  have hqnode : q.node i = s.part.node i := by
    rw [Part.node, hqrecords]
    rfl
  obtain ⟨-, -, -, hqimages, -, -, -⟩ : q.KeepsOffEvents p := p.confirmAck_keepsOffEvents i ack
  obtain ⟨-, -, hqsched, -, -, hqloader, -, -⟩ : q.KeepsUnits p := p.confirmAck_keepsUnits i ack
  have hqin : (q.node i).state.inService = true := by
    rw [hqnode]
    exact NodeState.inService_of hin
  have hcycle : q.sched.cycle = s.part.sched.cycle := (congrArg Scheduler.cycle hqsched).trans rfl
  have hkept : r.KeepsOffNodes p := by
    have h : r.KeepsOffNodes q := q.goodData_keepsOffNodes i f
    exact h.trans (by simp [q, Part.KeepsOffNodes])
  have howed : (q.nodeEvents i).ackOwed = _ := congrArg NodeEvents.ackOwed (p.confirmAck_nodeEvents i ack)
  have hended := State.act_pollNext hdone ((congrArg Ladder.state hkept.1).trans hrun)
  refine ⟨_, hexec, ?_⟩
  have hnode := hended.node i
  have hmarks : ((s.act g).part.nodeEvents i).ackOwed = (r.nodeEvents i).ackOwed ∧
      ((s.act g).part.nodeEvents i).latch = (r.nodeEvents i).latch := by
    have h := hended.marks i
    simp only [Part.marks, NodeEvents.mk.injEq] at h
    exact ⟨h.2.2.2.2.1, h.1⟩
  have hphases (hplaces : r.KeepsPlaces q) := State.act_pollNext_phases (dt := dt) hdone hrun hkept
    (hplaces.trans ((p.confirmAck_keepsPlaces i ack).trans ⟨rfl, rfl⟩))
  by_cases hfresh : f.flag 2 = true
  · have hprobes : r = q.changeState i (fun n => { n.toProbing with lastGood := q.sched.cycle }) .probing :=
      Part.goodData_of_fresh hqin hfresh
    have hrnode : r.node i = (q.node i).moved (fun n => { n.toProbing with lastGood := q.sched.cycle }) .probing := by
      rw [hprobes]
      exact (q.changeState_node i i _ _).trans (if_pos rfl)
    rw [NodeRecord.moved_of_leaves _ _ rfl, hqnode, hcycle] at hrnode
    rw [hrnode] at hnode
    have hevents := (q.changeState_events_of_leaves i (fun n => { n.toProbing with lastGood := q.sched.cycle }) .probing hqin rfl).2
    rw [← hprobes] at hevents
    have hloss := q.changeState_lossApplied i (fun n => { n.toProbing with lastGood := q.sched.cycle }) (new := .probing) rfl
    rw [← hprobes, hqnode, hqimages, show q.loader = p.loader from hqloader] at hloss
    refine ⟨by rw [hnode], by rw [hnode]; rfl, by rw [hnode]; rfl, ?_, ?_, fun h => absurd hfresh (by rw [h]; decide), fun _ =>
      ⟨by rw [hnode], by rw [hnode], by rw [hnode], by rw [hnode]; rfl, by rw [hnode]; rfl, ?_, by rw [hended.shadow]; exact hloss⟩⟩
    · rw [hmarks.1, hevents]
      exact howed
    · refine hphases ?_
      rw [hprobes]
      exact q.changeState_keepsEventPlaces i _ _
    · rw [hmarks.2, hevents]
  · have htaken : r.DataTaken q i f := Part.goodData_dataTaken hqin (Bool.eq_false_iff.mpr hfresh)
    obtain ⟨changes, hrnode⟩ := htaken.node
    rw [hqnode, hcycle] at hrnode
    rw [hrnode] at hnode
    have hshadow := htaken.shadow
    rw [hqnode, hqimages] at hshadow
    refine ⟨by rw [hnode], by rw [hnode], by rw [hnode], ?_, hphases htaken.places, fun _ => ⟨by rw [hnode], by rw [hnode], by rw [hnode],
      by rw [hended.shadow]; exact hshadow, fun hflag henabled => ?_⟩, fun h => absurd h hfresh⟩
    · rw [hmarks.1, htaken.ackOwed]
      exact howed
    · rw [hmarks.2]
      exact htaken.latch hflag (by rw [hqnode]; exact henabled)

/-- GUARD_END of a POLL's last attempt that failed. -/
theorem exec_pollMissed (hrun : s.part.ladder.state = .run) (hguard : s.part.frames.state = .guarding)
    (hex : s.part.frames.exchange = some (.poll i ack)) (hin : (s.part.node i).state = .live ∨ (s.part.node i).state = .suspect)
    (hout : s.part.frames.outcome = some a) (ha : a ≠ .good) (hlast : s.part.sched.attempts = 0) (dt : Nat) :
    ∃ t, exec (.guardEnd dt) s = .next t ∧
      (t.part.node i).missCount = (s.part.node i).missCount + 1 ∧
      (t.part.node i).missTotal = (s.part.node i).missTotal + 1 ∧
      t.part.counter .nodeMisses = s.part.counter .nodeMisses + 1 ∧
      t.part.counter .pollAttemptFailures = s.part.counter .pollAttemptFailures + 1 ∧
      (t.part.nodeEvents i).ackOwed = (s.part.nodeEvents i).ackOwed ∧
      (s.part.sched.pollList = [] → (s.part.behind t.part s.part.events.claimed).optionalPhasesBegin t.part dt) ∧
      ((s.part.node i).missCount + 1 < (s.part.node i).applied.missLimit → (t.part.node i).state = .suspect ∧
        t.part.images.shadow = s.part.images.shadow) ∧
      ((s.part.node i).applied.missLimit ≤ (s.part.node i).missCount + 1 → (t.part.node i).state = .lost ∧
        (t.part.node i).countdown =
          (if (s.part.node i).applied.reprobeDelay = 0 then none else some (s.part.node i).applied.reprobeDelay) ∧
        lossApplied (s.part.node i).applied s.part.loader.settings.inBytes s.part.images.shadow t.part.images.shadow) := by
  obtain ⟨g, hexec, hg⟩ := exec_guardEnd_of_run hrun hguard hex hout dt
  rw [if_neg ha] at hg
  let q := (s.part.returned dt).count .pollAttemptFailures
  let r := q.miss i
  have hdone : g s.part = r.pollNext := hg.trans (if_pos hlast)
  have hkept : r.KeepsOffNodes q := q.miss_keepsOffNodes i
  have hmissed : r.MissTaken q i := Part.miss_missTaken (p := q) (NodeState.inService_of hin)
  have hended := State.act_pollNext hdone ((congrArg Ladder.state hkept.1).trans hrun)
  have hnode := hended.node i
  refine ⟨_, hexec, (congrArg NodeRecord.missCount hnode).trans hmissed.missCount,
    (congrArg NodeRecord.missTotal hnode).trans hmissed.missTotal, ?_, ?_, ?_,
    State.act_pollNext_phases (dt := dt) hdone hrun hkept hmissed.places, fun hbelow => ?_, fun hlimit => ?_⟩
  · rw [hended.counter _ (by simp), hmissed.counter, Part.count_counter]
    rfl
  · rw [hended.counter _ (by simp), hmissed.counter, Part.count_counter]
    exact BitVec.add_zero _
  · have h := hended.marks i
    simp only [Part.marks, NodeEvents.mk.injEq] at h
    rw [h.2.2.2.2.1, hmissed.events.1]
    rfl
  · obtain ⟨hstate, himages, -⟩ := hmissed.stays hbelow
    exact ⟨(congrArg NodeRecord.state hnode).trans hstate, by rw [hended.shadow, himages]; rfl⟩
  · obtain ⟨hstate, hcountdown, hloss, -⟩ := hmissed.lost hlimit
    exact ⟨(congrArg NodeRecord.state hnode).trans hstate, (congrArg NodeRecord.countdown hnode).trans hcountdown,
      by rw [hended.shadow]; exact hloss⟩

/-- GUARD_END of a POLL attempt that failed with attempts left: the next attempt. -/
theorem exec_pollRetried (hrun : s.part.ladder.state = .run) (hguard : s.part.frames.state = .guarding)
    (hex : s.part.frames.exchange = some (.poll i ack)) (hout : s.part.frames.outcome = some a) (ha : a ≠ .good)
    (hleft : 0 < s.part.sched.attempts) (dt : Nat) :
    ∃ t, exec (.guardEnd dt) s = .next t ∧ t.part.sched.attempts = s.part.sched.attempts - 1 ∧
      t.part.table.records = s.part.table.records ∧ t.part.frames.toggles = s.part.frames.toggles ∧
      t.part.counter .pollAttemptFailures = s.part.counter .pollAttemptFailures + 1 := by
  obtain ⟨g, hexec, hg⟩ := exec_guardEnd_of_run hrun hguard hex hout dt
  rw [if_neg ha] at hg
  let q := (s.part.returned dt).count .pollAttemptFailures
  let r := q.modSched fun c => { c with attempts := c.attempts - 1 }
  have hdone : g s.part = r.pollAttempt i := hg.trans (if_neg (Nat.ne_of_gt hleft))
  obtain ⟨hladder, -, htable, htoggles, -, -, -, -, -, -, -, -, -, -, -, -, -, -, -, -, -, -, -, -, -, -, -, -, -, -, hcounters⟩ :=
    r.pollAttempt_keepsChoice i
  have hstate : (r.pollAttempt i).ladder.state = .run := (congrArg Ladder.state hladder).trans hrun
  have hsettled := State.act_settled hdone (by rw [hstate]; nofun) (by rw [hstate]; nofun)
  have hshows := State.act_shows hdone (by rw [hstate]; nofun) (by rw [hstate]; nofun) (by rw [hstate]; rfl)
  have hattempts : (r.pollAttempt i).sched.attempts = r.sched.attempts := by
    unfold Part.pollAttempt
    dsimp only
    (repeat' split) <;> rfl
  refine ⟨_, hexec, hshows.attempts.trans hattempts, ?_, ?_, ?_⟩
  · rw [hsettled.records, htable]
    rfl
  · rw [hsettled.frames, htoggles]
    rfl
  · rw [hsettled.counter]
    have hkept : (r.pollAttempt i).counter .pollAttemptFailures = q.counter .pollAttemptFailures :=
      hcounters _ (by decide) (by decide) (by decide)
    exact hkept.trans ((Part.count_counter _ _ _).trans (if_pos rfl))

/-- GUARD_END of a PROBE whose reply is GOOD. -/
theorem exec_probeGood (hrun : s.part.ladder.state = .run) (hguard : s.part.frames.state = .guarding)
    (hex : s.part.frames.exchange = some (.probe i)) (hprobing : (s.part.node i).state = .probing)
    (hout : s.part.frames.outcome = some .good) (hrx : s.part.frames.rx = some f) {kind revision outLength inLength : Byte}
    (hf : f.payload = [kind, revision, outLength, inLength]) (dt : Nat) :
    ∃ (t : State) (r : Part), exec (.guardEnd dt) s = .next t ∧ r.IdentTaken s.part i kind revision outLength inLength ∧
      t.part.node i = { r.node i with pollTotal := (t.part.node i).pollTotal } ∧ t.part.images.shadow = r.images.shadow ∧
      (s.part.sched.pollList = [] → (s.part.behind t.part s.part.events.claimed).optionalPhasesBegin t.part dt) := by
  obtain ⟨g, hexec, hg⟩ := exec_guardEnd_of_run hrun hguard hex hout dt
  rw [if_pos rfl, hrx] at hg
  let p := s.part.returned dt
  let r := p.goodIdent i f
  have hdone : g s.part = r.pollNext := hg
  have hkept : r.KeepsOffNodes p := p.goodIdent_keepsOffNodes i f
  have htaken : r.IdentTaken p i kind revision outLength inLength := Part.goodIdent_identTaken (p := p) hprobing hf
  have hended := State.act_pollNext hdone ((congrArg Ladder.state hkept.1).trans hrun)
  obtain ⟨hkind, hrevision, hgood, hcount, hchanges, hmisfit, hstate, hfits, hloss, hplaces⟩ := htaken
  exact ⟨_, r, hexec, ⟨hkind, hrevision, hgood, hcount, hchanges, hmisfit, hstate, hfits, hloss, hplaces⟩, hended.node i, hended.shadow,
    State.act_pollNext_phases (dt := dt) hdone hrun hkept hplaces⟩

/-- GUARD_END of a PROBE that failed: the next entry of the poll list, or the optional phases. -/
theorem exec_probeFailed (hrun : s.part.ladder.state = .run) (hguard : s.part.frames.state = .guarding)
    (hex : s.part.frames.exchange = some (.probe i)) (hout : s.part.frames.outcome = some a) (ha : a ≠ .good) (dt : Nat) :
    ∃ t, exec (.guardEnd dt) s = .next t ∧
      t.part.node i = { s.part.node i with pollTotal := (t.part.node i).pollTotal } ∧
      (s.part.sched.pollList.head? ≠ some (.poll i) → t.part.node i = s.part.node i) ∧
      (s.part.sched.pollList = [] → s.part.optionalPhasesBegin t.part dt) := by
  obtain ⟨g, hexec, hg⟩ := exec_guardEnd_of_run hrun hguard hex hout dt
  rw [if_neg ha] at hg
  let p := s.part.returned dt
  have hdone : g s.part = p.pollNext := hg
  refine ⟨_, hexec, (State.act_pollNext hdone hrun).node i, fun hhead => ?_, fun hempty => ?_⟩
  · rw [State.act_node, hdone]
    exact p.pollNext_node_of_other hhead
  · have hladder : p.pollNext.ladder.state = .run := by
      rw [Part.pollNext_ladder]
      exact hrun
    have hshows := State.act_shows hdone (by rw [hladder]; nofun) (by rw [hladder]; nofun) (by rw [hladder]; rfl)
    have hbegins : p.optionalPhasesBegin p.pollNext 0 := by
      rw [Part.pollNext_nil (p := p) hempty]
      exact p.windowPhase_begins
    exact (Part.passTime_optionalPhasesBegin _ _ _).mp (hbegins.shown hshows)

end

/-- Settles O51: one lemma per outcome of a POLL (`exec_pollGood`, `exec_pollMissed`, `exec_pollRetried`) and of a PROBE
(`exec_probeGood`, `exec_probeFailed`). -/
theorem pollOutcomeTaken : Obligations.PollOutcomeTaken := by
  unfold Obligations.PollOutcomeTaken
  dsimp only
  refine ⟨fun s i ack dt hrun hguard hex hin => ⟨fun f hout hrx => exec_pollGood hrun hguard hex hin hout hrx dt,
    fun a hout ha hlast => exec_pollMissed hrun hguard hex hin hout ha hlast dt,
    fun a hout ha hleft => exec_pollRetried hrun hguard hex hout ha hleft dt⟩,
    fun s i dt hrun hguard hex hprobing => ⟨fun f kind revision outLength inLength hout hrx hf => ?_,
      fun a hout ha => exec_probeFailed hrun hguard hex hout ha dt⟩⟩
  obtain ⟨t, r, hexec, hr, hnode, hshadow, hphases⟩ := exec_probeGood hrun hguard hex hprobing hout hrx hf dt
  have hmisfit : (t.part.node i).misfit = (r.node i).misfit := (congrArg NodeRecord.misfit hnode).trans rfl
  refine ⟨t, hexec, (congrArg NodeRecord.kindSeen hnode).trans hr.kindSeen,
    (congrArg NodeRecord.revisionSeen hnode).trans hr.revisionSeen,
    (congrArg NodeRecord.lastGood hnode).trans hr.lastGood, (congrArg NodeRecord.missCount hnode).trans hr.missCount,
    (congrArg NodeRecord.changeCount hnode).trans hr.changeCount, hmisfit.trans hr.misfit, ?_, hphases, fun h => ?_, fun h => ?_⟩
  · rw [hmisfit]
    exact (congrArg NodeRecord.state hnode).trans hr.state
  · rw [hshadow, hr.fits (hmisfit.symm.trans h)]
  · rw [hshadow]
    exact hr.loss (hmisfit ▸ h)

end Sys2Proof.Machine
end

section
/-! SUPPORT. The event list (R91, R102 to R107): places and notes as they stand after an event, an append published or given up, and the
events-taken word read. -/

namespace Sys2Proof.Machine

/-! ## Claimed places after an event -/

section
variable (p : Part)

theorem Part.settleMost_claimed : p.settleMost.events.claimed = p.events.claimed := by
  have hopen : p.settleNodeOpen.events = p.events := by
    unfold Part.settleNodeOpen
    dsimp only
    (repeat' split) <;> simp
  have hstartup (q : Part) : q.settleStartup.events = q.events := by
    unfold Part.settleStartup
    (repeat' split) <;> simp [Part.startupFail, Part.startupRead]
  have hparcel (q : Part) : q.settleParcelOpen.events = q.events := by
    unfold Part.settleParcelOpen Part.openScan Part.openPatience Part.openRewrites
    (repeat' split) <;> simp
  rw [Part.settleMost, Part.startAppend_claimed]
  simp [hparcel, hstartup, hopen]

theorem Part.settleMost_leads : SettleLeads p.ladder.state p.settleMost.ladder.state := by
  have hbefore : p.settleNodeOpen.settleCheck.ladder = p.ladder := by simp
  have hbetween : p.settleMost.ladder = p.settleNodeOpen.settleCheck.settleStartup.ladder := by simp [Part.settleMost]
  have hstartup := p.settleNodeOpen.settleCheck.settleStartup_leads
  rwa [hbefore, ← hbetween] at hstartup

theorem Part.settle_claimed_of_noService (h : p.ladder.state ≠ .heldService) : p.settle.events.claimed = p.events.claimed := by
  have hnone : p.settleMost.ladder.state ≠ .heldService := by
    intro hservice
    rcases p.settleMost_leads with hsame | hother | hother
    · exact h (hsame.symm.trans hservice)
    · exact nomatch hservice.symm.trans (congrArg Prod.snd hother)
    · exact nomatch hservice.symm.trans (congrArg Prod.snd hother)
  rw [Part.settle_eq_settleMost, Part.settleService, if_neg fun hs => hnone hs.1, p.settleMost_claimed]

/-- Under the fault hold no node is named as things settle. -/
theorem Part.settle_claimed_of_faultHold (h : p.ladder.faultHold = true) : p.settle.events.claimed = p.events.claimed := by
  have hkept : p.settleMost.Keeps p := by simp [Part.settleMost, Part.Keeps]
  obtain ⟨-, -, -, -, -, -, -, -, -, -, -, -, -, -, -, hhold, -⟩ := hkept
  rw [Part.settle_eq_settleMost, Part.settleService]
  split
  · rw [if_pos (by rw [hhold, h, Bool.or_true]), Part.endService_events, p.settleMost_claimed]
  · exact p.settleMost_claimed

end

section
variable {s : State} {f : Part → Part} {q : Part}

theorem State.act_marks (hf : f s.part = q) (i : NodeIx) : (s.act f).part.marks i = q.marks i := by
  have h := q.settle_keepsEvents i
  rw [Part.marks, Part.nodeEvents, State.act_events, hf]
  exact h

/-- What of the event list stands after an event. -/
theorem State.act_list (hf : f s.part = q) : (s.act f).part.events.queue = q.events.queue ∧
    (s.act f).part.events.written = q.events.written ∧ (s.act f).part.events.taken = q.events.taken ∧
    (s.act f).part.events.takenInvalid = q.events.takenInvalid ∧ (s.act f).part.events.appendStopped = q.events.appendStopped ∧
    (s.act f).part.events.appends = q.events.appends := by
  obtain ⟨-, -, -, -, -, -, -, -, -, -, -, -, -, -, -, -, -, -, -, -, -, -, -, -, -, hqueue, hwritten, htaken, hinvalid, hstopped,
    happends, -⟩ := s.act_keeps f
  rw [hf] at hqueue hwritten htaken hinvalid hstopped happends
  exact ⟨hqueue, hwritten, htaken, hinvalid, hstopped, happends⟩

end

theorem NodeEvents.of_marks {p t : Part} {i : NodeIx} (h : t.marks i = p.marks i) :
    (t.nodeEvents i).latch = (p.nodeEvents i).latch ∧ (t.nodeEvents i).accepted = (p.nodeEvents i).accepted ∧
      (t.nodeEvents i).valid = (p.nodeEvents i).valid ∧ (t.nodeEvents i).ackOwed = (p.nodeEvents i).ackOwed ∧
      (t.nodeEvents i).intake = (p.nodeEvents i).intake := by
  simp only [Part.marks, NodeEvents.mk.injEq] at h
  obtain ⟨hlatch, -, haccepted, hvalid, howed, -, hintake⟩ := h
  exact ⟨hlatch, haccepted, hvalid, howed, hintake⟩

/-! ## What the appends' own work leaves (R104, R107) -/

/-- An append that begins, a note asked for or a status record queued changes of the event unit only the appends, their places and what
is under way. -/
structure Part.AppendsOn (q p : Part) : Prop where
  events : q.events = { p.events with claimed := q.events.claimed, noteUnderWay := q.events.noteUnderWay, appends := q.events.appends,
                                      appending := q.events.appending, blockedBy := q.events.blockedBy }
  faults : q.faults = p.faults
  windows : q.windows = p.windows
  ladder : q.ladder = p.ladder

theorem Part.AppendsOn.trans {p q r : Part} (h : r.AppendsOn q) (k : q.AppendsOn p) : r.AppendsOn p where
  events := by rw [h.events, k.events]
  faults := h.faults.trans k.faults
  windows := h.windows.trans k.windows
  ladder := h.ladder.trans k.ladder

theorem Part.AppendsOn.nodeEvents {p q : Part} (h : q.AppendsOn p) (i : NodeIx) : q.nodeEvents i = p.nodeEvents i := by
  rw [Part.nodeEvents, h.events]
  rfl

section
variable (p : Part)

theorem Part.startAppend_appendsOn : p.startAppend.AppendsOn p := by
  unfold Part.startAppend
  split <;> exact ⟨rfl, rfl, rfl, rfl⟩

theorem Part.enqueueAppend_appendsOn (what : AppendFor) (record : List Word) : (p.enqueueAppend what record).AppendsOn p :=
  (Part.startAppend_appendsOn _).trans ⟨rfl, rfl, rfl, rfl⟩

theorem Part.nextAppend_appendsOn : p.nextAppend.AppendsOn p := (Part.startAppend_appendsOn _).trans ⟨rfl, rfl, rfl, rfl⟩

theorem Part.offerNote_appendsOn : p.offerNote.AppendsOn p := by
  unfold Part.offerNote
  split
  · split
    · exact (Part.enqueueAppend_appendsOn _ _ _).trans ⟨rfl, rfl, rfl, rfl⟩
    · exact ⟨rfl, rfl, rfl, rfl⟩
  · exact ⟨rfl, rfl, rfl, rfl⟩

theorem Part.queueStatus_appendsOn (i : NodeIx) (cause : Bool) : (p.queueStatus i cause).AppendsOn p := by
  have hevents : (p.queueStatus i cause).events = p.events := p.queueStatus_events i cause
  exact ⟨by rw [hevents], by simp, by simp, by simp⟩

theorem Part.startAppend_appends : p.startAppend.events.appends = p.events.appends := by
  unfold Part.startAppend
  split <;> rfl

theorem Part.nextAppend_list : p.nextAppend.events.appends = p.events.appends.drop 1 ∧ p.nextAppend.events.claimed = p.events.claimed ∧
    p.nextAppend.events.noteUnderWay = p.events.noteUnderWay :=
  ⟨(Part.startAppend_appends _).trans rfl, (Part.startAppend_claimed _).trans rfl, (Part.startAppend_keepsNote _).trans rfl⟩

/-- The append of a note for an entry of the stray set (R91, Table 11-7). -/
def Part.noteFor (e : Stray) : Append :=
  { what := .note e.address e.count,
    record := eventRecord 3 e.address 0 (BitVec.ofNat 16 e.count) p.sched.cycle [e.origin.code, e.kind],
    detached := false, void := false }

variable {p}

theorem Part.offerNote_of_offered (hnote : p.events.noteUnderWay = false) (hplace : p.events.hasPlace)
    (hworks : p.ladder.state.worksMemory = true) {e : Stray} (he : p.windows.strays.find? (·.pendingNote) = some e) :
    p.offerNote.events.noteUnderWay = true ∧ p.offerNote.events.appends = p.events.appends ++ [p.noteFor e] ∧
      p.offerNote.events.claimed = p.events.claimed + 1 := by
  have hoffer : (!p.events.noteUnderWay && decide (0 < p.events.freePlaces) && p.ladder.state.worksMemory) = true := by
    rw [hnote, hworks, decide_eq_true ((EventUnit.freePlaces_pos _).mpr hplace)]
    rfl
  rw [Part.offerNote, if_pos hoffer, he]
  exact ⟨Part.startAppend_keepsNote _, Part.startAppend_appends _, Part.startAppend_claimed _⟩

theorem Part.offerNote_of_none (h : ¬ (p.ladder.state.worksMemory = true ∧ p.events.hasPlace) ∨
    p.windows.strays.find? (·.pendingNote) = none) : p.offerNote = p := by
  unfold Part.offerNote
  split
  next hoffer =>
    simp only [Bool.and_eq_true, decide_eq_true_eq] at hoffer
    rw [h.resolve_left fun hnot => hnot ⟨hoffer.2, (EventUnit.freePlaces_pos _).mp hoffer.1.2⟩]
  · rfl

end

/-! ## An append published (R104, steps 3 and 4) -/

/-- The part as the events-written word's write has completed, before the record's owner is told. -/
def Part.wordPublished (p : Part) : Part :=
  ((({ p with events := { p.events with written := p.events.written + 1 } } : Part).count .eventsAppended).setCause .event).releasePlace

section
variable {p : Part} {a : Append} {i : NodeIx} {seq : Byte} {more : Bool}

/-- The part as an event's sequence number has been accepted and its intake is over. -/
def Part.accepts (p : Part) (i : NodeIx) (seq : Byte) : Part :=
  (p.modEvents i fun e => { e with intake := false }).modEvents i fun e => { e with accepted := seq, valid := true, ackOwed := true }

theorem Part.accepts_nodeEvents (p : Part) (i : NodeIx) (seq : Byte) : (p.accepts i seq).nodeEvents i =
    { p.nodeEvents i with intake := false, accepted := seq, valid := true, ackOwed := true } := by
  rw [Part.accepts, Part.modEvents_nodeEvents, if_pos rfl, Part.modEvents_nodeEvents, if_pos rfl]

theorem Part.eventAccepted_nodeEvents (hvoid : a.void = false) : ((p.eventAccepted a i seq more).nodeEvents i) =
    { p.nodeEvents i with
      intake := false, accepted := seq, valid := true, ackOwed := true,
      latch := if a.detached || more then (p.nodeEvents i).latch else false } := by
  have htail (q : Part) : (q.toTail i).nodeEvents i = q.nodeEvents i := by
    unfold Part.toTail
    split <;> rfl
  let q := p.accepts i seq
  have hq : q.nodeEvents i = _ := p.accepts_nodeEvents i seq
  have haccepted : p.eventAccepted a i seq more = if a.detached then q else if more then q.toTail i else q.unqueue i :=
    if_neg (by rw [hvoid]; decide)
  rw [haccepted]
  by_cases hdetached : a.detached = true
  · rw [if_pos hdetached, hdetached, hq]
    rfl
  · rw [if_neg hdetached, Bool.eq_false_iff.mpr hdetached]
    cases more with
    | true =>
      rw [if_pos rfl, htail, hq]
      rfl
    | false =>
      rw [if_neg (by decide)]
      refine ((q.modEvents_nodeEvents i i _).trans (if_pos rfl)).trans ?_
      rw [hq]
      rfl

theorem Part.eventAccepted_queue (hvoid : a.void = false) (hdetached : a.detached = false) :
    (p.eventAccepted a i seq more).events.queue =
      if more then if (p.nodeEvents i).latch then p.events.queue.filter (· != i) ++ [i] else p.events.queue
      else p.events.queue.filter (· != i) := by
  let q := p.accepts i seq
  have hlatch : (q.nodeEvents i).latch = (p.nodeEvents i).latch :=
    (congrArg NodeEvents.latch (p.accepts_nodeEvents i seq)).trans rfl
  have haccepted : p.eventAccepted a i seq more = if more then q.toTail i else q.unqueue i :=
    (if_neg (by rw [hvoid]; decide)).trans (if_neg (by rw [hdetached]; decide))
  rw [haccepted]
  cases more with
  | true =>
    rw [if_pos rfl, if_pos rfl, ← hlatch, Part.toTail]
    split <;> rfl
  | false => rfl

theorem Part.eventAccepted_keeps (a : Append) (i : NodeIx) (seq : Byte) (more : Bool) :
    (p.eventAccepted a i seq more).faults = p.faults ∧ (p.eventAccepted a i seq more).windows = p.windows ∧
      (p.eventAccepted a i seq more).events.written = p.events.written := by
  unfold Part.eventAccepted Part.toTail Part.unqueue
  dsimp only
  (repeat' split) <;> exact ⟨rfl, rfl, rfl⟩

/-- A node's event published: what follows is the appends' own work. -/
theorem Part.appendPublished_of_event (hwhat : a.what = .event i seq more) :
    (p.appendPublished a).AppendsOn (p.wordPublished.eventAccepted a i seq more) := by
  rw [Part.appendPublished, hwhat]
  dsimp only
  split
  · exact ((Part.offerNote_appendsOn _).trans (Part.nextAppend_appendsOn _)).trans
      ((Part.queueStatus_appendsOn _ _ _).trans ⟨rfl, rfl, rfl, rfl⟩)
  · exact (Part.offerNote_appendsOn _).trans ⟨rfl, rfl, rfl, rfl⟩

/-- The stray set after a note's record has been appended (R91, R92). -/
def notedStrays (a : Append) (address : Byte) (count : Nat) (strays : List Stray) : List Stray :=
  if a.void then strays else strays.map fun e =>
    if e.address = address then { e with lastNote := count, pendingNote := decide (2 * count ≤ e.count) } else e

/-- The part as a note's record has been published, before the next note is asked for. -/
def Part.notePublished (p : Part) (a : Append) (address : Byte) (count : Nat) : Part :=
  let q : Part := { p.wordPublished with events := { p.wordPublished.events with noteUnderWay := false } }
  ({ q with windows := { q.windows with strays := notedStrays a address count q.windows.strays } } : Part).nextAppend

theorem Part.appendPublished_of_note {address : Byte} {count : Nat} (hwhat : a.what = .note address count) :
    p.appendPublished a = (p.notePublished a address count).offerNote := by
  rw [Part.appendPublished, hwhat]
  dsimp only
  rw [Part.notePublished, notedStrays]
  split <;> rfl

end
end Sys2Proof.Machine
end

section
/-! SUPPORT. APPEND_COMPLETE, a note's append that fails, and EVENTS_TAKEN_READ (R95, R102, R104 to R107). -/

namespace Sys2Proof.Machine

section
variable {s : State} {x : Access} {a : Append} {rest : List Append}

theorem Part.wordPublished_registers (p : Part) : p.wordPublished.hasCause .event = true ∧
    p.wordPublished.counter .eventsAppended = p.counter .eventsAppended + 1 := by
  refine ⟨?_, ?_⟩
  · exact (Part.setCause_hasCause _ _ _).trans (by simp)
  · exact (Part.count_counter _ _ _).trans (if_pos rfl)

/-- What each append published leaves of the registers and the count. -/
theorem Part.appendPublished_published (p : Part) (a : Append) : (p.appendPublished a).events.written = p.events.written + 1 ∧
    (p.appendPublished a).hasCause .event = true ∧
    (p.appendPublished a).counter .eventsAppended = p.counter .eventsAppended + 1 := by
  obtain ⟨hcause, hcounter⟩ := p.wordPublished_registers
  have hfrom {q : Part} (h : (p.appendPublished a).AppendsOn q) (hfaults : q.faults = p.wordPublished.faults)
      (hwritten : q.events.written = p.events.written + 1) : (p.appendPublished a).events.written = p.events.written + 1 ∧
        (p.appendPublished a).hasCause .event = true ∧
        (p.appendPublished a).counter .eventsAppended = p.counter .eventsAppended + 1 := by
    have hkept := h.faults.trans hfaults
    exact ⟨by rw [h.events]; exact hwritten, by rw [Part.hasCause, hkept]; exact hcause, by rw [Part.counter, hkept]; exact hcounter⟩
  cases hwhat : a.what with
  | event i seq more =>
    obtain ⟨hfaults, -, hwritten⟩ := p.wordPublished.eventAccepted_keeps a i seq more
    exact hfrom (Part.appendPublished_of_event hwhat) hfaults hwritten
  | note address count =>
    have hoffered := (p.notePublished a address count).offerNote_appendsOn
    rw [← Part.appendPublished_of_note hwhat] at hoffered
    exact hfrom (hoffered.trans (Part.nextAppend_appendsOn _)) rfl rfl

theorem exec_appendCompletes (hx : s.current = some x) (hsource : x.source = .append) (hp : s.part.ladder.softPending = false)
    (hpos : s.part.events.appending = some 8) (hlist : s.part.events.appends = a :: rest) :
    ∃ f : Part → Part, exec .appendComplete s = .next ((s.afterWord x none).act f) ∧
      f (s.afterWord x none).part = (s.begun x none 0).appendPublished a := by
  obtain ⟨f, heq, hf⟩ := completeIf_ends hx hp (mine := fun b => b.source == .append && s.part.appendAtPublish)
    (by simp [hsource, Part.appendAtPublish, hpos, hlist]) none 0
  refine ⟨f, congrArg Host.Outcome.next heq, ?_⟩
  have hpos' : (s.begun x none 0).events.appending = some 8 := hpos
  have hlist' : (s.begun x none 0).events.appends = a :: rest := hlist
  rw [hf, hsource]
  change (s.begun x none 0).continueAppend = _
  rw [Part.continueAppend, hpos', hlist']
  exact (if_neg (by decide)).trans ((if_neg (by decide)).trans (if_pos rfl))

/-- A note's record appended: its entry is noted, and the oldest entry pending is offered where the list has room. -/
theorem exec_noteAppended {address : Byte} {count : Nat} {t : State} {f : Part → Part} {u : State} (ht : t = u.act f)
    (hf : f u.part = (s.begun x none 0).appendPublished a) (hlist : s.part.events.appends = a :: rest)
    (hwhat : a.what = .note address count) :
    let strays := if a.void then s.part.windows.strays else s.part.windows.strays.map fun e =>
      if e.address = address then { e with lastNote := count, pendingNote := decide (2 * count ≤ e.count) } else e
    let offered := s.part.ladder.state.worksMemory = true ∧ s.part.events.takenInvalid = false ∧
      s.part.events.appendStopped = false ∧
      (s.part.events.written + 1 - s.part.events.taken).toNat + (s.part.events.claimed - 1) < 64
    t.part.windows.strays = strays ∧
    (∀ e, offered → strays.find? (·.pendingNote) = some e → t.part.events.noteUnderWay = true ∧
      t.part.events.appends = rest ++
        [{ what := .note e.address e.count,
           record := eventRecord 3 e.address 0 (BitVec.ofNat 16 e.count) s.part.sched.cycle [e.origin.code, e.kind],
           detached := false, void := false }] ∧
      (s.part.ladder.state ≠ .heldService → t.part.events.claimed = s.part.events.claimed - 1 + 1)) ∧
    (¬ offered ∨ strays.find? (·.pendingNote) = none → t.part.events.noteUnderWay = false ∧
      t.part.events.appends = rest ∧
      (s.part.ladder.state ≠ .heldService → t.part.events.claimed = s.part.events.claimed - 1)) := by
  intro strays offered
  subst ht
  let p := s.begun x none 0
  let q := p.notePublished a address count
  have hq : f u.part = q.offerNote := hf.trans (Part.appendPublished_of_note hwhat)
  have hon : q.AppendsOn _ := Part.nextAppend_appendsOn _
  obtain ⟨happends, hclaimed, hnote⟩ : q.events.appends = _ ∧ q.events.claimed = _ ∧ q.events.noteUnderWay = _ :=
    Part.nextAppend_list _
  have hrest : q.events.appends = rest := happends.trans (congrArg (List.drop 1) hlist)
  have hstrays : q.windows.strays = strays := congrArg WindowUnit.strays hon.windows
  have hladder : q.ladder = s.part.ladder := hon.ladder.trans rfl
  have hplace : q.ladder.state.worksMemory = true ∧ q.events.hasPlace ↔ offered := by
    rw [hladder, EventUnit.hasPlace, hclaimed, hon.events]
    rfl
  have hcycle : q.sched.cycle = s.part.sched.cycle := by
    have hunits : q.KeepsUnits _ := Part.nextAppend_keepsUnits _
    exact (congrArg Scheduler.cycle hunits.2.2.1).trans rfl
  obtain ⟨-, -, -, -, -, htappends⟩ := State.act_list hq
  have htnote := State.act_noteUnderWay hq
  have htclaimed (h : s.part.ladder.state ≠ .heldService) : (u.act f).part.events.claimed = q.offerNote.events.claimed := by
    rw [State.act_events, hq]
    exact Part.settle_claimed_of_noService _ (by rw [Part.offerNote_ladder, hladder]; exact h)
  obtain ⟨-, -, htwindows, -⟩ := u.act_keeps f
  rw [hq] at htwindows
  refine ⟨by rw [htwindows, q.offerNote_appendsOn.windows, hstrays], fun e hoffered he => ?_, fun hnone => ?_⟩
  · obtain ⟨hworks, hroom⟩ := hplace.mpr hoffered
    obtain ⟨hunder, hadded, hplaces⟩ := Part.offerNote_of_offered (p := q) (hnote.trans rfl) hroom hworks (by rw [hstrays]; exact he)
    refine ⟨htnote.trans hunder, ?_, fun h => ?_⟩
    · rw [htappends, hadded, hrest, Part.noteFor, hcycle]
    · rw [htclaimed h, hplaces, hclaimed]
      rfl
  · have hsame : q.offerNote = q := Part.offerNote_of_none (by rw [hplace, hstrays]; exact hnone)
    refine ⟨by rw [htnote, hsame]; exact hnote.trans rfl, by rw [htappends, hsame, hrest], fun h => ?_⟩
    rw [htclaimed h, hsame, hclaimed]
    rfl

/-- A node's event appended: its sequence number is accepted, and the node leaves the queue or goes to its tail. -/
theorem exec_eventAppended {t u : State} {f : Part → Part} (ht : t = u.act f)
    (hf : f u.part = (s.begun x none 0).appendPublished a) {i : NodeIx} {seq : Byte} {more : Bool}
    (hwhat : a.what = .event i seq more) (hvoid : a.void = false) :
    (t.part.nodeEvents i).accepted = seq ∧ (t.part.nodeEvents i).valid = true ∧ (t.part.nodeEvents i).ackOwed = true ∧
      (t.part.nodeEvents i).intake = false ∧
      (t.part.nodeEvents i).latch = (if a.detached || more then (s.part.nodeEvents i).latch else false) ∧
      (a.detached = false → t.part.events.queue =
        if more then if (s.part.nodeEvents i).latch then s.part.events.queue.filter (· != i) ++ [i] else s.part.events.queue
        else s.part.events.queue.filter (· != i)) := by
  subst ht
  let p := s.begun x none 0
  have hon : (p.appendPublished a).AppendsOn (p.wordPublished.eventAccepted a i seq more) := Part.appendPublished_of_event hwhat
  obtain ⟨hlatch, haccepted, hvalid, howed, hintake⟩ := NodeEvents.of_marks (State.act_marks hf i)
  obtain ⟨hqueue, -⟩ := State.act_list hf
  have hnode := (hon.nodeEvents i).trans (Part.eventAccepted_nodeEvents (p := p.wordPublished) hvoid)
  refine ⟨?_, ?_, ?_, ?_, ?_, fun hdetached => ?_⟩
  · rw [haccepted, hnode]
  · rw [hvalid, hnode]
  · rw [howed, hnode]
  · rw [hintake, hnode]
  · rw [hlatch, hnode]
    rfl
  · rw [hqueue, hon.events]
    exact Part.eventAccepted_queue (p := p.wordPublished) hvoid hdetached

/-! ## An append given up (R105) -/

theorem Part.appendFailed_of_note {p : Part} {pos : Nat} {address : Byte} {count : Nat} (hpos : p.events.appending = some pos)
    (hbefore : pos ≤ 8) (hlist : p.events.appends = a :: rest) (hwhat : a.what = .note address count) :
    p.appendFailed =
      ({ p with events := { p.events with claimed := p.events.claimed - 1, noteUnderWay := false, appendStopped := true } } :
        Part).nextAppend := by
  rw [Part.appendFailed, hpos, hlist]
  refine (if_pos hbefore).trans ?_
  rw [Part.appendAborted, hwhat]
  rfl

theorem Part.holdCheckStopped_units (p : Part) : p.holdCheckStopped.events = p.events ∧ p.holdCheckStopped.windows = p.windows ∧
    p.holdCheckStopped.ladder.faultHold = p.ladder.faultHold ∧ p.holdCheckStopped.hasCause .event = p.hasCause .event := by
  have hskip (q : Part) (r : Request) : (q.skipRequest r).hasCause .event = q.hasCause .event := by
    unfold Part.skipRequest
    simp
  have hjudge : p.judgeInRun.events = p.events ∧ p.judgeInRun.windows = p.windows ∧
      p.judgeInRun.ladder.faultHold = p.ladder.faultHold ∧ p.judgeInRun.hasCause .event = p.hasCause .event := by
    refine ⟨?_, ?_, p.judgeInRun_faultHold, ?_⟩
    · unfold Part.judgeInRun
      (repeat' split) <;> simp [Part.skipRequest, Part.emptySlot]
    · unfold Part.judgeInRun
      (repeat' split) <;> simp [Part.skipRequest, Part.emptySlot]
    · unfold Part.judgeInRun
      split
      · rfl
      · split <;> rfl
      · rfl
      · exact hskip _ _
      · exact hskip _ _
  unfold Part.holdCheckStopped
  split
  · exact hjudge
  · exact ⟨rfl, rfl, rfl, rfl⟩

/-- A note's append that fails publishes nothing and stops the list. -/
theorem exec_noteAppendFails {pos : Nat} {address : Byte} {count : Nat} (hx : s.current = some x) (hsource : x.source = .append)
    (hp : s.part.ladder.softPending = false) (hstart : s.part.ladder.state ≠ .starting) (hpos : s.part.events.appending = some pos)
    (hbefore : pos ≤ 8) (hlist : s.part.events.appends = a :: rest) (hwhat : a.what = .note address count) (dt : Nat) :
    ∃ t, exec (.memoryErrorResponse dt) s = .next t ∧ t.part.windows.strays = s.part.windows.strays ∧
      t.part.events.noteUnderWay = false ∧ t.part.events.appends = rest ∧ t.part.events.appendStopped = true ∧
      t.part.events.written = s.part.events.written ∧ t.part.events.claimed = s.part.events.claimed - 1 ∧
      t.part.hasCause .event = s.part.hasCause .event := by
  obtain ⟨f, hexec, hf⟩ := exec_accessFails hx hp hstart dt
  let p := (s.begun x none dt).report .memory (BitVec.ofNat 16 x.offset)
  have hevents : p.events = s.part.events := (Part.report_events _ _ _).trans rfl
  let q : Part := { p with events := { p.events with claimed := p.events.claimed - 1, noteUnderWay := false, appendStopped := true } }
  let r := q.nextAppend
  have hdone : f (s.offList s.mem).part = r.holdCheckStopped := by
    rw [hf, hsource]
    exact congrArg Part.holdCheckStopped
      (Part.appendFailed_of_note (p := p) (by rw [hevents]; exact hpos) hbefore (by rw [hevents]; exact hlist) hwhat)
  have hon : r.AppendsOn q := q.nextAppend_appendsOn
  obtain ⟨happends, hclaimed, hnote⟩ := q.nextAppend_list
  obtain ⟨hkevents, hkwindows, hkhold, hkcause⟩ := r.holdCheckStopped_units
  obtain ⟨-, htwritten, -, -, htstopped, htappends⟩ := State.act_list hdone
  have hhold : r.holdCheckStopped.ladder.faultHold = true := by
    rw [hkhold, hon.ladder]
    change ((s.begun x none dt).ladder.faultHold || (s.begun x none dt).ladder.state != .starting) = true
    rw [Bool.or_eq_true, bne_iff_ne]
    exact .inr hstart
  obtain ⟨-, -, htwindows, -⟩ := (s.offList s.mem).act_keeps f
  rw [hdone] at htwindows
  refine ⟨_, hexec, ?_, ?_, ?_, ?_, ?_, ?_, ?_⟩
  · rw [htwindows, hkwindows, hon.windows]
    exact congrArg WindowUnit.strays ((Part.report_windows (s.begun x none dt) .memory (BitVec.ofNat 16 x.offset)).trans rfl)
  · rw [State.act_noteUnderWay hdone, hkevents]
    exact hnote.trans rfl
  · rw [htappends, hkevents, show r.events.appends = _ from happends]
    change p.events.appends.drop 1 = rest
    rw [hevents, hlist]
    rfl
  · rw [htstopped, hkevents, hon.events]
  · rw [htwritten, hkevents, hon.events]
    change p.events.written = _
    rw [hevents]
  · rw [State.act_events, hdone, Part.settle_claimed_of_faultHold _ hhold, hkevents, show r.events.claimed = _ from hclaimed]
    exact congrArg (fun e : EventUnit => e.claimed - 1) hevents
  · rw [State.act_hasCause _ _ _ (by decide), hdone, hkcause, Part.hasCause, hon.faults]
    have hcause : p.hasCause .event = (s.begun x none dt).hasCause .event :=
      (Part.report_hasCause _ _ _ _).trans (Bool.or_false _)
    exact hcause

end
end Sys2Proof.Machine
end

section
/-! SUPPORT. EVENTS_TAKEN_READ (R96, R97, R106): the value judged, and what of it stands behind the requests that waited for the read. -/

namespace Sys2Proof.Machine

/-- The list's taken word and what is said of it, and the fault registers, are as before. -/
structure Part.KeepsTaken (q p : Part) : Prop where
  taken : q.events.taken = p.events.taken
  takenInvalid : q.events.takenInvalid = p.events.takenInvalid
  appendStopped : q.events.appendStopped = p.events.appendStopped
  capture : q.faults.capture = p.faults.capture
  cause : q.faults.cause = p.faults.cause

theorem Part.KeepsTaken.trans {p q r : Part} (h : r.KeepsTaken q) (k : q.KeepsTaken p) : r.KeepsTaken p :=
  ⟨h.taken.trans k.taken, h.takenInvalid.trans k.takenInvalid, h.appendStopped.trans k.appendStopped, h.capture.trans k.capture,
    h.cause.trans k.cause⟩

theorem Part.KeepsChoice.keepsTaken {p q : Part} (h : q.KeepsChoice p) : q.KeepsTaken p := by
  obtain ⟨-, -, -, -, -, -, -, -, -, -, -, -, -, hcause, hcapture, -, -, -, -, -, -, -, htaken, hinvalid, hstopped, -⟩ := h
  exact ⟨htaken, hinvalid, hstopped, hcapture, hcause⟩

theorem Part.Keeps.keepsTaken {p q : Part} (h : q.Keeps p) (hcause : q.faults.cause = p.faults.cause) : q.KeepsTaken p := by
  obtain ⟨-, -, -, -, -, -, -, -, hcapture, -, -, -, -, -, -, -, -, -, -, -, -, -, -, -, -, -, -, htaken, hinvalid, hstopped, -⟩ := h
  exact ⟨htaken, hinvalid, hstopped, hcapture, hcause⟩

section
variable (p : Part)

theorem Part.fetchAfterRead_keepsTaken : p.fetchAfterRead.KeepsTaken p := by
  unfold Part.fetchAfterRead
  dsimp only
  split
  · exact (Part.parcelPhase_keepsChoice _).keepsTaken.trans ⟨rfl, rfl, rfl, rfl, rfl⟩
  · split
    · exact (Part.beginFetch_keepsChoice _ _).keepsTaken.trans ⟨rfl, rfl, rfl, rfl, rfl⟩
    · exact (Part.parcelPhase_keepsChoice _).keepsTaken.trans ⟨rfl, rfl, rfl, rfl, rfl⟩

theorem Part.endService_keepsTaken : p.endService.KeepsTaken p := Part.Keeps.keepsTaken (by simp [Part.Keeps]) (by simp)

theorem Part.serviceAfterRead_keepsTaken : p.serviceAfterRead.KeepsTaken p := by
  unfold Part.serviceAfterRead
  dsimp only
  split
  · split
    · exact ⟨rfl, rfl, rfl, rfl, rfl⟩
    · exact (Part.endService_keepsTaken _).trans ⟨rfl, rfl, rfl, rfl, rfl⟩
  · exact (Part.Keeps.keepsTaken (Part.serviceNext_keeps _) (Part.serviceNext_cause _)).trans ⟨rfl, rfl, rfl, rfl, rfl⟩

theorem Part.afterTaken_keepsTaken : p.afterTaken.KeepsTaken p := by
  unfold Part.afterTaken
  split
  · split
    · exact p.fetchAfterRead_keepsTaken
    · exact ⟨rfl, rfl, rfl, rfl, rfl⟩
  · split
    · exact p.serviceAfterRead_keepsTaken
    · exact ⟨rfl, rfl, rfl, rfl, rfl⟩
  all_goals exact ⟨rfl, rfl, rfl, rfl, rfl⟩

theorem Part.AppendsOn.keepsTaken {p q : Part} (h : q.AppendsOn p) : q.KeepsTaken p :=
  ⟨by rw [h.events], by rw [h.events], by rw [h.events], by rw [h.faults], by rw [h.faults]⟩

/-- The read ended: behind the value taken nothing of it changes. -/
theorem Part.takenEnded_keepsTaken {r : TakenRead} (hr : p.events.takenRead = some r) (w : Word) :
    (p.takenEnded w).KeepsTaken (p.takenValue w r.onFetch) := by
  rw [Part.takenEnded, hr]
  dsimp only
  split
  · exact (Part.offerNote_appendsOn _).keepsTaken.trans (Part.afterTaken_keepsTaken _)
  · exact Part.afterTaken_keepsTaken _

variable {p}

theorem Part.takenValue_of_valid {w : Word} (hvalid : (p.events.written - w).toNat ≤ (p.events.written - p.events.taken).toNat)
    (onFetch : Bool) : p.takenValue w onFetch =
      { p with events := { p.events with taken := w, takenInvalid := false, appendStopped := p.events.appendStopped && onFetch,
                                         takenRead := none } } :=
  if_pos (decide_eq_true hvalid)

theorem Part.takenValue_of_invalid {w : Word} (hinvalid : ¬ (p.events.written - w).toNat ≤ (p.events.written - p.events.taken).toNat)
    (onFetch : Bool) : p.takenValue w onFetch =
      let q : Part := { p with events := { p.events with takenInvalid := true, takenRead := none } }
      if p.events.takenInvalid then q else q.report .eventAckInvalid 0 :=
  if_neg (by rw [EventUnit.takenValid, decide_eq_false hinvalid]; decide)

end

/-- The events-taken word read: a valid value becomes last taken, an invalid one is reported once. -/
theorem exec_eventsTakenReads {s : State} {x : Access} {r : TakenRead} {host : Option Word} {w : Word} (hx : s.current = some x)
    (hsource : x.source = .eventsTaken) (hp : s.part.ladder.softPending = false) (hr : s.part.events.takenRead = some r)
    (hw : w = x.value s.port.area (x.memAfter s.port.area host s.mem)) (dt : Nat) :
    ∃ t, exec (.eventsTakenRead host dt) s = .next t ∧
      ((s.part.events.written - w).toNat ≤ (s.part.events.written - s.part.events.taken).toNat →
        t.part.events.taken = w ∧ t.part.events.takenInvalid = false ∧
        t.part.events.appendStopped = (s.part.events.appendStopped && r.onFetch) ∧
        t.part.faults.capture = s.part.faults.capture) ∧
      ((s.part.events.written - s.part.events.taken).toNat < (s.part.events.written - w).toNat →
        t.part.events.taken = s.part.events.taken ∧ t.part.events.takenInvalid = true ∧
        t.part.events.appendStopped = s.part.events.appendStopped ∧
        (s.part.events.takenInvalid = true → t.part.faults.capture = s.part.faults.capture) ∧
        (s.part.events.takenInvalid = false → t.part.hasCause .fault = true ∧
          (s.part.hasCause .fault = false → t.part.faults.capture.code = 5))) := by
  obtain ⟨f, heq, hf⟩ := completeIf_ends hx hp (mine := fun a => a.source == .eventsTaken) (by simp [hsource]) host dt
  let p := s.begun x host dt
  have hdone : f (s.afterWord x host).part = p.takenEnded w := by
    rw [hf, hsource, hw]
    rfl
  have hkept : (p.takenEnded w).KeepsTaken (p.takenValue w r.onFetch) := p.takenEnded_keepsTaken (r := r) hr w
  obtain ⟨-, -, htaken, hinvalid, hstopped, -⟩ := State.act_list hdone
  have hcapture := State.act_capture (s := s.afterWord x host) f
  have hcause := (s.afterWord x host).act_hasCause f .fault (by decide)
  rw [hdone] at hcapture hcause
  refine ⟨_, congrArg Host.Outcome.next heq, fun hvalid => ?_, fun hahead => ?_⟩
  · rw [Part.takenValue_of_valid (p := p) hvalid] at hkept
    exact ⟨htaken.trans hkept.taken, hinvalid.trans hkept.takenInvalid, hstopped.trans hkept.appendStopped, hcapture.trans hkept.capture⟩
  · rw [Part.takenValue_of_invalid (p := p) (Nat.not_le.mpr hahead)] at hkept
    let q : Part := { p with events := { p.events with takenInvalid := true, takenRead := none } }
    by_cases hknown : s.part.events.takenInvalid = true
    · have hsame : (p.takenEnded w).KeepsTaken q := by
        rwa [if_pos (show p.events.takenInvalid = true from hknown)] at hkept
      exact ⟨htaken.trans hsame.taken, hinvalid.trans hsame.takenInvalid, hstopped.trans hsame.appendStopped,
        fun _ => hcapture.trans hsame.capture, fun h => absurd (hknown.symm.trans h) (by decide)⟩
    · have hreported : (p.takenEnded w).KeepsTaken (q.report .eventAckInvalid 0) := by
        rwa [if_neg (show ¬ p.events.takenInvalid = true from hknown)] at hkept
      have hevents : (q.report .eventAckInvalid 0).events = q.events := Part.report_events _ _ _
      refine ⟨htaken.trans (hreported.taken.trans (by rw [hevents]; rfl)),
        hinvalid.trans (hreported.takenInvalid.trans (by rw [hevents])),
        hstopped.trans (hreported.appendStopped.trans (by rw [hevents]; rfl)), fun h => absurd h hknown, fun _ => ⟨?_, fun hclear => ?_⟩⟩
      · rw [hcause, Part.hasCause, hreported.cause]
        exact Part.report_hasFault _ _
      · rw [hcapture, hreported.capture, Part.report_capture, Capture.take, show q.hasCause .fault = false from hclear]
        rfl

end Sys2Proof.Machine
end

section
/-! SUPPORT. The outcome of a FETCH (R11, R12, R38, R97 to R103): what it does to the node, the queue and the list, and the places claimed
behind it. -/

namespace Sys2Proof.Machine

/-! ## Places claimed behind a FETCH (R38, R96, R97) -/

/-- The claimed places are `base`, and one more for a FETCH under way. -/
def Part.Claims (p : Part) (base : Nat) : Prop := p.events.claimed = base + if p.frames.fetching then 1 else 0

theorem Part.Claims.of_idle {p : Part} (h : p.frames.fetching = false) : p.Claims p.events.claimed := by
  rw [Part.Claims, h]
  rfl

theorem Part.Claims.of_kept {p q : Part} {base : Nat} (h : p.Claims base) (hframes : q.frames = p.frames)
    (hclaimed : q.events.claimed = p.events.claimed) : q.Claims base := by
  rw [Part.Claims, hframes, hclaimed]
  exact h

section
variable {p : Part} {base : Nat}

theorem Part.nameExchange_notFetching (h : p.frames.fetching = false) (e : Parcel) (bt : Nat) (f : Parcel → Parcel) {ex : Exchange}
    (hex : ∀ i ack, ex ≠ .fetch i ack) (frame : List Byte) : (p.nameExchange e bt f ex frame).frames.fetching = false := by
  unfold Part.nameExchange
  split
  · change (match some ex with | some (.fetch _ _) => true | _ => false) = false
    split
    next i ack heq => exact absurd (Option.some.inj heq) (hex i ack)
    next => rfl
  · exact h

theorem Part.serveParcel_notFetching (h : p.frames.fetching = false) (e : Parcel) : (p.serveParcel e).frames.fetching = false := by
  unfold Part.serveParcel
  split
  · exact h
  · exact h
  · exact Part.nameExchange_notFetching h _ _ _ (by intro _ _ h; cases h) _
  · exact Part.nameExchange_notFetching h _ _ _ (by intro _ _ h; cases h) _

theorem Part.parcelNext_notFetching (h : p.frames.fetching = false) : p.parcelNext.frames.fetching = false := by
  unfold Part.parcelNext
  split
  · exact Part.serveParcel_notFetching h _
  · split
    · dsimp only
      split
      · exact Part.serveParcel_notFetching (p := p.newPass) h _
      · exact h
    · exact h

theorem Part.parcelPhase_claims (h : p.frames.fetching = false) : p.parcelPhase.Claims p.events.claimed := by
  have hclaimed : p.parcelPhase.events = p.events := Part.parcelNext_events _
  rw [← hclaimed]
  exact .of_idle (Part.parcelNext_notFetching h)

theorem Part.requestTaken_claims (h : p.frames.fetching = false) (onFetch : Bool) : (p.requestTaken onFetch).Claims p.events.claimed := by
  unfold Part.requestTaken
  split <;> exact Part.Claims.of_idle (p := p) h

theorem Part.fetchNext_claims (h : p.frames.fetching = false) : p.fetchNext.Claims p.events.claimed := by
  unfold Part.fetchNext Part.beginFetch
  dsimp only
  split
  · exact Part.parcelPhase_claims h
  · split
    · split
      · exact rfl
      · exact Part.parcelPhase_claims h
    · exact Part.requestTaken_claims (p := p.modSched fun s => { s with fetchRead := true }) h true

theorem Part.endService_frames : p.endService.frames = p.frames := by
  unfold Part.endService
  dsimp only
  split <;> simp

theorem Part.endService_claims (h : p.frames.fetching = false) : p.endService.Claims p.events.claimed :=
  (Part.Claims.of_idle h).of_kept p.endService_frames (by rw [p.endService_events])

theorem Part.serviceName_claims (h : p.frames.fetching = false) (i : NodeIx) : (p.serviceName i).Claims p.events.claimed := by
  unfold Part.serviceName
  split
  · exact rfl
  · exact Part.requestTaken_claims (p := p.modLadder fun l => { l with serviceRead := true }) h true

theorem Part.serviceNext_claims (h : p.frames.fetching = false) : p.serviceNext.Claims p.events.claimed := by
  unfold Part.serviceNext
  split
  · exact Part.endService_claims h
  split
  next i _ => exact Part.serviceName_claims h i
  next =>
    split
    · exact Part.endService_claims h
    split
    · dsimp only
      split
      next i _ => exact Part.serviceName_claims (p := p.newRound) h i
      next => exact Part.endService_claims (p := p.newRound) h
    · exact Part.Claims.of_idle h

/-- A service whose FETCH is under way waits for nothing else. -/
def Part.FetchWorks (p : Part) : Prop := p.frames.fetching = true → p.ladder.serviceWait = false ∧ p.ladder.serviceRead = false

theorem Part.FetchWorks.of_idle (h : p.frames.fetching = false) : p.FetchWorks := fun hf => absurd (h.symm.trans hf) (by decide)

theorem Part.serviceName_works (h : p.frames.fetching = false) (hwait : p.ladder.serviceWait = false)
    (hread : p.ladder.serviceRead = false) (i : NodeIx) : (p.serviceName i).FetchWorks := by
  unfold Part.serviceName
  split
  · exact fun _ => ⟨hwait, hread⟩
  · unfold Part.requestTaken
    split <;> exact .of_idle h

theorem Part.serviceNext_works (h : p.frames.fetching = false) (hwait : p.ladder.serviceWait = false)
    (hread : p.ladder.serviceRead = false) : p.serviceNext.FetchWorks := by
  have hend (q : Part) (hq : q.frames.fetching = false) : q.endService.FetchWorks := .of_idle (by rw [q.endService_frames, hq])
  unfold Part.serviceNext
  split
  · exact hend p h
  split
  next i _ => exact Part.serviceName_works h hwait hread i
  next =>
    split
    · exact hend p h
    split
    · dsimp only
      split
      next i _ => exact Part.serviceName_works (p := p.newRound) h hwait hread i
      next => exact hend p.newRound h
    · exact .of_idle h

/-- As things settle the claimed places keep to the FETCH under way. -/
theorem Part.Claims.settle (h : p.Claims base) (hstart : p.ladder.state ≠ .starting)
    (hworks : p.frames.fetching = true → p.ladder.serviceWorks) : p.settle.Claims base := by
  by_cases hfetching : p.frames.fetching = true
  · obtain ⟨-, hframes, -, hclaimed, -⟩ := Part.settle_keepsLine_of_works hstart (hworks hfetching)
    exact h.of_kept hframes hclaimed
  · have hidle : p.settleMost.frames.fetching = false := by
      rw [(Part.settleMost_settles hstart).frames]
      exact Bool.eq_false_iff.mpr hfetching
    have hbase : p.settleMost.events.claimed = base := by
      rw [p.settleMost_claimed, h, if_neg hfetching]
      rfl
    rw [Part.settle_eq_settleMost, ← hbase]
    unfold Part.settleService
    split
    · split
      · exact Part.endService_claims hidle
      split
      · exact Part.serviceNext_claims (p := p.settleMost.modLadder fun l => { l with serviceWait := false }) hidle
      · exact .of_idle hidle
    · exact .of_idle hidle

end

/-! ## A GOOD FETCH (R11, R98 to R102) -/

section
variable {p : Part} {i : NodeIx} {f : Frame}

theorem Part.goodEvent_of_inService (hin : (p.node i).state.inService = true) : p.goodEvent i = p.goodAnswer i id := if_pos hin

/-- What a GOOD FETCH leaves of the other blocks, of the read under way, and of what was fetched this turn. -/
structure Part.FetchKept (r p : Part) : Prop where
  ladder : r.ladder = p.ladder
  sched : r.sched = p.sched
  loader : r.loader = p.loader
  exchange : r.frames.exchange = p.frames.exchange
  takenRead : r.events.takenRead = p.events.takenRead
  fetched : ∀ j, (r.nodeEvents j).fetched = (p.nodeEvents j).fetched

theorem Part.FetchKept.trans {p q r : Part} (h : r.FetchKept q) (k : q.FetchKept p) : r.FetchKept p :=
  ⟨h.ladder.trans k.ladder, h.sched.trans k.sched, h.loader.trans k.loader, h.exchange.trans k.exchange, h.takenRead.trans k.takenRead,
    fun j => (h.fetched j).trans (k.fetched j)⟩

theorem Part.modEvents_fetched {g : NodeEvents → NodeEvents} (hg : ∀ e, (g e).fetched = e.fetched) (j : NodeIx) :
    ((p.modEvents i g).nodeEvents j).fetched = (p.nodeEvents j).fetched := by
  rw [Part.modEvents_nodeEvents]
  split
  next h => rw [hg, h]
  next => rfl

theorem Part.confirmAck_fetchKept (ack : Option Byte) : (p.confirmAck i ack).FetchKept p := by
  obtain ⟨-, hframes, hsched, -, -, hloader, hladder, -⟩ := p.confirmAck_keepsUnits i ack
  refine ⟨hladder, hsched, hloader, congrArg FrameEngine.exchange hframes, (p.confirmAck_keepsPlaces i ack).2, fun j => ?_⟩
  unfold Part.confirmAck
  split
  · split
    · exact Part.modEvents_fetched (g := fun e => { e with ackOwed := false }) (fun _ => rfl) j
    · rfl
  · rfl

theorem Part.goodEvent_fetchKept (hin : (p.node i).state.inService = true) : (p.goodEvent i).FetchKept p := by
  obtain ⟨hladder, hsched, -, hloader, -, hexchange, -⟩ := p.goodEvent_keepsOffNodes i
  have hevents : (p.goodEvent i).events = p.events := by
    rw [Part.goodEvent_of_inService hin]
    exact Part.goodAnswer_keepsEvents id
  exact ⟨hladder, hsched, hloader, hexchange, by rw [hevents], fun j => by rw [Part.nodeEvents, hevents]; rfl⟩

theorem Part.toTail_nodeEvents (j : NodeIx) : (p.toTail i).nodeEvents j = p.nodeEvents j := by
  unfold Part.toTail
  split <;> rfl

theorem Part.fetchReply_fetchKept (f : Frame) : (p.fetchReply i f).FetchKept p := by
  obtain ⟨hladder, hsched, hframes, -, -, hloader, -⟩ := p.fetchReply_keepsOffEvents i f
  refine ⟨hladder, hsched, hloader, by rw [hframes], ?_, fun j => ?_⟩
  · unfold Part.fetchReply
    dsimp only
    split
    · rfl
    · split
      · unfold Part.toTail
        split <;> rfl
      · exact Part.startAppend_takenRead _
  · unfold Part.fetchReply
    dsimp only
    split
    · exact Part.modEvents_fetched (p := p) (g := fun e => { e with latch := false }) (fun _ => rfl) j
    · split
      · rw [Part.toTail_nodeEvents]
        exact Part.modEvents_fetched (p := p.releasePlace.count .eventDuplicates) (g := fun e => { e with ackOwed := true })
          (fun _ => rfl) j
      · refine (congrArg NodeEvents.fetched ((Part.startAppend_appendsOn _).nodeEvents j)).trans ?_
        exact Part.modEvents_fetched (p := p) (g := fun e => { e with intake := true }) (fun _ => rfl) j

/-- EVENT with NONE: the node leaves the queue, and its place is released (R99). -/
theorem Part.fetchReply_of_none (h : f.flag 0 = true) : p.fetchReply i f = (p.unqueue i).releasePlace := if_pos h

theorem Part.fetchReply_of_duplicate (h : f.flag 0 = false) (hvalid : (p.nodeEvents i).valid = true)
    (hsame : payloadByte f.payload 0 = (p.nodeEvents i).accepted) :
    p.fetchReply i f = ((p.releasePlace.count .eventDuplicates).modEvents i fun e => { e with ackOwed := true }).toTail i :=
  (if_neg (by rw [h]; decide)).trans (if_pos (by rw [hvalid, hsame, beq_self_eq_true]; rfl))

theorem Part.fetchReply_of_new (h : f.flag 0 = false)
    (hnew : ¬ ((p.nodeEvents i).valid = true ∧ payloadByte f.payload 0 = (p.nodeEvents i).accepted)) :
    p.fetchReply i f = p.takeEvent i f :=
  (if_neg (by rw [h]; decide)).trans (if_neg (by rwa [Bool.and_eq_true, beq_iff_eq]))

/-- EVENT with NONE, taken. -/
theorem Part.fetchReply_noneTaken (h : f.flag 0 = true) : (p.fetchReply i f).events.claimed = p.events.claimed - 1 ∧
    (p.fetchReply i f).events.appends = p.events.appends ∧ (p.fetchReply i f).events.queue = p.events.queue.filter (· != i) ∧
    (p.fetchReply i f).nodeEvents i = { p.nodeEvents i with latch := false } := by
  rw [Part.fetchReply_of_none h]
  exact ⟨rfl, rfl, rfl, (p.modEvents_nodeEvents i i _).trans (if_pos rfl)⟩

/-- A duplicate, taken. -/
theorem Part.fetchReply_duplicateTaken (h : f.flag 0 = false) (hvalid : (p.nodeEvents i).valid = true)
    (hsame : payloadByte f.payload 0 = (p.nodeEvents i).accepted) :
    (p.fetchReply i f).events.claimed = p.events.claimed - 1 ∧ (p.fetchReply i f).events.appends = p.events.appends ∧
      (p.fetchReply i f).nodeEvents i = { p.nodeEvents i with ackOwed := true } ∧
      (p.fetchReply i f).counter .eventDuplicates = p.counter .eventDuplicates + 1 ∧
      ((p.nodeEvents i).latch = true → (p.fetchReply i f).events.queue = p.events.queue.filter (· != i) ++ [i]) := by
  let q := (p.releasePlace.count .eventDuplicates).modEvents i fun e => { e with ackOwed := true }
  have hq : q.nodeEvents i = { p.nodeEvents i with ackOwed := true } := (Part.modEvents_nodeEvents _ i i _).trans (if_pos rfl)
  rw [Part.fetchReply_of_duplicate h hvalid hsame]
  refine ⟨?_, ?_, (q.toTail_nodeEvents (i := i) i).trans hq, ?_, fun hlatch => ?_⟩
  · unfold Part.toTail
    split <;> rfl
  · unfold Part.toTail
    split <;> rfl
  · have hfaults : (q.toTail i).faults = q.faults := by
      unfold Part.toTail
      split <;> rfl
    change (q.toTail i).counter .eventDuplicates = _
    rw [Part.counter, hfaults]
    exact (Part.count_counter _ _ _).trans (if_pos rfl)
  · change (q.toTail i).events.queue = _
    rw [Part.toTail, if_pos (by rw [hq]; exact hlatch)]
    rfl

/-- A new event, taken in. -/
theorem Part.fetchReply_newTaken (h : f.flag 0 = false)
    (hnew : ¬ ((p.nodeEvents i).valid = true ∧ payloadByte f.payload 0 = (p.nodeEvents i).accepted)) :
    (p.fetchReply i f).events.claimed = p.events.claimed ∧ (p.fetchReply i f).events.queue = p.events.queue ∧
      (p.fetchReply i f).nodeEvents i = { p.nodeEvents i with intake := true } ∧
      (p.fetchReply i f).events.appends = p.events.appends ++
        [{ what := .event i (payloadByte f.payload 0) (f.flag 1),
           record := eventRecord (p.nodeEvents i).origin.code (p.node i).applied.address (payloadByte f.payload 0)
             (payloadByte f.payload 1 ++ payloadByte f.payload 2) p.sched.cycle (f.payload.drop 3),
           detached := false, void := false }] := by
  rw [Part.fetchReply_of_new h hnew]
  have hon (q : Part) : q.startAppend.AppendsOn q := q.startAppend_appendsOn
  refine ⟨Part.startAppend_claimed _, (congrArg EventUnit.queue (hon _).events).trans rfl, ?_, Part.startAppend_appends _⟩
  refine ((hon _).nodeEvents i).trans ?_
  exact (p.modEvents_nodeEvents i i _).trans (if_pos rfl)

end
end Sys2Proof.Machine
end

section
/-! SUPPORT. GUARD_END of a FETCH in RUN and in held-line service (R11, R12, R38, R97 to R103). -/

namespace Sys2Proof.Machine

/-! ## Behind a FETCH -/

section
variable {s : State} {i : NodeIx} {ack : Option Byte} {dt : Nat}

/-- In RUN, or in a service that waits for nothing but its FETCH. -/
def State.fetches (s : State) : Prop :=
  s.part.ladder.state = .run ∨ s.part.ladder.state = .heldService ∧ s.part.ladder.serviceWait = false ∧ s.part.ladder.serviceRead = false

theorem State.fetches.works (h : s.fetches) {l : Ladder} (hl : l = s.part.ladder) : l.state ≠ .starting ∧ l.serviceWorks := by
  subst hl
  rcases h with h | ⟨h, hworks⟩
  · exact ⟨by rw [h]; nofun, fun hs => nomatch h.symm.trans hs⟩
  · exact ⟨by rw [h]; nofun, fun _ => hworks⟩

/-- The event unit is asked again behind `r`: by the fetch phase in RUN, by the service in HELD-SERVICE. -/
def State.asksAgain (s : State) (q r : Part) : Prop :=
  s.part.ladder.state = .run ∧ q = r.fetchNext ∨
    (s.part.ladder.state = .heldService ∧ s.part.ladder.serviceWait = false ∧ s.part.ladder.serviceRead = false) ∧ q = r.serviceNext

theorem exec_guardEnd_of_fetch (hfetches : s.fetches) (hguard : s.part.frames.state = .guarding)
    (hex : s.part.frames.exchange = some (.fetch i ack)) {a : Attempt} (hout : s.part.frames.outcome = some a) (dt : Nat) :
    ∃ g : Part → Part, exec (.guardEnd dt) s = .next (s.act g) ∧
      (s.part.ladder.state = .run ∧
        g s.part = (s.part.returned dt).takeOutcome (.fetch i ack) (if a = .good then s.part.frames.rx else none) ∨
      (s.part.ladder.state = .heldService ∧ s.part.ladder.serviceWait = false ∧ s.part.ladder.serviceRead = false) ∧
        g s.part = (s.part.returned dt).serviceOutcome (.fetch i ack) (if a = .good then s.part.frames.rx else none)) := by
  rcases hfetches with hrun | hservice
  · obtain ⟨g, hexec, hg⟩ := exec_guardEnd_of_run hrun hguard hex hout dt
    exact ⟨g, hexec, .inl ⟨hrun, hg⟩⟩
  · refine ⟨fun p => (p.passTime dt).returnOutcome, ?_, .inr ⟨hservice, ?_⟩⟩
    · change execGuardEnd dt s = _
      rw [execGuardEnd, State.actIf, if_pos (by rw [hguard, hout]; rfl)]
    · have hreply : s.part.frames.reply = if a = .good then s.part.frames.rx else none := by
        rw [FrameEngine.reply, hout]
        simp only [Option.some.injEq]
      have hreturn : (s.part.passTime dt).returnOutcome = (s.part.returned dt).serviceOutcome (.fetch i ack) s.part.frames.reply := by
        simp only [Part.returnOutcome, Part.passTime_frames, hex, Part.frameState_ladder, Part.passTime_ladder, hservice.1]
        rfl
      exact hreturn.trans (by rw [hreply])

/-- What of a FETCH's outcome `r` stands behind the next request. -/
structure State.FetchEnded (s t : State) (dt : Nat) (r : Part) : Prop where
  node : ∀ j, t.part.node j = r.node j
  marks : ∀ j, t.part.marks j = r.marks j
  queue : t.part.events.queue = r.events.queue
  appends : t.part.events.appends = r.events.appends
  counter : ∀ c ∈ [Counter.eventDuplicates, .nodeMisses], t.part.counter c = r.counter c
  claims : t.part.events.claimed = r.events.claimed + if t.part.frames.fetching then 1 else 0
  asked : s.part.ladder.state = .run → (s.part.behind t.part r.events.claimed).fetchAsked t.part dt fun j =>
    !(s.part.nodeEvents j).fetched && !(t.part.nodeEvents j).intake

theorem State.act_asked {g : Part → Part} {r : Part} (hg : s.asksAgain (g s.part) r) (hr : r.FetchKept (s.part.returned dt)) :
    s.FetchEnded (s.act g) dt r := by
  have hidle : r.frames.fetching = false := by
    rw [FrameEngine.fetching, hr.exchange]
    rfl
  have hladder : r.ladder = s.part.ladder := hr.ladder
  rcases hg with ⟨hrun, hg⟩ | ⟨⟨hservice, hwait, hread⟩, hg⟩
  · have hqrun : r.fetchNext.ladder.state = .run := by rw [Part.fetchNext_ladder, hladder, hrun]
    have hstands := (State.act_stands hg hqrun).trans r.fetchNext_stands
    have hshows := State.act_shows hg (by rw [hqrun]; nofun) (by rw [hqrun]; nofun) (by rw [hqrun]; rfl)
    have hchoice := r.fetchNext_keepsChoice
    obtain ⟨-, -, -, -, -, happends⟩ := State.act_list hg
    refine ⟨hstands.node, hstands.marks, hstands.queue, ?_, fun c hc => ?_, ?_, fun _ => ?_⟩
    · obtain ⟨-, -, -, -, -, -, -, -, -, -, -, -, -, -, -, -, -, -, -, -, -, -, -, -, -, hkept, -⟩ := hchoice
      rw [happends, hkept]
    · obtain ⟨-, -, -, -, -, -, -, -, -, -, -, -, -, -, -, -, -, -, -, -, -, -, -, -, -, -, -, -, -, -, hcounters⟩ := hchoice
      rw [State.act_counters, hg]
      simp only [List.mem_cons, List.not_mem_nil, or_false] at hc
      rcases hc with rfl | rfl
      · exact hcounters _ (by decide) (by decide) (by decide)
      · exact hcounters _ (by decide) (by decide) (by decide)
    · rw [hshows.claimed, hshows.frames]
      exact Part.fetchNext_claims hidle
    · have heligible : (fun j => (r.nodeEvents j).eligible) = fun j =>
          !(s.part.nodeEvents j).fetched && !((s.act g).part.nodeEvents j).intake := by
        funext j
        rw [NodeEvents.eligible, hr.fetched j, ← (hstands.events j).2.2]
        rfl
      have hkeeps : r.KeepsTime (s.part.passTime dt) :=
        ⟨congrArg Loader.settings hr.loader, congrArg Scheduler.timer hr.sched, congrArg Scheduler.overrun hr.sched,
          congrArg Scheduler.interval hr.sched, congrArg Scheduler.cycle hr.sched, hr.takenRead⟩
      have hasked := (r.fetchNext_asked.shown hshows).leads (Part.behind_leadsAs hstands hkeeps)
      rw [heligible] at hasked
      exact (Part.passTime_fetchAsked _ _ _ _).mp hasked
  · have hkeeps := r.serviceNext_keeps
    obtain ⟨hrecords, -, -, -, -, -, -, -, -, hcounters, -, -, -, -, -, -, -, -, -, -, -, -, -, -, -, hqueue, -, -, -, -, happends, -⟩ :=
      hkeeps
    obtain ⟨htrecords, -⟩ := s.act_keeps g
    obtain ⟨htqueue, -, -, -, -, htappends⟩ := State.act_list hg
    have hstart : r.serviceNext.ladder.state ≠ .starting := by
      rcases r.serviceNext_ladderState with h | h
      · rw [h, hladder, hservice]
        nofun
      · rw [h]
        nofun
    have hworks := Part.serviceNext_works hidle (by rw [hladder]; exact hwait) (by rw [hladder]; exact hread)
    refine ⟨fun j => ?_, fun j => ?_, by rw [htqueue, hqueue], by rw [htappends, happends], fun c _ => ?_, ?_,
      fun hrun => absurd (hrun.symm.trans hservice) (by decide)⟩
    · rw [Part.node, htrecords, hg, hrecords]
      rfl
    · rw [State.act_marks hg, r.serviceNext_marks]
    · rw [State.act_counters, hg, Part.counter, hcounters]
      rfl
    · have hclaims := (Part.serviceNext_claims hidle).settle hstart fun hf _ => hworks hf
      rw [State.act_events, State.act_frames, hg]
      exact hclaims

end

/-! ## A GOOD FETCH -/

section
variable {s : State} {i : NodeIx} {ack : Option Byte} {f : Frame}

/-- The part as a GOOD FETCH has been answered by the node table, before the event itself is taken. -/
def Part.fetchAnswered (p : Part) (i : NodeIx) (ack : Option Byte) : Part := (p.confirmAck i ack).goodEvent i

/-- What the node table makes of a GOOD FETCH of a node in service. -/
theorem Part.fetchAnswered_taken {p : Part} (hin : (p.node i).state.inService = true) (ack : Option Byte) :
    let q := p.fetchAnswered i ack
    (∃ changes, q.node i =
      { p.node i with lastGood := p.sched.cycle, missCount := 0, state := .live, changeCount := changes }) ∧
      q.nodeEvents i =
        { p.nodeEvents i with ackOwed := (p.nodeEvents i).ackOwed && decide (ack ≠ some (p.nodeEvents i).accepted) } ∧
      q.events.queue = p.events.queue ∧ q.events.claimed = p.events.claimed ∧ q.events.appends = p.events.appends ∧
      q.faults = p.faults ∧ q.FetchKept p := by
  intro q
  let r := p.confirmAck i ack
  have hnode : r.node i = p.node i := by
    rw [Part.node, Part.confirmAck_records]
    rfl
  have hrin : (r.node i).state.inService = true := by rw [hnode]; exact hin
  obtain ⟨-, -, hsched, -, -, -, -, hfaults⟩ := p.confirmAck_keepsUnits i ack
  have hanswered : q = r.goodAnswer i id := Part.goodEvent_of_inService hrin
  have hevents : q.events = r.events := by
    rw [hanswered]
    exact Part.goodAnswer_keepsEvents id
  have happends : r.events.appends = p.events.appends := by
    unfold r Part.confirmAck
    (repeat' split) <;> rfl
  obtain ⟨changes, hanswer⟩ := Part.goodAnswer_node (p := r) (f := id) hrin rfl
  refine ⟨⟨changes, ?_⟩, ?_, by rw [hevents, p.confirmAck_queue], by rw [hevents, (p.confirmAck_keepsPlaces i ack).1],
    by rw [hevents, happends], ?_, (Part.goodEvent_fetchKept hrin).trans (p.confirmAck_fetchKept ack)⟩
  · rw [hanswered, hanswer, show r.sched = p.sched from hsched, id, hnode]
  · rw [Part.nodeEvents, hevents]
    exact p.confirmAck_nodeEvents i ack
  · rw [hanswered, Part.goodAnswer_faults]
    exact hfaults

/-- GUARD_END of a GOOD FETCH of a node in service. -/
theorem exec_fetchGood (hfetches : s.fetches) (hguard : s.part.frames.state = .guarding)
    (hex : s.part.frames.exchange = some (.fetch i ack)) (hout : s.part.frames.outcome = some .good)
    (hrx : s.part.frames.rx = some f) (hin : (s.part.node i).state.inService = true) (dt : Nat) :
    ∃ t r, exec (.guardEnd dt) s = .next t ∧ s.FetchEnded t dt r ∧
      r = ((s.part.returned dt).fetchAnswered i ack).fetchReply i f ∧
      (t.part.node i).state = .live ∧ (t.part.node i).missCount = 0 ∧ (t.part.node i).lastGood = s.part.sched.cycle := by
  obtain ⟨g, hexec, hg⟩ := exec_guardEnd_of_fetch hfetches hguard hex hout dt
  rw [if_pos rfl, hrx] at hg
  let p := s.part.returned dt
  let q := p.fetchAnswered i ack
  let r := q.fetchReply i f
  obtain ⟨⟨changes, hnode⟩, -, -, -, -, -, hkept⟩ := Part.fetchAnswered_taken (p := p) hin ack
  have hended : s.FetchEnded (s.act g) dt r := State.act_asked hg ((q.fetchReply_fetchKept f).trans hkept)
  have htnode : (s.act g).part.node i = q.node i := by
    rw [hended.node, Part.node, Part.fetchReply_records]
    rfl
  rw [hnode] at htnode
  exact ⟨_, r, hexec, hended, rfl, by rw [htnode], by rw [htnode], by rw [htnode]; rfl⟩

end

/-! ## A failed FETCH -/

section
variable {s : State} {i : NodeIx} {ack : Option Byte} {a : Attempt}

theorem Part.miss_fetched (p : Part) (i j : NodeIx) : ((p.miss i).nodeEvents j).fetched = (p.nodeEvents j).fetched := by
  have hmoved (q : Part) (f : NodeRecord → NodeRecord) (new : NodeState) :
      ((q.changeState i f new).nodeEvents j).fetched = (q.nodeEvents j).fetched := by
    rw [Part.nodeEvents, Part.changeState_events]
    split
    · change ((q.eventLeaves i).nodeEvents j).fetched = _
      rw [Part.eventLeaves_nodeEvents]
      split
      next h => rw [h]
      next => rfl
    · rfl
  unfold Part.miss
  dsimp only
  split
  · split
    · exact hmoved _ _ _
    · split
      · exact hmoved _ _ _
      · rw [Part.nodeEvents, Part.queueStatus_events]
        rfl
  · rfl

/-- GUARD_END of a FETCH whose last attempt failed: a miss, with the place released. -/
theorem exec_fetchMissed (hfetches : s.fetches) (hguard : s.part.frames.state = .guarding)
    (hex : s.part.frames.exchange = some (.fetch i ack)) (hout : s.part.frames.outcome = some a) (ha : a ≠ .good)
    (hlast : s.part.sched.attempts = 0) (dt : Nat) :
    ∃ t, exec (.guardEnd dt) s = .next t ∧ s.FetchEnded t dt ((s.part.returned dt).releasePlace.miss i) := by
  obtain ⟨g, hexec, hg⟩ := exec_guardEnd_of_fetch hfetches hguard hex hout dt
  rw [if_neg ha] at hg
  let q := (s.part.returned dt).releasePlace
  have hdone : s.asksAgain (g s.part) (q.miss i) := by
    rcases hg with ⟨hrun, hg⟩ | ⟨hservice, hg⟩
    · exact .inl ⟨hrun, hg.trans (if_pos hlast)⟩
    · exact .inr ⟨hservice, hg.trans (if_pos hlast)⟩
  obtain ⟨hladder, hsched, -, hloader, -, hexchange, -⟩ := q.miss_keepsOffNodes i
  have htaken : (q.miss i).events.takenRead = q.events.takenRead := by
    unfold Part.miss
    dsimp only
    split
    · split
      · exact Part.changeState_takenRead _ _
      · split
        · exact Part.changeState_takenRead _ _
        · rw [Part.queueStatus_events]
          rfl
    · rfl
  exact ⟨_, hexec, State.act_asked hdone ⟨hladder, hsched, hloader, hexchange, htaken, q.miss_fetched i⟩⟩

/-- GUARD_END of a FETCH that failed with attempts left. -/
theorem exec_fetchRetried (hfetches : s.fetches) (hguard : s.part.frames.state = .guarding)
    (hex : s.part.frames.exchange = some (.fetch i ack)) (hout : s.part.frames.outcome = some a) (ha : a ≠ .good)
    (hleft : 0 < s.part.sched.attempts) (dt : Nat) :
    ∃ t, exec (.guardEnd dt) s = .next t ∧
      let owed := (s.part.nodeEvents i).ackOwed
      let accepted := (s.part.nodeEvents i).accepted
      let fits := s.part.fitsIn dt (38 + s.part.replyTime i)
      (t.part.nodeEvents i).accepted = accepted ∧ (t.part.nodeEvents i).ackOwed = owed ∧
      t.part.table.records = s.part.table.records ∧ t.part.events.queue = s.part.events.queue ∧
      (s.part.ladder.state = .heldService ∨ fits →
        t.part.gives (.fetch i (if owed then some accepted else none))
          (encodeFrame .fetch (if owed then 1 else 0) (s.part.node i).applied.address [if owed then accepted else 0]) ∧
        t.part.sched.attempts = s.part.sched.attempts - 1 ∧ t.part.events.claimed = s.part.events.claimed) ∧
      (s.part.ladder.state = .run → ¬ fits →
        t.part.events.claimed = s.part.events.claimed - 1 ∧ s.part.parcelPhaseBegins t.part dt) := by
  obtain ⟨g, hexec, hg⟩ := exec_guardEnd_of_fetch hfetches hguard hex hout dt
  rw [if_neg ha] at hg
  let p := s.part.returned dt
  let q := (p.modSched fun c => { c with attempts := c.attempts - 1 }).giveFetch i
  have hfit : p.fits (p.fetchWorst i) = true ↔ s.part.fitsIn dt (38 + s.part.replyTime i) := s.part.fits_timeoutOf_iff dt i 38
  have hretry (hgiven : g s.part = q) : (s.act g).part.Settled q ∧ (s.act g).part.sched.attempts = s.part.sched.attempts - 1 := by
    obtain ⟨hstart, hworks⟩ := hfetches.works (l := q.ladder) rfl
    obtain ⟨-, -, -, -, hattempts, -⟩ := Part.settle_keepsLine_of_works hstart hworks
    refine ⟨State.act_settled_of_works hgiven hstart hworks, ?_⟩
    rw [State.act_sched, hgiven, hattempts]
    rfl
  have hgives (hgiven : g s.part = q) : (s.act g).part.gives (.fetch i (s.part.ackOf i))
      (fetchFrame (s.part.node i).applied.address (s.part.ackOf i)) := by
    rw [Part.gives, (hretry hgiven).1.frames]
    exact ⟨rfl, rfl, rfl, rfl⟩
  have hframe : fetchFrame (s.part.node i).applied.address (s.part.ackOf i) =
      encodeFrame .fetch (if (s.part.nodeEvents i).ackOwed then 1 else 0) (s.part.node i).applied.address
        [if (s.part.nodeEvents i).ackOwed then (s.part.nodeEvents i).accepted else 0] := by
    unfold fetchFrame ackFlag Part.ackOf
    dsimp only
    split <;> rfl
  rw [hframe] at hgives
  refine ⟨_, hexec, ?_⟩
  intro owed accepted fits
  have hchoice : g s.part = q ∧ (s.part.ladder.state = .run → fits) ∨
      s.part.ladder.state = .run ∧ ¬ fits ∧ g s.part = p.releasePlace.parcelPhase := by
    rcases hg with ⟨hrun, hg⟩ | ⟨⟨hservice, -⟩, hg⟩
    · by_cases hfits : fits
      · exact .inl ⟨hg.trans ((if_neg (Nat.ne_of_gt hleft)).trans (if_pos (hfit.mpr hfits))), fun _ => hfits⟩
      · exact .inr ⟨hrun, hfits, hg.trans ((if_neg (Nat.ne_of_gt hleft)).trans (if_neg fun h => hfits (hfit.mp h)))⟩
    · exact .inl ⟨hg.trans (if_neg (Nat.ne_of_gt hleft)), fun hrun => absurd (hrun.symm.trans hservice) (by decide)⟩
  rcases hchoice with ⟨hgiven, hfits⟩ | ⟨hrun, hfits, hreleased⟩
  · obtain ⟨hsettled, hattempts⟩ := hretry hgiven
    have hevents : (s.act g).part.nodeEvents i = s.part.nodeEvents i := by
      rw [Part.nodeEvents, hsettled.nodes]
      rfl
    exact ⟨congrArg NodeEvents.accepted hevents, congrArg NodeEvents.ackOwed hevents, hsettled.records, hsettled.queue,
      fun _ => ⟨hgives hgiven, hattempts, hsettled.claimed⟩, fun hrun hnot => absurd (hfits hrun) hnot⟩
  · have hladder : p.releasePlace.parcelPhase.ladder.state = .run := by
      rw [Part.parcelPhase_ladder]
      exact hrun
    have hstands := (State.act_stands hreleased hladder).trans (Part.parcelPhase_stands _)
    have hshows := State.act_shows hreleased (by rw [hladder]; nofun) (by rw [hladder]; nofun) (by rw [hladder]; rfl)
    obtain ⟨howed, haccepted, -⟩ := hstands.events i
    have hevents : p.releasePlace.parcelPhase.events = p.releasePlace.events := Part.parcelNext_events _
    refine ⟨haccepted, howed, hstands.records, hstands.queue, fun h => ?_, fun _ _ => ⟨?_, ?_⟩⟩
    · exact absurd h (not_or.mpr ⟨by rw [hrun]; nofun, hfits⟩)
    · rw [hshows.claimed, hevents]
      rfl
    · have hbegins := p.releasePlace.parcelPhase_begins.shown hshows
      exact (Part.passTime_parcelPhaseBegins _ _ _).mp hbegins

end

end Sys2Proof.Machine
end

section
/-! PROOF. The event list is kept (R11, R12, R38, R91, R95 to R107). -/

namespace Sys2Proof.Machine

section
variable {s : State} {i : NodeIx} {ack : Option Byte}

/-- APPEND_COMPLETE of the events-written word. -/
theorem exec_appendCompleteKept {x : Access} {a : Append} {rest : List Append} (hx : s.current = some x) (hsource : x.source = .append)
    (hp : s.part.ladder.softPending = false) (hpos : s.part.events.appending = some 8) (hlist : s.part.events.appends = a :: rest) :
    ∃ t, exec .appendComplete s = .next t ∧ t.part.events.written = s.part.events.written + 1 ∧
      t.part.counter .eventsAppended = s.part.counter .eventsAppended + 1 ∧ t.part.hasCause .event = true ∧
      (∀ i seq more, a.what = .event i seq more → a.void = false →
        (t.part.nodeEvents i).accepted = seq ∧ (t.part.nodeEvents i).valid = true ∧
        (t.part.nodeEvents i).ackOwed = true ∧ (t.part.nodeEvents i).intake = false) ∧
      (∀ i seq, a.what = .event i seq false → a.void = false → a.detached = false →
        (t.part.nodeEvents i).latch = false ∧ t.part.events.queue = s.part.events.queue.filter (· != i)) ∧
      (∀ i seq, a.what = .event i seq true → a.void = false → a.detached = false →
        (t.part.nodeEvents i).latch = (s.part.nodeEvents i).latch ∧
        ((s.part.nodeEvents i).latch = true →
          t.part.events.queue = s.part.events.queue.filter (· != i) ++ [i])) ∧
      (∀ address count, a.what = .note address count →
        let strays := if a.void then s.part.windows.strays else s.part.windows.strays.map fun e =>
          if e.address = address then { e with lastNote := count, pendingNote := decide (2 * count ≤ e.count) } else e
        let offered := s.part.ladder.state.worksMemory = true ∧ s.part.events.takenInvalid = false ∧
          s.part.events.appendStopped = false ∧
          (s.part.events.written + 1 - s.part.events.taken).toNat + (s.part.events.claimed - 1) < 64
        t.part.windows.strays = strays ∧
        (∀ e, offered → strays.find? (·.pendingNote) = some e → t.part.events.noteUnderWay = true ∧
          t.part.events.appends = rest ++
            [{ what := .note e.address e.count,
               record := eventRecord 3 e.address 0 (BitVec.ofNat 16 e.count) s.part.sched.cycle [e.origin.code, e.kind],
               detached := false, void := false }] ∧
          (s.part.ladder.state ≠ .heldService → t.part.events.claimed = s.part.events.claimed - 1 + 1)) ∧
        (¬ offered ∨ strays.find? (·.pendingNote) = none → t.part.events.noteUnderWay = false ∧
          t.part.events.appends = rest ∧
          (s.part.ladder.state ≠ .heldService → t.part.events.claimed = s.part.events.claimed - 1))) := by
  obtain ⟨f, hexec, hf⟩ := exec_appendCompletes hx hsource hp hpos hlist
  let p := s.begun x none 0
  obtain ⟨hwritten, hcause, hcounter⟩ := p.appendPublished_published a
  obtain ⟨-, htwritten, -⟩ := State.act_list hf
  refine ⟨_, hexec, htwritten.trans hwritten, ?_, ?_, fun i seq more hwhat hvoid => ?_, fun i seq hwhat hvoid hdetached => ?_,
    fun i seq hwhat hvoid hdetached => ?_, fun address count hwhat => exec_noteAppended rfl hf hlist hwhat⟩
  · rw [State.act_counters, hf]
    exact hcounter
  · rw [State.act_hasCause _ _ _ (by decide), hf]
    exact hcause
  · obtain ⟨haccepted, hvalid, howed, hintake, -⟩ := exec_eventAppended rfl hf hwhat hvoid
    exact ⟨haccepted, hvalid, howed, hintake⟩
  · obtain ⟨-, -, -, -, hlatch, hqueue⟩ := exec_eventAppended rfl hf hwhat hvoid
    rw [hdetached] at hlatch
    exact ⟨hlatch, hqueue hdetached⟩
  · obtain ⟨-, -, -, -, hlatch, hqueue⟩ := exec_eventAppended rfl hf hwhat hvoid
    rw [hdetached] at hlatch
    exact ⟨hlatch, fun h => (hqueue hdetached).trans ((if_pos rfl).trans (if_pos h))⟩

end

/-- Settles O55: an append published (`exec_appendCompleteKept`) or given up (`exec_noteAppendFails`), the events-taken word read
(`exec_eventsTakenReads`), and a FETCH's outcome by its EVENT (`exec_fetchGood`) or by the attempts left (`exec_fetchMissed`,
`exec_fetchRetried`). -/
theorem eventListKept : Obligations.EventListKept := by
  unfold Obligations.EventListKept
  dsimp only
  refine ⟨fun s x a rest hx hsource hp hpos hlist => exec_appendCompleteKept hx hsource hp hpos hlist,
    fun s x a rest pos address count dt hx hsource hp hstart hpos hbefore hlist hwhat =>
      exec_noteAppendFails hx hsource hp hstart hpos hbefore hlist hwhat dt,
    fun s x r host dt w hx hsource hp hr hw => exec_eventsTakenReads hx hsource hp hr hw dt,
    fun s i ack f dt hfetches hguard hex hout hrx hin => ?_, fun s i ack a dt hfetches hguard hex hout ha hin => ?_⟩
  · obtain ⟨t, r, hexec, hended, hr, hlive, hmiss, hgood⟩ :=
      exec_fetchGood hfetches hguard hex hout hrx (NodeState.inService_of hin) dt
    let q := (s.part.returned dt).fetchAnswered i ack
    obtain ⟨⟨changes, hnode⟩, hevents, hqueue, hclaimed, happends, hfaults, hkept⟩ :=
      Part.fetchAnswered_taken (p := s.part.returned dt) (i := i) (NodeState.inService_of hin) ack
    obtain ⟨hlatch, haccepted, -, howed, hintake⟩ := NodeEvents.of_marks (hended.marks i)
    have hvalid : (q.nodeEvents i).valid = (s.part.nodeEvents i).valid := (congrArg NodeEvents.valid hevents).trans rfl
    have hlast : (q.nodeEvents i).accepted = (s.part.nodeEvents i).accepted := (congrArg NodeEvents.accepted hevents).trans rfl
    have hqlatch : (q.nodeEvents i).latch = (s.part.nodeEvents i).latch := (congrArg NodeEvents.latch hevents).trans rfl
    have hconfirmed : (q.nodeEvents i).ackOwed =
        ((s.part.nodeEvents i).ackOwed && decide (ack ≠ some (s.part.nodeEvents i).accepted)) :=
      (congrArg NodeEvents.ackOwed hevents).trans rfl
    have hcount : t.part.counter .eventDuplicates = r.counter .eventDuplicates := hended.counter _ (by simp)
    refine ⟨t, hexec, hlive, hmiss, hgood, ?_⟩
    have hclaims := hended.claims
    have hasked := hended.asked
    by_cases hflag : f.flag 0 = true
    · obtain ⟨hrclaimed, hrappends, hrqueue, hrnode⟩ := Part.fetchReply_noneTaken (p := q) (i := i) hflag
      rw [← hr] at hrclaimed hrappends hrqueue hrnode
      rw [hrclaimed, hclaimed] at hclaims hasked
      rw [hrnode] at hlatch haccepted howed
      refine ⟨haccepted.trans hlast, fun hrun => ?_, fun _ => ⟨?_, hclaims⟩, fun _ => ⟨hlatch, ?_, howed.trans hconfirmed⟩,
        fun h => absurd (h.symm.trans hflag) (by decide), fun h => absurd (h.symm.trans hflag) (by decide)⟩
      · rw [if_pos (.inl hflag)]
        exact hasked hrun
      · rw [hended.appends, hrappends, happends]
        rfl
      · rw [hended.queue, hrqueue, hqueue]
        rfl
    · have hclear : f.flag 0 = false := Bool.eq_false_iff.mpr hflag
      by_cases hdup : (s.part.nodeEvents i).valid = true ∧ payloadByte f.payload 0 = (s.part.nodeEvents i).accepted
      · obtain ⟨hrclaimed, hrappends, hrnode, hrcount, hrqueue⟩ :=
          Part.fetchReply_duplicateTaken (p := q) hclear (hvalid.trans hdup.1) (hdup.2.trans hlast.symm)
        rw [← hr] at hrclaimed hrappends hrqueue hrnode hrcount
        rw [hrclaimed, hclaimed] at hclaims hasked
        rw [hrnode] at hlatch haccepted howed
        refine ⟨haccepted.trans hlast, fun hrun => ?_, fun _ => ⟨?_, hclaims⟩, fun h => absurd h hflag,
          fun _ _ => ⟨?_, howed, hlatch.trans hqlatch, fun h => ?_⟩, fun _ hnew => absurd hdup hnew⟩
        · rw [if_pos (.inr hdup)]
          exact hasked hrun
        · rw [hended.appends, hrappends, happends]
          rfl
        · rw [hcount, hrcount, Part.counter, hfaults]
          rfl
        · rw [hended.queue, hrqueue (hqlatch.trans h), hqueue]
          rfl
      · obtain ⟨hrclaimed, hrqueue, hrnode, hrappends⟩ :=
          Part.fetchReply_newTaken (p := q) hclear (by rw [hvalid, hlast]; exact hdup)
        rw [← hr] at hrclaimed hrappends hrqueue hrnode
        rw [hrclaimed, hclaimed] at hclaims hasked
        rw [hrnode] at hlatch haccepted howed hintake
        have horigin : (q.nodeEvents i).origin = (s.part.nodeEvents i).origin := (congrArg NodeEvents.origin hevents).trans rfl
        have happlied : (q.node i).applied = (s.part.node i).applied := (congrArg NodeRecord.applied hnode).trans rfl
        have hcycle : q.sched.cycle = s.part.sched.cycle := (congrArg Scheduler.cycle hkept.sched).trans rfl
        have hneither := not_or.mpr ⟨hflag, hdup⟩
        refine ⟨haccepted.trans hlast, fun hrun => ?_, fun h => absurd h hneither, fun h => absurd h hflag,
          fun _ h => absurd h hdup, fun _ _ => ⟨hintake, howed.trans hconfirmed, hlatch.trans hqlatch, ?_, ?_, hclaims⟩⟩
        · rw [if_neg hneither]
          exact hasked hrun
        · rw [hended.queue, hrqueue, hqueue]
          rfl
        · rw [hended.appends, hrappends, happends, horigin, happlied, hcycle]
          rfl
  · rcases Nat.eq_zero_or_pos s.part.sched.attempts with hlast | hleft
    · obtain ⟨t, hexec, hended⟩ := exec_fetchMissed hfetches hguard hex hout ha hlast dt
      let q := (s.part.returned dt).releasePlace
      have hmissed : (q.miss i).MissTaken q i := Part.miss_missTaken (p := q) (NodeState.inService_of hin)
      obtain ⟨hlatch, haccepted, -, howed, -⟩ := NodeEvents.of_marks (hended.marks i)
      have hnode := hended.node i
      have hclaims := hended.claims
      have hasked := hended.asked
      rw [show ((s.part.returned dt).releasePlace.miss i).events.claimed = q.events.claimed from hmissed.places.1] at hclaims hasked
      refine ⟨t, hexec, haccepted.trans hmissed.events.2, howed.trans hmissed.events.1,
        fun _ => ⟨by rw [hnode]; exact hmissed.missCount, ?_, hasked, hclaims, fun hbelow => ?_, fun hlimit => ?_⟩,
        fun h => absurd hlast (by omega)⟩
      · rw [hended.counter _ (by simp)]
        exact hmissed.counter .nodeMisses
      · obtain ⟨hstate, -, hevents⟩ := hmissed.stays hbelow
        have hsame : ((q.miss i).nodeEvents i).latch = (s.part.nodeEvents i).latch := by
          rw [Part.nodeEvents, hevents]
          rfl
        exact ⟨by rw [hnode]; exact hstate, by rw [hended.queue]; exact (congrArg EventUnit.queue hevents).trans rfl, hlatch.trans hsame⟩
      · obtain ⟨hstate, -, -, hqueue, hevents⟩ := hmissed.lost hlimit
        exact ⟨by rw [hnode]; exact hstate, by rw [hended.queue]; exact hqueue, hlatch.trans (congrArg NodeEvents.latch hevents)⟩
    · obtain ⟨t, hexec, haccepted, howed, hrecords, hqueue, hgiven, hreleased⟩ :=
        exec_fetchRetried hfetches hguard hex hout ha hleft dt
      exact ⟨t, hexec, haccepted, howed, fun h => absurd hleft (by omega), fun _ => ⟨hrecords, hqueue, hgiven, hreleased⟩⟩

end Sys2Proof.Machine
end

section
/-! SUPPORT. Start-up (R149): what a step of it leaves after its event, how it passes on, how it fails, and how it ends. -/

namespace Sys2Proof.Machine

section
variable {s : State} {x : Access}

theorem State.current_of_starting (hstart : s.part.ladder.state = .starting) (hx : s.part.bus.head? = some x) : s.current = some x := by
  rw [State.current, hstart]
  exact (if_pos rfl).trans hx

theorem exec_startupStepComplete (hx : s.current = some x) (hp : s.part.ladder.softPending = false)
    (hstart : s.part.ladder.state = .starting) (host : Option Word) :
    ∃ f : Part → Part, exec (.startupStepComplete host) s = .next ((s.afterWord x host).act f) ∧
      f (s.afterWord x host).part = (s.begun x host 0).accessDone x.source (s.wordOf x host) := by
  obtain ⟨f, heq, hf⟩ := completeIf_ends hx hp (mine := fun _ => s.part.ladder.state == .starting)
    (by rw [hstart]; rfl) host 0
  exact ⟨f, by change execStartupStepComplete host s = _; rw [execStartupStepComplete, heq], hf⟩

/-- In STARTING both commands that complete an access hand its word to the block that asked for it. -/
theorem exec_starting_ends (hx : s.current = some x) (hp : s.part.ladder.softPending = false)
    (hstart : s.part.ladder.state = .starting) {host : Option Word} {dt : Nat} {command : Instr}
    (hcommand : command ∈ [Instr.startupStepComplete host, .memoryAccessComplete host dt]) :
    ∃ (f : Part → Part) (dt' : Nat), exec command s = .next ((s.afterWord x host).act f) ∧
      f (s.afterWord x host).part = (s.begun x host dt').accessDone x.source (s.wordOf x host) := by
  rcases List.mem_pair.mp hcommand with rfl | rfl
  · obtain ⟨f, hexec, hf⟩ := exec_startupStepComplete hx hp hstart host
    exact ⟨f, 0, hexec, hf⟩
  · obtain ⟨f, hexec, hf⟩ := exec_accessEnds hx hp host dt
    exact ⟨f, dt, hexec, hf⟩

end

/-! ## A step's end, and a failure -/

section
variable {s : State} {f : Part → Part} {q : Part} {u : Startup} {pos : StartPos} {offset : Nat} {w : Word}

theorem Part.startupWaits_of_pos (hu : q.ladder.startup = some u) (hpos : u.pos ≠ .commit) : q.startupWaits := by
  rintro v hv ⟨-, hcommit, -⟩
  cases hu.symm.trans hv
  exact hpos hcommit

theorem State.act_ladder_of_waits (hf : f s.part = q) (hwaits : q.startupWaits) (hservice : q.ladder.state ≠ .heldService) :
    (s.act f).part.ladder = q.ladder := by
  rw [State.act_ladder, hf, Part.settle_ladder_of_works q hwaits fun h => absurd h hservice]

/-- Where start-up stands after an event, and the access it stands at. -/
structure State.StartsAt (t : State) (l : Ladder) (v : Startup) (a : Access) : Prop where
  ladder : t.part.ladder = { l with startup := some v }
  asked : a ∈ t.part.bus

/-- An access that a start-up still under way asks for is on the list after the event. -/
theorem State.act_startsAt {v : Startup} {a : Access} (hf : f s.part = q) (ha : a ∈ q.bus) (hstart : q.ladder.state = .starting)
    (hu : q.ladder.startup = some v) (hpos : v.pos ≠ .commit) : (s.act f).StartsAt q.ladder v a := by
  have hladder : (s.act f).part.ladder = q.ladder :=
    State.act_ladder_of_waits hf (Part.startupWaits_of_pos hu hpos) (by rw [hstart]; nofun)
  obtain ⟨-, hbus⟩ := s.act_asks f (by rw [hf]; exact ha)
  exact ⟨by rw [hladder, ← hu], hbus (by rw [hladder, hstart]; rfl)⟩

theorem State.act_startupRead (hf : f s.part = q.startupRead u pos offset) (hstart : q.ladder.state = .starting)
    (hpos : pos ≠ .commit) :
    (s.act f).StartsAt q.ladder { u with pos := pos } { offset := offset, write := none, source := .startup } := by
  obtain ⟨hladder, hasked⟩ := State.act_startsAt hf (Part.mem_issueRead _ .startup offset) hstart rfl hpos
  exact ⟨hladder, hasked⟩

theorem State.act_startupWrite (hf : f s.part = q.startupWrite u pos offset w) (hstart : q.ladder.state = .starting)
    (hpos : pos ≠ .commit) :
    (s.act f).StartsAt q.ladder { u with pos := pos } { offset := offset, write := some w, source := .startup } := by
  obtain ⟨hladder, hasked⟩ := State.act_startsAt hf (Part.mem_issueWrite _ .startup offset w) hstart rfl hpos
  exact ⟨hladder, hasked⟩

theorem State.act_startupFail (hf : f s.part = q.startupFail) :
    (s.act f).part.ladder = { q.ladder with state := .idle, pending := none, startup := none } := by
  obtain ⟨hladder, -⟩ := s.act_keepsLine f (by rw [hf]; nofun) (by rw [hf]; nofun)
  rw [hladder, hf]
  rfl

theorem State.act_hasCause_of_eq {b : CauseBit} (hf : f s.part = q) (h : b ≠ .node) :
    (s.act f).part.hasCause b = q.hasCause b := by rw [State.act_hasCause _ _ _ h, hf]

/-- A failure that reports a fault captures it where none was captured. -/
theorem State.act_startupFail_reported {code : FaultCode} {detail : Half} (hf : f s.part = (q.report code detail).startupFail) :
    (s.act f).part.hasCause .fault = true ∧ (q.hasCause .fault = false →
      (s.act f).part.faults.capture.code = code.code ∧ (s.act f).part.faults.capture.detail = detail) := by
  refine ⟨?_, fun h => ?_⟩
  · rw [State.act_hasCause_of_eq hf (by decide)]
    exact q.report_hasFault code detail
  · rw [State.act_capture, hf]
    change (q.report code detail).faults.capture.code = _ ∧ (q.report code detail).faults.capture.detail = _
    rw [Part.report_capture, h]
    exact ⟨rfl, rfl⟩

/-! ## The sweep passes on (R131) -/

theorem State.act_sweepNext {s₀ : State} {slot : SlotIx} (hf : f s.part = q.sweepNext u slot) (hstart : q.ladder.state = .starting)
    (hladder : q.ladder = s₀.part.ladder) :
    (s.act f).part.ladder.state = .starting ∧ (s.act f).part.ladder.pending = s₀.part.ladder.pending ∧
      u.sweepPasses slot s₀ (s.act f) := by
  unfold Part.sweepNext at hf
  unfold Startup.sweepPasses
  by_cases hlast : slot.val < 15
  · rw [if_pos hlast] at hf ⊢
    obtain ⟨h, -⟩ := State.act_startupRead hf hstart nofun
    rw [h, ← hladder]
    exact ⟨hstart, rfl, rfl⟩
  · rw [if_neg hlast] at hf ⊢
    let r := if u.swept then q.setCause .parcel else q
    have hr : r.ladder = q.ladder := by
      unfold r
      split <;> rfl
    obtain ⟨h, hasked⟩ := State.act_startupWrite (q := r.modLadder fun l => { l with startCount := l.startCount + 1 }) hf
      (by rw [← hstart, ← hr]; rfl) nofun
    have hcause : u.swept = true → (s.act f).part.hasCause .parcel = true := fun hswept => by
      have hset : r = q.setCause .parcel := if_pos hswept
      rw [State.act_hasCause_of_eq hf (by decide)]
      change r.hasCause .parcel = true
      rw [hset, Part.setCause_hasCause]
      simp
    rw [h, ← hladder, ← hr]
    refine ⟨by rw [← hstart, ← hr]; rfl, rfl, rfl, rfl, hcause, hasked⟩

end

/-! ## The words of a status record (R25, R110) -/

section
variable (p : Part) (u : Startup) (i : NodeIx) (k : Nat) (w : Word)

theorem Part.keepStatusWord_units : (p.keepStatusWord u i k w).1.ladder = p.ladder ∧
    (p.keepStatusWord u i k w).2.version = u.version ∧ (p.keepStatusWord u i k w).2.newest = u.newest ∧
    (p.keepStatusWord u i k w).2.swept = u.swept := by
  unfold Part.keepStatusWord
  (repeat' split) <;> exact ⟨rfl, rfl, rfl, rfl⟩

theorem Part.keepStatusWord_changeCount (h : k = 1) : ((p.keepStatusWord u i k w).1.node i).changeCount = halfAt w 0 := by
  subst h
  exact congrArg NodeRecord.changeCount (p.modNode_node_self i _)

theorem Part.keepStatusWord_kept (j : NodeIx) : (p.keepStatusWord u i k w).2.kept.get j =
    if j ≠ i then u.kept.get j
    else if k = 0 then { u.kept.get i with address := byteAt w 0 }
    else if k = 3 then { u.kept.get i with accepted := byteAt w 0, valid := w.getLsbD 8 }
    else u.kept.get i := by
  have hmodified (g : KeptStatus → KeptStatus) :
      (tabModify u.kept i g).get j = if j ≠ i then u.kept.get j else g (u.kept.get i) := by
    rw [tabModify_get, ite_not]
    simp only [eq_comm]
  unfold Part.keepStatusWord
  split
  next h => exact hmodified _
  next hzero =>
    split
    next hone =>
      subst hone
      by_cases hj : j = i
      · rw [hj, if_neg (by simp)]
        rfl
      · exact (if_pos hj).symm
    next =>
      split
      next h => exact hmodified _
      next =>
        by_cases hj : j = i
        · rw [hj, if_neg (by simp)]
        · exact (if_pos hj).symm

end

/-! ## The end of the start-up commit (R144) -/

section
variable {p : Part} {u : Startup}

/-- The check over, `settle` comes to the sweep or to the failure, and leaves it at that. -/
theorem Part.settle_of_commitEnded (hstate : p.ladder.state ≠ .heldService) (hcheck : p.loader.check = none) :
    ∃ r : Part, r.ladder = p.ladder ∧ r.loader = p.loader ∧ p.settle.ladder = r.settleStartup.ladder ∧
      p.settle.loader = r.settleStartup.loader ∧ p.settle.Extends r.settleStartup := by
  let r := p.settleNodeOpen
  have hladder : r.ladder = p.ladder := by simp [r]
  have hloader : r.loader = p.loader := p.settleNodeOpen_loader
  have hdone : r.settleCheck = r := Part.settleCheck_of_other r fun c hc => by
    rw [hloader, hcheck] at hc
    cases hc
  have hstart : r.settleStartup.ladder.state ≠ .heldService := by
    rw [← hladder] at hstate
    unfold Part.settleStartup
    split
    · split
      · split
        · exact hstate
        · rw [Part.startupFail_ladderState]
          nofun
      · exact hstate
    · exact hstate
  have hsettle : p.settle = r.settleStartup.settleParcelOpen.settleSnapshot.startAppend := by
    change r.settleCheck.settleStartup.settleParcelOpen.settleSnapshot.startAppend.settleService = _
    rw [hdone, Part.settleService_of_works]
    intro h
    simp [hstart] at h
  rw [hsettle]
  refine ⟨r, hladder, hloader, by simp, by simp [Part.settleParcelOpen_units], ?_⟩
  exact (Part.settleParcelOpen_extends _).trans ((Part.settleSnapshot_extends _).trans (Part.startAppend_extends _))

theorem Part.settleStartup_of_ended (hstart : p.ladder.state = .starting) (hu : p.ladder.startup = some u) (hpos : u.pos = .commit)
    (hcheck : p.loader.check = none) : p.settleStartup =
      if p.loader.verdict.code = .accepted then p.startupRead u (.sweepAsk 0) (Config.offSlot 0) else p.startupFail := by
  rw [Part.settleStartup, hu]
  exact if_pos ⟨hstart, hpos, hcheck⟩

variable {s : State} {f : Part → Part} {q : Part}

theorem State.act_commitEnded_accepted (hf : f s.part = q) (hstart : q.ladder.state = .starting) (hu : q.ladder.startup = some u)
    (hpos : u.pos = .commit) (hcheck : q.loader.check = none) (h : q.loader.verdict.code = .accepted) :
    (s.act f).StartsAt q.ladder { u with pos := .sweepAsk 0 } { offset := 0x2000, write := none, source := .startup } ∧
      (s.act f).part.loader.check = none := by
  subst hf
  obtain ⟨r, hladder, hloader, hsettled, hkept, hbus⟩ := Part.settle_of_commitEnded (p := f s.part) (by rw [hstart]; nofun) hcheck
  rw [Part.settleStartup_of_ended (p := r) (by rw [hladder, hstart]) (by rw [hladder, hu]) hpos (by rw [hloader, hcheck]), hloader,
    if_pos h] at hsettled hkept hbus
  have hstands : (s.act f).part.ladder = { (f s.part).ladder with startup := some { u with pos := .sweepAsk 0 } } := by
    rw [State.act_ladder, hsettled, ← hladder]
    rfl
  obtain ⟨-, hasked⟩ := State.act_asks_settled (s := s) (f := f) (hbus.subset (Part.mem_issueRead _ .startup (Config.offSlot 0)))
  refine ⟨⟨hstands, hasked (by rw [hstands]; exact congrArg LadderState.pauses hstart)⟩, ?_⟩
  rw [State.act_loader, hkept]
  exact (congrArg Loader.check hloader).trans hcheck

theorem State.act_commitEnded_refused (hf : f s.part = q) (hstart : q.ladder.state = .starting) (hu : q.ladder.startup = some u)
    (hpos : u.pos = .commit) (hcheck : q.loader.check = none) (h : q.loader.verdict.code ≠ .accepted) :
    (s.act f).part.ladder = { q.ladder with state := .idle, pending := none, startup := none } := by
  subst hf
  obtain ⟨r, hladder, hloader, hsettled, -⟩ := Part.settle_of_commitEnded (p := f s.part) (by rw [hstart]; nofun) hcheck
  rw [Part.settleStartup_of_ended (p := r) (by rw [hladder, hstart]) (by rw [hladder, hu]) hpos (by rw [hloader, hcheck]), hloader,
    if_neg h] at hsettled
  rw [State.act_ladder, hsettled, ← hladder]
  rfl

end

end Sys2Proof.Machine
end

section
/-! SUPPORT. The steps of start-up by its positions (R149, steps 2 to 7). -/

namespace Sys2Proof.Machine

/-! ## An equation per position -/

section
variable {p : Part} {u : Startup} (hu : p.ladder.startup = some u) (w : Word)
include hu

theorem Part.startupStep_version (hpos : u.pos = .version) :
    p.startupStep w = p.startupRead { u with version := w } .stateWord Config.offState := by
  simp only [Part.startupStep, hu, hpos]

theorem Part.startupStep_stateWord (hpos : u.pos = .stateWord) : p.startupStep w =
    if u.version = 1 then
      (p.modLadder fun l => { l with startCount := halfAt w 1 }).startupRead u .inUse Config.offOutputInUse
    else (p.report .areaLayout 2).startupFail := by
  simp only [Part.startupStep, hu, hpos]

theorem Part.startupStep_inUse (hpos : u.pos = .inUse) : p.startupStep w =
    Part.startupRead { p with images := { p.images with countTaken := w.extractLsb' 8 24 } } u .inputPublish
      Config.offInputPublish := by
  simp only [Part.startupStep, hu, hpos]

theorem Part.startupStep_inputPublish (hpos : u.pos = .inputPublish) : p.startupStep w =
    Part.startupRead { p with images :=
      { p.images with publishCount := w.extractLsb' 8 24, lastPublished := bankOf (byteAt w 0) } } u .eventsWritten
      Config.offEventsWritten := by
  simp only [Part.startupStep, hu, hpos]

theorem Part.startupStep_eventsWritten (hpos : u.pos = .eventsWritten) : ∃ offset, p.startupStep w =
    Part.startupRead { p with events := { p.events with written := w, taken := w - 64 } } u
      (if w = 0 then .status 0 0 else .newest 0) offset := by
  simp only [Part.startupStep, hu, hpos]
  split <;> exact ⟨_, rfl⟩

theorem Part.startupStep_newest {k : Fin 8} (hpos : u.pos = .newest k) : ∃ offset, p.startupStep w =
    p.startupRead { u with newest := if k = 0 then some w else u.newest }
      (if k.val < 7 then .newest (k + 1) else .status 0 0) offset := by
  simp only [Part.startupStep, hu, hpos]
  by_cases hfirst : k = 0
  · rw [if_pos hfirst]
    split <;> exact ⟨_, rfl⟩
  · rw [if_neg hfirst]
    split <;> exact ⟨_, rfl⟩

theorem Part.startupStep_status {i : NodeIx} {k : Fin 6} (hpos : u.pos = .status i k) :
    (k.val < 5 → ∃ offset, p.startupStep w =
      (p.keepStatusWord u i k.val w).1.startupRead (p.keepStatusWord u i k.val w).2 (.status i (k + 1)) offset) ∧
    (k.val = 5 → i.val < 47 → ∃ offset, p.startupStep w =
      (p.keepStatusWord u i k.val w).1.startupRead (p.keepStatusWord u i k.val w).2 (.status (i + 1) 0) offset) ∧
    (k.val = 5 → i.val = 47 → p.startupStep w =
      ((p.keepStatusWord u i k.val w).1.modLadder fun l =>
        { l with startup := some { (p.keepStatusWord u i k.val w).2 with pos := .commit } }).beginCheck .startup) := by
  simp only [Part.startupStep, hu, hpos]
  refine ⟨fun h => ?_, fun h hi => ?_, fun h hi => ?_⟩
  · rw [if_pos h]
    exact ⟨_, rfl⟩
  · rw [if_neg (by omega), if_pos hi]
    exact ⟨_, rfl⟩
  · rw [if_neg (by omega), if_neg (by omega)]

theorem Part.startupStep_commit (hpos : u.pos = .commit) : p.startupStep w = p := by
  simp only [Part.startupStep, hu, hpos]

theorem Part.startupStep_sweepAsk {slot : SlotIx} (hpos : u.pos = .sweepAsk slot) :
    p.startupStep w = p.startupRead u (.sweepTaken slot (halfAt w 0)) (Config.offSlot slot.val + 0x100) := by
  simp only [Part.startupStep, hu, hpos]

theorem Part.startupStep_sweepTaken {slot : SlotIx} {ask : Half} (hpos : u.pos = .sweepTaken slot ask) :
    p.startupStep w = p.startupRead u (.sweepAnswer slot ask (halfAt w 0)) (Config.offSlot slot.val + 0x104) := by
  simp only [Part.startupStep, hu, hpos]

theorem Part.startupStep_sweepAnswer {slot : SlotIx} {ask taken : Half} (hpos : u.pos = .sweepAnswer slot ask taken) :
    p.startupStep w =
      if taken = ask ∧ halfAt w 0 ≠ taken then
        p.startupWrite u (.sweepOutcome slot taken) (Config.offSlot slot.val + 0x108) (answerWord .interrupted 0 0)
      else p.sweepNext u slot := by
  simp only [Part.startupStep, hu, hpos]

theorem Part.startupStep_sweepOutcome {slot : SlotIx} {taken : Half} (hpos : u.pos = .sweepOutcome slot taken) :
    p.startupStep w = p.startupWrite u (.sweepNumber slot taken) (Config.offSlot slot.val + 0x104) (0#16 ++ taken) := by
  simp only [Part.startupStep, hu, hpos]

theorem Part.startupStep_sweepNumber {slot : SlotIx} {taken : Half} (hpos : u.pos = .sweepNumber slot taken) :
    p.startupStep w = (p.count .parcelsOtherwise).sweepNext { u with swept := true } slot := by
  simp only [Part.startupStep, hu, hpos]

theorem Part.startupStep_finalWord (hpos : u.pos = .finalWord) : p.startupStep w = p.startupDone w := by
  simp only [Part.startupStep, hu, hpos]

end

/-! ## What the exchange area says (R68, R110) -/

theorem bankOf_eq_some_iff (w : Byte) (b : Bank) : bankOf w = some b ↔ w.toNat = b.val := by
  unfold bankOf
  split
  next h => simp [h, Fin.ext_iff]
  next hzero =>
    split
    next h => simp [h, Fin.ext_iff]
    next hone =>
      split
      next h => simp [h, Fin.ext_iff]
      next htwo =>
        have hb := b.isLt
        refine ⟨nofun, fun h => ?_⟩
        bv_omega

/-! ## The end of start-up (R149, step 7; R150) -/

section
variable {s : State} {f : Part → Part} {q : Part} {named : Bool}

/-- HELD entered: the HOLD frame given. -/
theorem State.act_enterHeld (hf : f s.part = q.enterHeld named) :
    (s.act f).part.ladder = { q.ladder with state := .held, holdSent := false, heldNamed := named } ∧
      (s.act f).part.frames.tx = encodeFrame .hold 0 0 [] ∧ (s.act f).part.images = q.images ∧
      (s.act f).part.parcels = q.parcels := by
  obtain ⟨hladder, hframes, -⟩ := s.act_keepsLine f (by rw [hf, Part.enterHeld_ladderState]; nofun)
    (by rw [hf, Part.enterHeld_ladderState]; nofun)
  refine ⟨hladder.trans (by rw [hf]; rfl), by rw [hframes, hf]; rfl, by rw [State.act_images_kept, hf]; rfl, ?_⟩
  rw [State.act_parcels, Part.settle_parcels _ (by rw [hf, Part.enterHeld_ladderState]; nofun), hf]
  rfl

/-- Step 7 over, before the rung is entered. -/
theorem Part.startupDone_cases (p : Part) (w : Word) : ∃ r : Part,
    r.ladder = { p.ladder with startup := none } ∧ r.images = { p.images with takeOwed := true } ∧
      r.parcels = { p.parcels with scanOwed := true } ∧ r.sched = p.sched ∧
      (p.ladder.pending = some .run → p.startupDone w = r.enterRun) ∧
      (p.ladder.pending = some .hold →
        p.startupDone w = (r.modLadder fun l => { l with pending := none }).enterHeld true) ∧
      (p.ladder.pending ≠ some .run → p.ladder.pending ≠ some .hold → p.startupDone w = r.enterHeld false) := by
  let r₀ : Part := { p with
    ladder := { p.ladder with startup := none }
    images := { p.images with takeOwed := true }
    parcels := { p.parcels with scanOwed := true } }
  let target := startupTarget p.ladder.pending
  let r := if w = stateWord target p.ladder.startCount then r₀ else r₀.writeState target
  have hr : r.ladder = r₀.ladder ∧ r.images = r₀.images ∧ r.parcels = r₀.parcels ∧ r.sched = r₀.sched := by
    unfold r
    split <;> exact ⟨rfl, rfl, rfl, rfl⟩
  obtain ⟨hladder, himages, hparcels, hsched⟩ := hr
  refine ⟨r, hladder, himages, hparcels, hsched, ?_⟩
  have hdone : p.startupDone w = match r.ladder.pending with
      | some .run => r.enterRun
      | some .hold => (r.modLadder fun l => { l with pending := none }).enterHeld true
      | some .rest | some .still | none => r.enterHeld false := rfl
  have hpending : r.ladder.pending = p.ladder.pending := by rw [hladder]
  rw [hdone, hpending]
  refine ⟨fun h => by rw [h], fun h => by rw [h], fun hrun hhold => ?_⟩
  split
  next h => exact absurd h hrun
  next h => exact absurd h hhold
  all_goals rfl

end

end Sys2Proof.Machine
end

section
/-! SUPPORT. Start-up from a request to the rung it leads to (R149): O43. -/

namespace Sys2Proof.Machine

section
variable {s : State} {f : Part → Part} {p : Part} {u : Startup} {w : Word}

theorem State.act_startupStep_status {i : NodeIx} {k : Fin 6} (hf : f s.part = p.startupStep w) (hu : p.ladder.startup = some u)
    (hpos : u.pos = .status i k) (hstart : p.ladder.state = .starting) :
    let kept := (p.keepStatusWord u i k.val w).2
    let pos : StartPos := if k.val < 5 then .status i (k + 1) else if i.val < 47 then .status (i + 1) 0 else .commit
    (s.act f).part.ladder = { p.ladder with startup := some { kept with pos := pos } } ∧
      ((s.act f).part.node i) = (p.keepStatusWord u i k.val w).1.node i ∧
      (pos = .commit → (s.act f).part.loader.check.isSome = true) := by
  intro kept pos
  let q := (p.keepStatusWord u i k.val w).1
  obtain ⟨hladder, -⟩ : q.ladder = p.ladder ∧ _ := p.keepStatusWord_units u i k.val w
  obtain ⟨hnext, hnode, hlast⟩ := p.startupStep_status hu w hpos
  have hwords : k.val < 5 ∨ k.val = 5 := by omega
  have hnodes : i.val < 47 ∨ i.val = 47 := by omega
  have hread {offset : Nat} {pos' : StartPos} (hstep : p.startupStep w = q.startupRead kept pos' offset) (hpos' : pos' = pos)
      (hgoes : pos' ≠ .commit) : (s.act f).part.ladder = { p.ladder with startup := some { kept with pos := pos } } ∧
        ((s.act f).part.node i) = q.node i ∧ (pos = .commit → (s.act f).part.loader.check.isSome = true) := by
    subst hpos'
    obtain ⟨h, -⟩ := State.act_startupRead (hf.trans hstep) (by rw [hladder, hstart]) hgoes
    refine ⟨by rw [h, hladder], ?_, fun h => absurd h hgoes⟩
    rw [State.act_node, hf, hstep]
    rfl
  rcases hwords with hk | hk
  · obtain ⟨offset, hstep⟩ := hnext hk
    exact hread hstep (if_pos hk).symm nofun
  rcases hnodes with hi | hi
  · obtain ⟨offset, hstep⟩ := hnode hk hi
    exact hread hstep (by simp [pos, hk, hi]) nofun
  · let r : Part := q.modLadder fun l => { l with startup := some { kept with pos := .commit } }
    have hcommit : pos = .commit := by simp [pos, hk, hi]
    have hbegins : f s.part = r.beginCheck .startup := hf.trans (hlast hk hi)
    have hcheck : (r.beginCheck .startup).loader.check.isSome = true := by rw [Part.beginCheck, Part.checkAt_loader]; rfl
    have hr : r.ladder = { p.ladder with startup := some { kept with pos := pos } } := by
      rw [hcommit, ← hladder]
      rfl
    have hbegun : (r.beginCheck .startup).ladder = r.ladder := by simp
    have hstate : (r.beginCheck .startup).ladder.state ≠ .heldService := by
      rw [hbegun, hr]
      exact fun h => nomatch hstart.symm.trans h
    refine ⟨?_, ?_, fun _ => ?_⟩
    · rw [State.act_ladder_of_waits hbegins (Part.startupWaits_of_checks hcheck) hstate, hbegun, hr]
    · rw [State.act_node, hbegins]
      change (r.beginCheck .startup).table.records.get i = _
      rw [Part.beginCheck_records]
      rfl
    · rw [State.act_loader, hbegins, (Part.settle_loader_of_works (Part.startupWaits_of_checks hcheck) hstate).1,
        Part.settleCheck_check_isSome, Part.settleNodeOpen_loader, hcheck]

/-- The end of start-up: owed what a take and a scan are, and HELD or RUN entered. -/
theorem State.act_startupDone (hf : f s.part = p.startupDone w) :
    (s.act f).part.ladder.startup = none ∧ (s.act f).part.images.takeOwed = true ∧ (s.act f).part.parcels.scanOwed = true ∧
      (p.ladder.pending = some .run → (s.act f).part.ladder.state = .run ∧ (s.act f).part.ladder.pending = none ∧
        (s.act f).part.sched.cycle = p.sched.cycle + 1 ∧ (s.act f).part.hasCause .ladder = true) ∧
      (p.ladder.pending = some .hold → (s.act f).part.ladder.state = .held ∧ (s.act f).part.ladder.pending = none ∧
        (s.act f).part.ladder.heldNamed = true ∧ (s.act f).part.frames.tx = encodeFrame .hold 0 0 []) ∧
      (p.ladder.pending ≠ some .run → p.ladder.pending ≠ some .hold →
        (s.act f).part.ladder.state = .held ∧ (s.act f).part.ladder.pending = p.ladder.pending ∧
          (s.act f).part.ladder.heldNamed = false ∧ (s.act f).part.frames.tx = encodeFrame .hold 0 0 []) := by
  obtain ⟨r, hladder, himages, hparcels, hsched, hrun, hhold, hother⟩ := p.startupDone_cases w
  by_cases hpending : p.ladder.pending = some .run
  · have hf := hf.trans (hrun hpending)
    have kimages : r.enterRun.images = r.images := by simp [Part.enterRun, Part.startCycle]
    have kparcels : r.enterRun.parcels = r.parcels := by simp [Part.enterRun, Part.startCycle]
    rw [hpending, State.act_ladder_of_enterRun hf, State.act_images_kept, hf, kimages, himages, hladder]
    refine ⟨rfl, rfl, ?_, fun _ => ⟨rfl, rfl, ?_, State.act_hasCause_of_enterRun hf⟩, nofun, fun h => absurd rfl h⟩
    · refine (State.act_openStep hf).scanOwed ?_
      rw [kparcels, hparcels]
    · obtain ⟨-, hcycle, -⟩ := State.act_sched_of_enterRun hf
      rw [hcycle, hsched]
  by_cases hpending' : p.ladder.pending = some .hold
  · obtain ⟨kladder, ktx, kimages, kparcels⟩ := State.act_enterHeld (hf.trans (hhold hpending'))
    rw [hpending', kladder, Part.modLadder_ladder, hladder, kimages, kparcels]
    refine ⟨rfl, ?_, ?_, nofun, fun _ => ⟨rfl, rfl, rfl, ktx⟩, fun _ h => absurd rfl h⟩
    · exact congrArg ImageUnit.takeOwed himages
    · exact congrArg ParcelUnit.scanOwed hparcels
  · obtain ⟨kladder, ktx, kimages, kparcels⟩ := State.act_enterHeld (hf.trans (hother hpending hpending'))
    rw [kladder, hladder, kimages, himages, kparcels, hparcels]
    exact ⟨rfl, rfl, rfl, fun h => absurd h hpending, fun h => absurd h hpending', fun _ _ => ⟨rfl, rfl, rfl, ktx⟩⟩

end

end Sys2Proof.Machine
end

section
/-! SUPPORT. STARTING entered, and left by an error response or by the check of the directory (R141, R144, R149). -/

namespace Sys2Proof.Machine

/-! ## Nothing comes about of itself but a snapshot -/

/-- No open, check or append is under way and no service waits. -/
structure Part.Bare (p : Part) : Prop where
  sched : p.sched.state ≠ .opening
  check : p.loader.check = none
  waits : p.startupWaits
  run : p.ladder.state ≠ .run
  service : p.ladder.state ≠ .heldService
  appends : p.events.appends = []

section
variable {p : Part}

theorem Part.startAppend_of_none (h : p.events.appends = []) : p.startAppend = p := by
  unfold Part.startAppend
  split
  next hlist => rw [h] at hlist; cases hlist
  · rfl

theorem Part.settle_of_bare (h : p.Bare) : p.settle = p.settleSnapshot := by
  obtain ⟨hladder, -, -, -, -, -, hevents, -⟩ := p.settleSnapshot_keepsOffFaults
  change ((((((p.settleNodeOpen).settleCheck).settleStartup).settleParcelOpen).settleSnapshot).startAppend).settleService = _
  have hparcels : p.settleParcelOpen = p := if_neg h.run
  rw [Part.settleNodeOpen_of_notOpening h.sched, Part.settleCheck_of_other p (fun c hc => nomatch h.check.symm.trans hc),
    Part.settleStartup_of_waits p h.waits, hparcels, Part.startAppend_of_none (by rw [hevents]; exact h.appends),
    Part.settleService_of_works _ fun hs => absurd (by rw [← hladder]; exact hs) h.service]

variable {s : State} {f : Part → Part} {q : Part}

theorem State.act_bare (hf : f s.part = q) (h : q.Bare) : (s.act f).part.table = q.table ∧ (s.act f).part.images = q.images ∧
    (s.act f).part.windows = q.windows ∧ (s.act f).part.events = q.events ∧ (s.act f).part.parcels = q.parcels ∧
    (s.act f).part.loader = q.loader ∧ (s.act f).part.faults.cause = q.faults.cause := by
  obtain ⟨-, -, -, htable, himages, hwindows, hevents, hparcels, hloader, -⟩ := q.settleSnapshot_keepsOffFaults
  rw [State.act_table, State.act_images, State.act_windows, State.act_events, State.act_parcels, State.act_loader, State.act_faults, hf,
    Part.settle_of_bare h]
  exact ⟨htable, himages, hwindows, hevents, hparcels, hloader, q.settleSnapshot_cause⟩

end

/-! ## A RUN or HOLD request in IDLE (R149, steps 1 to 3) -/

theorem areaValid_iff (area : Word) : areaValid area = true ↔ area ≠ 0 ∧ area.toNat % 4096 = 0 := by
  have hlow : area.extractLsb' 0 12 = 0 ↔ area.toNat % 4096 = 0 := by
    rw [BitVec.toNat_eq, BitVec.extractLsb'_toNat]
    simp
  have hbits : (area.extractLsb' 0 12 == 0) = true ↔ area.toNat % 4096 = 0 := beq_iff_eq.trans hlow
  rw [areaValid, Bool.and_eq_true, hbits, bne_iff_ne]

section
variable {s : State} {r : Request}

/-- The part with its working units reset and STARTING entered. -/
def Part.starting (p : Part) (r : Request) : Part :=
  (p.modLadder fun l => { l with state := .starting, pending := some r }).resetWorkingUnits

theorem Part.takeRequest_starts {p : Part} (hidle : p.ladder.state = .idle) (hr : r = .run ∨ r = .hold) (area : Word) :
    p.takeRequest area r =
      if areaValid area then (p.starting r).startupRead Startup.first .version Config.offVersion
      else ((p.starting r).report .areaLayout 1).startupFail := by
  rcases hr with rfl | rfl <;> simp only [Part.takeRequest, Part.emptySlot, Part.modLadder_ladder, hidle] <;> rfl

/-- What every such request leaves. -/
structure Part.WorkingReset (t p : Part) : Prop where
  table : t.table = NodeTable.reset
  images : t.images = ImageUnit.reset
  windows : t.windows = WindowUnit.reset
  events : t.events = EventUnit.reset
  parcels : t.parcels = ParcelUnit.reset
  loader : t.loader = Loader.reset
  cycle : t.sched.cycle = p.sched.cycle
  counters : t.faults.counters = p.faults.counters

theorem exec_startRequested (hc : s.takesControl) (hidle : s.part.ladder.state = .idle) (hr : r = .run ∨ r = .hold)
    (hstopped : s.part.sched.state = .stopped) (nudge : Bool) :
    ∃ f : Part → Part, exec (requestCommand r nudge) s = .next (s.act f) ∧ (s.act f).part.WorkingReset s.part ∧
      (s.act f).part.faults.cause = (f s.part).faults.cause ∧
      (areaValid s.port.area = true → f s.part = (s.part.starting r).startupRead Startup.first .version Config.offVersion) ∧
      (areaValid s.port.area = false → f s.part = ((s.part.starting r).report .areaLayout 1).startupFail) := by
  obtain ⟨f, hexec, hf⟩ := exec_request_of_takes hc (by rw [Part.takesAtOnce, hidle]) (by rw [hidle]; rfl) r nudge
  rw [Part.takeRequest_starts hidle hr] at hf
  have hsched : (s.part.starting r).sched.state ≠ .opening := by
    change s.part.sched.state ≠ .opening
    rw [hstopped]
    nofun
  have hunits : (f s.part).Bare ∧ (f s.part).WorkingReset s.part := by
    rw [hf]
    split
    · exact ⟨⟨hsched, rfl, Part.startupWaits_of_pos rfl nofun, nofun, nofun, rfl⟩, ⟨rfl, rfl, rfl, rfl, rfl, rfl, rfl, rfl⟩⟩
    · exact ⟨⟨hsched, rfl, Part.startupWaits_of_notStarting nofun, nofun, nofun, rfl⟩, ⟨rfl, rfl, rfl, rfl, rfl, rfl, rfl, rfl⟩⟩
  obtain ⟨hbare, h⟩ := hunits
  obtain ⟨htable, himages, hwindows, hevents, hparcels, hloader, hcause⟩ := State.act_bare (f := f) rfl hbare
  obtain ⟨-, -, -, -, hcycle, -, -, -, -, hcounters, -⟩ := s.act_keeps f
  exact ⟨f, hexec, ⟨htable.trans h.table, himages.trans h.images, hwindows.trans h.windows, hevents.trans h.events,
    hparcels.trans h.parcels, hloader.trans h.loader, hcycle.trans h.cycle, hcounters.trans h.counters⟩, hcause,
    fun hvalid => by rw [hf, if_pos hvalid], fun hvalid => by rw [hf, if_neg (by rw [hvalid]; nofun)]⟩

end

/-! ## An error response (R149) -/

section
variable {s : State} {x : Access}

theorem exec_startingFails (hx : s.current = some x) (hp : s.part.ladder.softPending = false) (hstart : s.part.ladder.state = .starting)
    (dt : Nat) :
    ∃ t, exec (.memoryErrorResponse dt) s = .next t ∧ t.mem = s.mem ∧
      t.part.ladder = { s.part.ladder with state := .idle, pending := none, startup := none } := by
  let p := (s.begun x none dt).report .memory (BitVec.ofNat 16 x.offset)
  let f : Part → Part := fun p => (p.passTime dt).accessFailed x
  have hladder : p.ladder = s.part.ladder := by
    refine ((s.begun x none dt).report_memory_ladder _).trans ?_
    change { s.part.ladder with faultHold := s.part.ladder.faultHold || s.part.ladder.state != LadderState.starting } = _
    rw [hstart]
    simp
  have hf : f (s.offList s.mem).part = (p.startupLoss x.source).startupFail := by
    change (s.begun x none dt).accessFailed x = _
    exact if_pos (by rw [hladder, hstart])
  refine ⟨(s.offList s.mem).act f, by rw [exec_memoryErrorResponse, State.fail_of_current hx hp], by simp [State.offList], ?_⟩
  rw [State.act_startupFail hf, Part.startupLoss_ladder, hladder]

/-! ## The check in STARTING (R141, R142, R144) -/

end

section
variable {s : State} {f : Part → Part} {p : Part} {c : Check} {u : Startup} {w : Word}

theorem Part.continueCheck_of_verdict (hc : p.loader.check = some c) (hpos : c.pos = .writeVerdict) : p.continueCheck w =
    if p.loader.verdict.code = .accepted then p.checkAt { c with pos := .writeGeneration } else p.reportRefused.checkEnd c.origin := by
  simp only [Part.continueCheck, hc, hpos]

theorem Part.continueCheck_of_generation (hc : p.loader.check = some c) (hpos : c.pos = .writeGeneration) :
    p.continueCheck w = (p.setCause .commit).checkEnd c.origin := by
  simp only [Part.continueCheck, hc, hpos]

/-- The verdict accepted is written: the generation word follows. -/
theorem State.act_startupVerdict (hf : f s.part = p.continueCheck w) (hc : p.loader.check = some c) (hpos : c.pos = .writeVerdict)
    (hstart : p.ladder.state = .starting) (haccepted : p.loader.verdict.code = .accepted) :
    (s.act f).part.ladder = p.ladder ∧
      { offset := 0x54, write := some p.loader.accepted, source := .loader } ∈ (s.act f).part.bus := by
  rw [Part.continueCheck_of_verdict hc hpos, if_pos haccepted] at hf
  have hwaits : (p.checkAt { c with pos := .writeGeneration }).startupWaits :=
    Part.startupWaits_of_checks (by rw [Part.checkAt_loader]; rfl)
  have hladder : (p.checkAt { c with pos := .writeGeneration }).ladder = p.ladder := by simp
  have hafter : (s.act f).part.ladder = p.ladder := by
    rw [State.act_ladder_of_waits hf hwaits (by rw [hladder, hstart]; nofun), hladder]
  obtain ⟨-, hbus⟩ := s.act_asks f (a := { offset := 0x54, write := some p.loader.accepted, source := .loader })
    (by rw [hf]; exact Part.mem_issueWrite _ .loader Config.offAcceptedGeneration _)
  exact ⟨hafter, hbus (by rw [hafter, hstart]; rfl)⟩

/-- The generation accepted is written: the sweep follows. -/
theorem State.act_startupGeneration (hf : f s.part = p.continueCheck w) (hc : p.loader.check = some c) (hpos : c.pos = .writeGeneration)
    (horigin : c.origin = .startup) (hstart : p.ladder.state = .starting) (hu : p.ladder.startup = some u) (hcommit : u.pos = .commit)
    (haccepted : p.loader.verdict.code = .accepted) :
    (s.act f).StartsAt p.ladder { u with pos := .sweepAsk 0 } { offset := 0x2000, write := none, source := .startup } ∧
      (s.act f).part.loader.check = none ∧ (s.act f).part.hasCause .commit = true := by
  rw [Part.continueCheck_of_generation hc hpos, horigin] at hf
  let q : Part := (p.setCause .commit).modLoader fun l => { l with check := none }
  have hq : f s.part = q := hf
  obtain ⟨hstands, hnone⟩ := State.act_commitEnded_accepted hq hstart hu hcommit rfl haccepted
  refine ⟨hstands, hnone, ?_⟩
  rw [State.act_hasCause_of_eq hq (by decide)]
  change (p.setCause .commit).hasCause .commit = true
  simp [Part.setCause_hasCause]

/-- The verdict refused is written: CONFIG-REFUSED is reported, and start-up fails. -/
theorem State.act_startupRefused (hf : f s.part = p.continueCheck w) (hc : p.loader.check = some c) (hpos : c.pos = .writeVerdict)
    (horigin : c.origin = .startup) (hstart : p.ladder.state = .starting) (hu : p.ladder.startup = some u) (hcommit : u.pos = .commit)
    (hrefused : p.loader.verdict.code ≠ .accepted) :
    (s.act f).part.ladder = { p.ladder with state := .idle, pending := none, startup := none } ∧
      (s.act f).part.hasCause .fault = true ∧ (s.act f).part.hasCause .commit = p.hasCause .commit ∧
      (p.hasCause .fault = false → (s.act f).part.faults.capture.code = 3 ∧
        (s.act f).part.faults.capture.detail = p.loader.verdict.entry ++ p.loader.verdict.code.code) := by
  rw [Part.continueCheck_of_verdict hc hpos, if_neg hrefused, horigin] at hf
  let q : Part := p.reportRefused.modLoader fun l => { l with check := none }
  have hq : f s.part = q := hf
  have hladder : q.ladder = p.ladder := by simp [q, Part.reportRefused]
  have hverdict : q.loader.verdict = p.loader.verdict := by simp [q, Part.reportRefused]
  refine ⟨?_, ?_, ?_, fun h => ?_⟩
  · rw [State.act_commitEnded_refused hq (by rw [hladder, hstart]) (by rw [hladder, hu]) hcommit rfl (by rwa [hverdict]), hladder]
  · rw [State.act_hasCause_of_eq hq (by decide)]
    exact p.report_hasFault _ _
  · rw [State.act_hasCause_of_eq hq (by decide)]
    exact p.report_hasCommit _ _
  · rw [State.act_capture, hq]
    change (p.report _ _).faults.capture.code = _ ∧ (p.report _ _).faults.capture.detail = _
    rw [Part.report_capture, h]
    exact ⟨rfl, rfl⟩

end

/-! ## Last accepted after the start-up commit (R110, step 4) -/

section
variable {e : NodeEvents} {address : Byte} {kept : KeptStatus} {newest : Option Word}

theorem isNodeOrigin_iff (b : Byte) : isNodeOrigin b = true ↔ b.toNat ≤ 2 := by
  simp only [isNodeOrigin, Bool.or_eq_true, beq_iff_eq]
  bv_omega

/-- The newest event record is a node event from the line address. -/
def namesEvent (r : Word) (address : Byte) : Prop := isNodeOrigin (byteAt r 0) = true ∧ byteAt r 1 = address

theorem restoredEvents_of_record {r : Word} (hr : newest = some r) (h : namesEvent r address) :
    (restoredEvents e address kept newest).valid = true ∧ (restoredEvents e address kept newest).accepted = byteAt r 2 := by
  subst hr
  simp only [restoredEvents]
  split
  · exact ⟨rfl, rfl⟩
  next hnot => exact absurd h hnot

theorem restoredEvents_of_noRecord (h : ∀ r, newest = some r → ¬ namesEvent r address) :
    restoredEvents e address kept newest =
      if kept.address = address ∧ kept.valid then { e with accepted := kept.accepted, valid := true } else e := by
  cases newest with
  | none => rfl
  | some r => exact if_neg (h r rfl)

end

section
variable {p t : Part} {d : Directory} {c : Check} {v : Verdict} {u : Startup} {i : NodeIx}

theorem Part.acceptCommit_restored (horigin : c.origin = .startup) (hu : p.ladder.startup = some u)
    (henabled : (d.entries.get i).applied.enabled = true) :
    (p.acceptCommit d c v).nodeEvents i =
      restoredEvents ((p.commitUnits d c v).nodeEvents i) (d.entries.get i).applied.address (u.kept.get i) u.newest := by
  let q := p.commitUnits d c v
  obtain ⟨hladder, -⟩ := p.commitUnits_units d c v
  have happlied : (q.node i).applied = (d.entries.get i).applied := by
    rw [p.commitUnits_node d c v]
    exact NodeRecord.committed_applied _ _
  have hcommit : q.commitOrigin .startup p.table.records = q.restoreAccepted.writeAll := rfl
  have hevents : (p.acceptCommit d c v).events = q.restoreAccepted.writeAll.events := by
    rw [Part.acceptCommit_eq, horigin, hcommit]
    generalize q.restoreAccepted.writeAll = r
    rfl
  obtain ⟨-, -, -, -, -, hkept, -⟩ := q.restoreAccepted.writeAll_keepsOffStatus
  rw [Part.nodeEvents, hevents, hkept]
  refine (q.restoreAccepted_nodeEvents (by rw [hladder, hu]) i).trans ?_
  rw [happlied, if_pos henabled]

/-- An entry enabled by the start-up commit has last accepted from the newest event record, from its status record, or not. -/
theorem State.act_startupCommit {s : State} {f : Part → Part} (hf : f s.part = p.acceptCommit d c v) (horigin : c.origin = .startup)
    (hu : p.ladder.startup = some u) (henabled : (d.entries.get i).applied.enabled = true)
    (hbefore : (p.node i).applied.enabled = false) :
    let address := (d.entries.get i).applied.address
    let fromRecord := fun r : Word => u.newest = some r ∧ (r.extractLsb' 0 8).toNat ≤ 2 ∧ r.extractLsb' 8 8 = address
    let fromStatus := (u.kept.get i).address = address ∧ (u.kept.get i).valid = true
    ((s.act f).part.node i).state = .probing ∧ ((s.act f).part.nodeEvents i).ackOwed = false ∧
      ((s.act f).part.nodeEvents i).latch = false ∧ i ∉ (s.act f).part.events.queue ∧
      (∀ r, fromRecord r → ((s.act f).part.nodeEvents i).valid = true ∧
        ((s.act f).part.nodeEvents i).accepted = r.extractLsb' 16 8) ∧
      ((∀ r, ¬ fromRecord r) → fromStatus →
        ((s.act f).part.nodeEvents i).valid = true ∧ ((s.act f).part.nodeEvents i).accepted = (u.kept.get i).accepted) ∧
      ((∀ r, ¬ fromRecord r) → ¬ fromStatus → ((s.act f).part.nodeEvents i).valid = false) := by
  intro address fromRecord fromStatus
  have hcreated : recreates (p.node i).applied (d.entries.get i).applied = true :=
    (recreates_iff _ _).2 ⟨henabled, .inl hbefore⟩
  have hafter := State.act_acceptCommit hf
  obtain ⟨hstate, -, -, -, -, -, hlatch, howed, hqueue, -⟩ := (Part.acceptCommit_committed d c v).created_after hafter i hcreated
  obtain ⟨-, -, hcleared, -⟩ := p.commitUnits_eventsCleared d c v henabled hcreated
  have hrestored := Part.acceptCommit_restored (v := v) horigin hu henabled
  have hvalid : ((s.act f).part.nodeEvents i).valid = ((p.acceptCommit d c v).nodeEvents i).valid :=
    show ((s.act f).part.marks i).valid = ((p.acceptCommit d c v).marks i).valid by rw [hafter.marks]
  have haccepted : ((s.act f).part.nodeEvents i).accepted = ((p.acceptCommit d c v).nodeEvents i).accepted :=
    show ((s.act f).part.marks i).accepted = ((p.acceptCommit d c v).marks i).accepted by rw [hafter.marks]
  rw [hrestored] at hvalid haccepted
  have hrecord (r : Word) : fromRecord r ↔ u.newest = some r ∧ namesEvent r address :=
    and_congr_right fun _ => and_congr_left' (isNodeOrigin_iff _).symm
  have hnone (h : ∀ r, ¬ fromRecord r) (r : Word) (hr : u.newest = some r) : ¬ namesEvent r address :=
    fun hn => h r ((hrecord r).2 ⟨hr, hn⟩)
  rw [hvalid, haccepted]
  refine ⟨hstate, howed, hlatch, hqueue, fun r hr => ?_, fun hno hstatus => ?_, fun hno hstatus => ?_⟩
  · obtain ⟨hr, hnames⟩ := (hrecord r).1 hr
    exact restoredEvents_of_record hr hnames
  · rw [restoredEvents_of_noRecord (hnone hno), if_pos hstatus]
    exact ⟨rfl, rfl⟩
  · rw [restoredEvents_of_noRecord (hnone hno), if_neg hstatus]
    exact hcleared

end

end Sys2Proof.Machine
end

section
/-! SUPPORT. Start-up as a whole (R149): O43. -/

namespace Sys2Proof.Machine

section
variable {s : State} {x : Access} {u : Startup} {c : Check}

/-- The word that completes the copy of the directory makes STARTING accept it. -/
theorem Part.continueCheck_of_copy {p : Part} (hc : p.loader.check = some c) (hpos : c.pos = .rereadGeneration)
    (hstart : p.ladder.state = .starting) {d : Directory} (hd : d = directoryOf c.words.reverse)
    (haccepted : (judge d none).code = .accepted) :
    p.continueCheck c.generation = p.acceptCommit d c ((judge d none).verdict c.generation) := by
  have hread : p.continueCheck c.generation = p.copyRead c := by
    simp only [Part.continueCheck, hc, hpos, if_true]
  rw [hread, Part.copyRead, hstart, if_neg nofun]
  exact Part.judgeCopy_of_accepted hd (by rw [hstart]; rfl) haccepted

theorem Part.sweepNext_counters (p : Part) (u : Startup) (slot : SlotIx) :
    (p.sweepNext u slot).faults.counters = p.faults.counters := by
  unfold Part.sweepNext
  (repeat' split) <;> rfl

/-- A half as a word's lower half. -/
theorem setWidth_eq_append (h : Half) : h.setWidth 32 = 0#16 ++ h := by
  have hlt := h.isLt
  rw [BitVec.toNat_eq, BitVec.toNat_append, BitVec.toNat_setWidth, Nat.mod_eq_of_lt (by omega)]
  simp

end

/-- Settles O43: the request, the error response, each position of start-up, and the commit made in it. -/
theorem startupCompletes : Obligations.StartupCompletes := by
  refine ⟨fun s r nudge hc hidle hr hstopped => ?request, fun s x dt hstart hhead hp => ?fails,
    fun s x u host w hstart hhead hp hsource hu hw => ?steps,
    fun s x u c d host dt hstart hhead hp hsource hu hc horigin hpos hg hd haccepted command hcommand => ?commits,
    fun s x u c host dt hstart hhead hp hsource hu hcommit hc horigin hpos command hcommand => ?published⟩
  case request =>
    obtain ⟨f, hexec, h, hcause, hvalid, hinvalid⟩ := exec_startRequested hc hidle hr hstopped nudge
    have harea := areaValid_iff s.port.area
    refine ⟨_, hexec, State.act_port _ _, State.act_mem _ _, h.table, h.images, h.windows, h.events, h.parcels, h.loader, h.cycle,
      h.counters, fun hgood => ?_, fun hbad => ?_⟩
    · have hf := hvalid (harea.2 hgood)
      obtain ⟨hladder, hasked⟩ := State.act_startupRead hf rfl nofun
      rw [hladder]
      exact ⟨rfl, rfl, rfl, by rw [State.act_capture, hf]; rfl, by rw [hcause, hf]; rfl, hasked⟩
    · have hf := hinvalid (by rw [Bool.eq_false_iff]; exact fun h => hbad (harea.1 h))
      obtain ⟨hfault, hcapture⟩ := State.act_startupFail_reported hf
      rw [State.act_startupFail hf, Part.report_ladder _ _ _ (by decide)]
      exact ⟨rfl, rfl, hfault, rfl, hcapture⟩
  case fails =>
    obtain ⟨t, hexec, hmem, hladder⟩ := exec_startingFails (s.current_of_starting hstart hhead) hp hstart dt
    exact ⟨t, hexec, by rw [hladder], by rw [hladder], by rw [hladder], by rw [hladder], hmem⟩
  case steps =>
    obtain ⟨f, hexec, hf⟩ := exec_startupStepComplete (s.current_of_starting hstart hhead) hp hstart host
    let p := s.begun x host 0
    have hup : p.ladder.startup = some u := hu
    have hstep : f (s.afterWord x host).part = p.startupStep w := by
      rw [hf, hsource, hw]
      exact if_pos hstart
    refine ⟨_, hexec, ?_⟩
    split
    case h_1 hpos =>
      obtain ⟨hladder, hasked⟩ := State.act_startupRead (hstep.trans (p.startupStep_version hup w hpos)) hstart nofun
      rw [hladder]
      exact ⟨fun _ _ _ => ⟨hstart, rfl⟩, rfl, hasked⟩
    case h_2 hpos =>
      have hstep := hstep.trans (p.startupStep_stateWord hup w hpos)
      by_cases hversion : u.version = 1
      · rw [if_pos hversion] at hstep
        obtain ⟨hladder, -⟩ := State.act_startupRead hstep hstart nofun
        rw [hladder]
        exact ⟨fun _ _ _ => ⟨hstart, rfl⟩, fun _ => ⟨rfl, rfl⟩, fun h => absurd hversion h⟩
      · rw [if_neg hversion] at hstep
        obtain ⟨hfault, hcapture⟩ := State.act_startupFail_reported hstep
        rw [State.act_startupFail hstep]
        exact ⟨fun _ h => absurd ⟨hpos, hversion⟩ h, fun h => absurd h hversion, fun _ => ⟨rfl, rfl, hfault, hcapture⟩⟩
    case h_3 hpos =>
      have hstep := hstep.trans (p.startupStep_inUse hup w hpos)
      obtain ⟨hladder, -⟩ := State.act_startupRead hstep hstart nofun
      rw [hladder, State.act_images_kept, hstep]
      exact ⟨fun _ _ _ => ⟨hstart, rfl⟩, rfl, rfl⟩
    case h_4 hpos =>
      have hstep := hstep.trans (p.startupStep_inputPublish hup w hpos)
      obtain ⟨hladder, -⟩ := State.act_startupRead hstep hstart nofun
      rw [hladder, State.act_images_kept, hstep]
      exact ⟨fun _ _ _ => ⟨hstart, rfl⟩, rfl, rfl, fun b => bankOf_eq_some_iff _ b⟩
    case h_5 hpos =>
      obtain ⟨offset, hread⟩ := p.startupStep_eventsWritten hup w hpos
      have hstep := hstep.trans hread
      obtain ⟨hladder, -⟩ := State.act_startupRead hstep hstart (by split <;> nofun)
      obtain ⟨-, hwritten, htaken, -⟩ := State.act_list hstep
      rw [hladder, hwritten, htaken]
      exact ⟨fun _ _ _ => ⟨hstart, rfl⟩, rfl, rfl, rfl⟩
    case h_6 k hpos =>
      obtain ⟨offset, hread⟩ := p.startupStep_newest hup w hpos
      obtain ⟨hladder, -⟩ := State.act_startupRead (hstep.trans hread) hstart (by split <;> nofun)
      rw [hladder]
      exact ⟨fun _ _ _ => ⟨hstart, rfl⟩, rfl⟩
    case h_7 i k hpos =>
      obtain ⟨hladder, hnode, hcheck⟩ := State.act_startupStep_status hstep hup hpos hstart
      obtain ⟨-, hversion, hnewest, hswept⟩ := p.keepStatusWord_units u i k.val w
      rw [hladder]
      refine ⟨fun _ _ _ => ⟨hstart, rfl⟩, ⟨_, rfl, hversion, hnewest, hswept, fun j => ?_⟩, fun hk => ?_, fun hk => ?_, fun hk hi => ?_,
        fun hk hi => ⟨?_, hcheck ?_⟩⟩
      · refine (p.keepStatusWord_kept u i k.val w j).trans ?_
        simp only [Fin.ext_iff]
        rfl
      · rw [hnode]
        exact p.keepStatusWord_changeCount u i k.val w (congrArg Fin.val hk)
      · exact congrArg some (if_pos hk)
      · simp [hk, hi]
      · simp [hk, hi]
      · simp [hk, hi]
    case h_8 hpos =>
      have hstep := hstep.trans (p.startupStep_commit hup w hpos)
      refine ⟨fun _ _ h => absurd hpos h, fun hcheck => ?_, fun hcheck hverdict => ?_, fun hcheck hverdict => ?_⟩
      · rw [State.act_ladder_of_waits hstep (Part.startupWaits_of_checks hcheck) fun h => nomatch hstart.symm.trans h]
        exact ⟨hstart, hu, rfl⟩
      · obtain ⟨⟨hladder, -⟩, -⟩ := State.act_commitEnded_accepted hstep hstart hup hpos hcheck hverdict
        rw [hladder]
        exact ⟨hstart, rfl⟩
      · rw [State.act_commitEnded_refused hstep hstart hup hpos hcheck hverdict]
        exact ⟨rfl, rfl⟩
    case h_9 slot hpos =>
      obtain ⟨hladder, -⟩ := State.act_startupRead (hstep.trans (p.startupStep_sweepAsk hup w hpos)) hstart nofun
      rw [hladder]
      exact ⟨fun _ _ _ => ⟨hstart, rfl⟩, rfl⟩
    case h_10 slot ask hpos =>
      obtain ⟨hladder, -⟩ := State.act_startupRead (hstep.trans (p.startupStep_sweepTaken hup w hpos)) hstart nofun
      rw [hladder]
      exact ⟨fun _ _ _ => ⟨hstart, rfl⟩, rfl⟩
    case h_11 slot ask taken hpos =>
      have hstep := hstep.trans (p.startupStep_sweepAnswer hup w hpos)
      by_cases hunanswered : taken = ask ∧ halfAt w 0 ≠ taken
      · rw [if_pos hunanswered] at hstep
        obtain ⟨hladder, hasked⟩ := State.act_startupWrite hstep hstart nofun
        rw [hladder]
        exact ⟨fun _ _ _ => ⟨hstart, rfl⟩, fun _ => ⟨rfl, hasked⟩, fun h => absurd hunanswered h⟩
      · rw [if_neg hunanswered] at hstep
        obtain ⟨hstate, hpending, hpasses⟩ := State.act_sweepNext (s₀ := s) hstep hstart rfl
        exact ⟨fun _ _ _ => ⟨hstate, hpending⟩, fun h => absurd h hunanswered, fun _ => hpasses⟩
    case h_12 slot taken hpos =>
      obtain ⟨hladder, hasked⟩ := State.act_startupWrite (hstep.trans (p.startupStep_sweepOutcome hup w hpos)) hstart nofun
      rw [hladder]
      exact ⟨fun _ _ _ => ⟨hstart, rfl⟩, rfl, by rw [setWidth_eq_append]; exact hasked⟩
    case h_13 slot taken hpos =>
      have hstep := hstep.trans (p.startupStep_sweepNumber hup w hpos)
      obtain ⟨hstate, hpending, hpasses⟩ := State.act_sweepNext (s₀ := s) hstep hstart rfl
      refine ⟨fun _ _ _ => ⟨hstate, hpending⟩, ?_, hpasses⟩
      rw [State.act_counters, hstep, Part.counter, Part.sweepNext_counters]
      exact (p.count_counter .parcelsOtherwise .parcelsOtherwise).trans (if_pos rfl)
    case h_14 hpos =>
      have hends := State.act_startupDone (hstep.trans (p.startupStep_finalWord hup w hpos))
      exact ⟨fun h => absurd hpos h, hends⟩
  case commits =>
    obtain ⟨f, dt', hexec, hf⟩ := exec_starting_ends (s.current_of_starting hstart hhead) hp hstart hcommand
    let p := s.begun x host dt'
    have hnext : f (s.afterWord x host).part = p.acceptCommit d c ((judge d none).verdict c.generation) := by
      rw [hf, hsource, ← Part.continueCheck_of_copy (p := p) hc hpos hstart hd haccepted, ← hg]
      rfl
    have hcommitted := Part.acceptCommit_committed (p := p) d c ((judge d none).verdict c.generation)
    have hafter := State.act_acceptCommit hnext
    have hladder : ((s.afterWord x host).act f).part.ladder = p.ladder := by
      rw [State.act_ladder_of_waits hnext (Part.startupWaits_of_checks (by rw [hcommitted.loader]; rfl)), hcommitted.ladder]
      rw [hcommitted.ladder]
      exact fun h => nomatch hstart.symm.trans h
    refine ⟨_, hexec, by rw [hladder]; exact hstart, by rw [hladder]; exact hu,
      fun i => hafter.writes.subset (hcommitted.allWritten horigin i), fun i henabled hbefore => ?_⟩
    exact State.act_startupCommit hnext horigin hu henabled hbefore
  case published =>
    obtain ⟨f, dt', hexec, hf⟩ := exec_starting_ends (s.current_of_starting hstart hhead) hp hstart hcommand
    let p := s.begun x host dt'
    have hnext : f (s.afterWord x host).part = p.continueCheck (s.wordOf x host) := by
      rw [hf, hsource]
      rfl
    refine ⟨_, hexec, fun hwrite haccepted => ?_, fun hwrite => ?_, fun hwrite hrefused => ?_⟩
    · obtain ⟨hladder, hasked⟩ := State.act_startupVerdict hnext hc hwrite hstart haccepted
      rw [hladder]
      exact ⟨hstart, hu, hasked⟩
    · have haccepted : p.loader.verdict.code = .accepted := by
        rcases hpos with h | ⟨-, h⟩
        · cases h.symm.trans hwrite
        · exact h
      obtain ⟨⟨hladder, hasked⟩, hnone, hcause⟩ :=
        State.act_startupGeneration hnext hc hwrite horigin hstart hu hcommit haccepted
      rw [hladder]
      exact ⟨hstart, rfl, hnone, hcause, rfl, hasked⟩
    · obtain ⟨hladder, hfault, hkept, hcapture⟩ := State.act_startupRefused hnext hc hwrite horigin hstart hu hcommit hrefused
      rw [hladder]
      exact ⟨rfl, rfl, rfl, rfl, hfault, hkept, hcapture⟩

end Sys2Proof.Machine
end

section
/-! SUPPORT. The law of the parcel queue (R111, R112, R114, R118), and what each operation of the parcel unit does under it. -/

namespace Sys2Proof.Machine

/-! ## The law, and its rules -/

/-- The law of `Part.parcelsOk`, of the parcel unit alone. -/
structure ParcelUnit.Lawful (u : ParcelUnit) : Prop where
  room : u.queue.length + (if u.walk.takes then 1 else 0) ≤ 6
  slots : (u.queue.map Parcel.slot).Nodup
  judged : ∀ slot, u.walk.judging = some slot → u.queue.find? (·.slot == slot) = none
  unsent : ∀ e ∈ u.queue, e.transfer = .waiting → e.segSent = false
  single : ∀ a ∈ u.queue, ∀ b ∈ u.queue, a.inTransfer = true → b.inTransfer = true → a.node = b.node → a.slot = b.slot

theorem Part.parcelsOk_iff (p : Part) : p.parcelsOk ↔ p.parcels.Lawful :=
  ⟨fun ⟨room, slots, judged, unsent, single⟩ => ⟨room, slots, judged, unsent, single⟩,
    fun ⟨room, slots, judged, unsent, single⟩ => ⟨room, slots, judged, unsent, single⟩⟩

/-- An entry changed in its work: what names it stands, and none begins to wait. -/
structure Parcel.Works (f e : Parcel) : Prop where
  slot : f.slot = e.slot
  node : f.node = e.node
  waits : f.transfer = .waiting → e.transfer = .waiting ∧ f.segSent = e.segSent

/-- An entry changed without a transfer begun. -/
structure Parcel.Follows (f e : Parcel) : Prop extends Parcel.Works f e where
  transfers : f.inTransfer = true → e.inTransfer = true

theorem Parcel.Follows.rfl {e : Parcel} : e.Follows e := ⟨⟨Eq.refl _, Eq.refl _, fun h => ⟨h, Eq.refl _⟩⟩, id⟩

/-- A change that leaves the transfer as it stands. -/
theorem Parcel.Follows.of_same {e f : Parcel} (hslot : f.slot = e.slot) (hnode : f.node = e.node) (htransfer : f.transfer = e.transfer)
    (hsent : f.segSent = e.segSent) (howed : f.abandonOwed = e.abandonOwed) : f.Follows e := by
  refine ⟨⟨hslot, hnode, fun h => ⟨htransfer ▸ h, hsent⟩⟩, fun h => ?_⟩
  rwa [Parcel.inTransfer, htransfer, howed] at h

theorem Parcel.FinishedFrom.follows {e f : Parcel} (h : f.FinishedFrom e) : f.Follows e := by
  obtain ⟨hrest, hmoved, howed⟩ := h
  have hslot : f.slot = e.slot := by rw [hrest]
  have hnode : f.node = e.node := by rw [hrest]
  have hsent : f.segSent = e.segSent := by rw [hrest]
  refine ⟨⟨hslot, hnode, fun hw => ⟨?_, hsent⟩⟩, fun ht => ?_⟩
  · rcases hmoved with hfinishing | hsame
    · cases hfinishing.symm.trans hw
    · exact hsame.symm.trans hw
  · rcases hmoved with hfinishing | hsame
    · rw [Parcel.inTransfer, hfinishing] at ht
      obtain ⟨heowed, hsame⟩ := howed ht
      rw [Parcel.inTransfer, ← hsame, hfinishing]
      exact heowed
    · rw [Parcel.inTransfer, hsame] at ht
      rw [Parcel.inTransfer]
      revert ht
      cases e.transfer with
      | finishing => exact fun ht => (howed ht).1
      | _ => exact id

theorem map_slot_eq {l m : List Parcel} (h : List.Forall₂ Parcel.Works l m) : l.map Parcel.slot = m.map Parcel.slot := by
  induction h with
  | nil => rfl
  | cons hab _ ih => rw [List.map_cons, List.map_cons, ih, hab.slot]

/-- Whether a slot has an entry, by the slots alone. -/
theorem find?_slot_eq_none (l : List Parcel) (slot : SlotIx) : l.find? (·.slot == slot) = none ↔ slot ∉ l.map Parcel.slot := by
  simp [List.find?_eq_none]

section
variable {u v : ParcelUnit}

/-- Entries changed in their work, at most one to a node in transfer. -/
theorem ParcelUnit.Lawful.worked (h : u.Lawful) (hqueue : List.Forall₂ Parcel.Works v.queue u.queue) (hwalk : v.walk = u.walk)
    (hsingle : ∀ a ∈ v.queue, ∀ b ∈ v.queue, a.inTransfer = true → b.inTransfer = true → a.node = b.node → a.slot = b.slot) :
    v.Lawful := by
  have hslots := map_slot_eq hqueue
  refine ⟨?_, by rw [hslots]; exact h.slots, fun slot hslot => ?_, fun f hf hwaits => ?_, hsingle⟩
  · rw [hqueue.length_eq, hwalk]
    exact h.room
  · rw [find?_slot_eq_none, hslots, ← find?_slot_eq_none]
    exact h.judged slot (by rw [← hwalk, hslot])
  · obtain ⟨e, he, hfe⟩ := forall₂_mem_left hqueue hf
    obtain ⟨hewaits, hsent⟩ := hfe.waits hwaits
    rw [hsent]
    exact h.unsent e he hewaits

/-- Entries changed without a transfer begun. -/
theorem ParcelUnit.Lawful.followed (h : u.Lawful) (hqueue : List.Forall₂ Parcel.Follows v.queue u.queue) (hwalk : v.walk = u.walk) :
    v.Lawful := by
  refine h.worked (hqueue.imp fun _ _ hfe => hfe.toWorks) hwalk fun a ha b hb hat hbt hnode => ?_
  obtain ⟨e, he, hae⟩ := forall₂_mem_left hqueue ha
  obtain ⟨f, hf, hbf⟩ := forall₂_mem_left hqueue hb
  rw [hae.slot, hbf.slot]
  exact h.single e he f hf (hae.transfers hat) (hbf.transfers hbt) (by rw [← hae.node, ← hbf.node, hnode])

theorem ParcelUnit.Lawful.finished (h : u.Lawful) (hv : v.FinishedFrom u) : v.Lawful :=
  h.followed (hv.entries.imp fun _ _ hfe => hfe.follows) (by rw [hv.rest])

theorem ParcelUnit.Lawful.kept (h : u.Lawful) (hqueue : v.queue = u.queue) (hwalk : v.walk = u.walk) : v.Lawful :=
  h.followed (by rw [hqueue]; exact List.forall₂_same.2 fun _ _ => .rfl) hwalk

/-- A map of the entries. -/
theorem ParcelUnit.Lawful.mapped (h : u.Lawful) {g : Parcel → Parcel} (hg : ∀ e ∈ u.queue, (g e).Follows e)
    (hqueue : v.queue = u.queue.map g) (hwalk : v.walk = u.walk) : v.Lawful := by
  refine h.followed ?_ hwalk
  rw [hqueue, List.forall₂_map_left_iff]
  exact List.forall₂_same.2 hg

/-- The walk goes on, the queue as it stands. -/
theorem ParcelUnit.Lawful.walked (h : u.Lawful) (hqueue : v.queue = u.queue)
    (htakes : v.walk.takes = true → u.walk.takes = true ∨ u.queue.length < 6)
    (hjudging : ∀ slot, v.walk.judging = some slot → u.queue.find? (·.slot == slot) = none) : v.Lawful := by
  have hroom := h.room
  refine ⟨?_, by rw [hqueue]; exact h.slots, by rw [hqueue]; exact hjudging, by rw [hqueue]; exact h.unsent,
    by rw [hqueue]; exact h.single⟩
  rw [hqueue]
  split
  next htaking =>
    rcases htakes htaking with hbefore | hfree
    · rwa [if_pos hbefore] at hroom
    · omega
  next => split at hroom <;> omega

/-- An entry leaves the queue. -/
theorem ParcelUnit.Lawful.without (h : u.Lawful) (slot : SlotIx) (hqueue : v.queue = u.queue.filter (·.slot != slot))
    (hwalk : v.walk = u.walk) : v.Lawful := by
  have hsub : v.queue.Sublist u.queue := by rw [hqueue]; exact List.filter_sublist
  have hroom := h.room
  have hlength := hsub.length_le
  refine ⟨by rw [hwalk]; omega, h.slots.sublist (hsub.map _), fun k hk => ?_, fun e he => h.unsent e (hsub.subset he),
    fun a ha b hb => h.single a (hsub.subset ha) b (hsub.subset hb)⟩
  have hnone := h.judged k (by rw [← hwalk, hk])
  rw [find?_slot_eq_none] at hnone ⊢
  exact fun hmem => hnone ((hsub.map _).subset hmem)

/-- The walk rests between slots, or stands before a slot's numbers. -/
def Walk.Rests (w : Walk) : Prop := w.takes = false ∧ w.judging = none

/-- The queue as it stands, the walk as it stands or at rest. -/
structure ParcelUnit.WalksFrom (v u : ParcelUnit) : Prop where
  queue : v.queue = u.queue
  walk : v.walk = u.walk ∨ v.walk.Rests

theorem ParcelUnit.WalksFrom.trans {w : ParcelUnit} (h : w.WalksFrom v) (k : v.WalksFrom u) : w.WalksFrom u := by
  refine ⟨h.queue.trans k.queue, ?_⟩
  rcases h.walk with hsame | hrests
  · rw [hsame]
    exact k.walk
  · exact .inr hrests

theorem ParcelUnit.WalksFrom.of_answers (h : v.KeepsButAnswers u) : v.WalksFrom u := ⟨by rw [h], .inl (by rw [h])⟩

theorem ParcelUnit.Lawful.walksFrom (h : u.Lawful) (hv : v.WalksFrom u) : v.Lawful := by
  rcases hv.walk with hsame | ⟨htakes, hjudging⟩
  · exact h.kept hv.queue hsame
  · exact h.walked hv.queue (fun ht => by rw [htakes] at ht; cases ht) fun slot hs => by rw [hjudging] at hs; cases hs

/-- The entry of a take joins the tail, the walk's room spent on it. -/
theorem ParcelUnit.Lawful.joined (h : u.Lawful) {e : Parcel} (htakes : u.walk.takes = true) (hjudging : u.walk.judging = some e.slot)
    (hwaits : e.transfer = .waiting) (hsent : e.segSent = false) (hqueue : v.queue = u.queue ++ [e]) (hwalk : v.walk.Rests) :
    v.Lawful := by
  obtain ⟨hnotakes, hnone⟩ := hwalk
  have hroom := h.room
  rw [if_pos htakes] at hroom
  have hfresh := h.judged _ hjudging
  rw [find?_slot_eq_none] at hfresh
  have hidle : e.inTransfer = false := by rw [Parcel.inTransfer, hwaits]
  have hmem {a : Parcel} (ha : a ∈ v.queue) : a ∈ u.queue ∨ a = e := by
    rw [hqueue, List.mem_append, List.mem_singleton] at ha
    exact ha
  refine ⟨?_, ?_, fun slot hs => ?_, fun a ha hw => ?_, fun a ha b hb hat hbt => ?_⟩
  · rw [hqueue, hnotakes, List.length_append, List.length_singleton, if_neg nofun]
    omega
  · rw [hqueue, List.map_append, List.nodup_append]
    refine ⟨h.slots, List.nodup_singleton _, fun slot hslot k hk heq => hfresh ?_⟩
    rw [List.map_singleton, List.mem_singleton] at hk
    rwa [← hk, ← heq]
  · rw [hnone] at hs
    cases hs
  · rcases hmem ha with ha | rfl
    · exact h.unsent a ha hw
    · exact hsent
  · rcases hmem ha with ha | rfl
    · rcases hmem hb with hb | rfl
      · exact h.single a ha b hb hat hbt
      · cases hidle.symm.trans hbt
    · cases hidle.symm.trans hat

end

end Sys2Proof.Machine
end

section
/-! SUPPORT. The operations of the parcel unit under the law of its queue (R111 to R129). -/

namespace Sys2Proof.Machine

/-! ## One entry changed -/

section
variable {p : Part} {slot : SlotIx}

theorem Part.parcelOf_mem {e : Parcel} (h : p.parcelOf slot = some e) : e ∈ p.parcels.queue := List.mem_of_find?_eq_some h

/-- A slot's entry is the one that stands there. -/
theorem ParcelUnit.Lawful.unique (h : p.parcels.Lawful) {e o : Parcel} (he : p.parcelOf slot = some e) (ho : o ∈ p.parcels.queue)
    (hslot : o.slot = slot) : o = e :=
  List.inj_on_of_nodup_map h.slots ho (Part.parcelOf_mem he) (hslot.trans (parcelOf_slot he).symm)

theorem ParcelUnit.Lawful.parcelOf_of_mem (h : p.parcels.Lawful) {o : Parcel} (ho : o ∈ p.parcels.queue) :
    p.parcelOf o.slot = some o := by
  cases he : p.parcelOf o.slot with
  | none =>
    have hnone := (find?_slot_eq_none _ _).mp he
    exact absurd (List.mem_map_of_mem ho) hnone
  | some e => rw [h.unique he ho rfl]

theorem Part.modParcel_lawful {f : Parcel → Parcel} (h : p.parcels.Lawful) (hf : ∀ e, p.parcelOf slot = some e → (f e).Follows e) :
    (p.modParcel slot f).parcels.Lawful := by
  refine h.mapped (g := fun e => if e.slot = slot then f e else e) (fun e he => ?_) rfl rfl
  split
  next hslot => exact hf e (hslot ▸ h.parcelOf_of_mem he)
  next => exact .rfl

/-- The marks of a pass, the attempts, the reply and the marks of an answer name no entry and begin no transfer. -/
theorem Part.modParcel_lawful_of_same {f : Parcel → Parcel} (h : p.parcels.Lawful)
    (hf : ∀ e, (f e).slot = e.slot ∧ (f e).node = e.node ∧ (f e).transfer = e.transfer ∧ (f e).segSent = e.segSent ∧
      (f e).abandonOwed = e.abandonOwed) : (p.modParcel slot f).parcels.Lawful :=
  Part.modParcel_lawful h fun e _ =>
    let ⟨hslot, hnode, htransfer, hsent, howed⟩ := hf e
    .of_same hslot hnode htransfer hsent howed

/-- An entry in transfer goes on in transfer, or ends it. -/
theorem Parcel.Follows.of_transfer {e f : Parcel} (hslot : f.slot = e.slot) (hnode : f.node = e.node) (hgoes : f.transfer ≠ .waiting)
    (he : e.inTransfer = true) : f.Follows e :=
  ⟨⟨hslot, hnode, fun h => absurd h hgoes⟩, fun _ => he⟩

theorem Part.abandonParcel_lawful (h : p.parcels.Lawful) (hin : ∀ e, p.parcelOf slot = some e → e.inTransfer = true)
    (outcome : ParcelOutcome) : (p.abandonParcel slot outcome).parcels.Lawful :=
  Part.modParcel_lawful h fun e he => .of_transfer rfl rfl nofun (hin e he)

/-- A transfer begins where no other entry of the node is in transfer. -/
theorem Part.modParcel_begins {f : Parcel → Parcel} (h : p.parcels.Lawful) {e : Parcel} (he : p.parcelOf slot = some e)
    (hslot : (f e).slot = e.slot) (hnode : (f e).node = e.node) (hgoes : (f e).transfer ≠ .waiting)
    (hfree : e.inTransfer = true ∨ ∀ o ∈ p.parcels.queue, o.slot = e.slot ∨ o.node ≠ e.node ∨ o.inTransfer = false) :
    (p.modParcel slot f).parcels.Lawful := by
  let g : Parcel → Parcel := fun o => if o.slot = slot then f o else o
  have hchanged {o : Parcel} (ho : o ∈ p.parcels.queue) : o = e ∧ g o = f e ∨ o.slot ≠ e.slot ∧ g o = o := by
    by_cases hs : o.slot = slot
    · have hoe := h.unique he ho hs
      exact .inl ⟨hoe, by rw [← hoe]; exact if_pos hs⟩
    · exact .inr ⟨by rwa [parcelOf_slot he], if_neg hs⟩
  have hqueue : List.Forall₂ Parcel.Works (p.modParcel slot f).parcels.queue p.parcels.queue := by
    change List.Forall₂ _ (p.parcels.queue.map g) _
    rw [List.forall₂_map_left_iff]
    refine List.forall₂_same.2 fun o ho => ?_
    rcases hchanged ho with ⟨hoe, hg⟩ | ⟨-, hg⟩ <;> rw [hg]
    · rw [hoe]
      exact ⟨hslot, hnode, fun hw => absurd hw hgoes⟩
    · exact Parcel.Follows.rfl.toWorks
  have hother {o : Parcel} (ho : o ∈ p.parcels.queue) (hs : o.slot ≠ e.slot) (hot : o.inTransfer = true) : o.node ≠ e.node := by
    intro hn
    rcases hfree with hin | hfree
    · exact hs (h.single o ho e (Part.parcelOf_mem he) hot hin hn)
    · rcases hfree o ho with hsame | hdiffers | hidle
      · exact hs hsame
      · exact hdiffers hn
      · cases hidle.symm.trans hot
  refine h.worked hqueue rfl fun a ha b hb hat hbt hn => ?_
  obtain ⟨c, hc, rfl⟩ := List.mem_map.1 ha
  obtain ⟨d, hd, rfl⟩ := List.mem_map.1 hb
  change (g c).slot = (g d).slot
  change (g c).inTransfer = true at hat
  change (g d).inTransfer = true at hbt
  change (g c).node = (g d).node at hn
  rcases hchanged hc with ⟨-, hgc⟩ | ⟨hcs, hgc⟩ <;> rcases hchanged hd with ⟨-, hgd⟩ | ⟨hds, hgd⟩ <;> rw [hgc, hgd] at hn ⊢
  · rw [hgd] at hbt
    exact absurd (hn.symm.trans hnode) (hother hd hds hbt)
  · rw [hgc] at hat
    exact absurd (hn.trans hnode) (hother hc hcs hat)
  · rw [hgc] at hat
    rw [hgd] at hbt
    exact h.single c hc d hd hat hbt hn

end

/-! ## Answers -/

section
variable {p : Part}

theorem Part.readyAnswer_lawful (h : p.parcels.Lawful) (a : AnswerFor) : (p.readyAnswer a).parcels.Lawful :=
  h.walksFrom (.of_answers (p.readyAnswer_keepsButAnswers a))

theorem Part.nextAnswer_lawful (h : p.parcels.Lawful) : p.nextAnswer.parcels.Lawful :=
  h.walksFrom (.of_answers p.nextAnswer_keepsButAnswers)

theorem Part.writeAnswer_lawful (h : p.parcels.Lawful) (writes : List (Nat × Word)) : (p.writeAnswer writes).parcels.Lawful := by
  rw [Part.writeAnswer_parcels]
  exact h.kept rfl rfl

theorem Part.finishParcel_lawful (h : p.parcels.Lawful) (slot : SlotIx) (outcome : ParcelOutcome) (status : Byte) :
    (p.finishParcel slot outcome status).parcels.Lawful := h.finished (p.finishParcel_finishedFrom slot outcome status)

theorem Part.abandonDone_lawful (h : p.parcels.Lawful) (slot : SlotIx) : (p.abandonDone slot).parcels.Lawful :=
  h.finished (p.abandonDone_finishedFrom slot)

theorem Part.freeParcel_lawful (h : p.parcels.Lawful) (slot : SlotIx) : (p.freeParcel slot).parcels.Lawful :=
  h.without slot rfl rfl

theorem Part.retryAnswers_lawful (h : p.parcels.Lawful) : p.retryAnswers.parcels.Lawful := by
  unfold Part.retryAnswers
  dsimp only
  split
  · exact h
  · exact List.foldlRecOn (motive := fun q : Part => q.parcels.Lawful) _ _ h fun q hq e _ => Part.readyAnswer_lawful hq _

theorem Part.lowerPatience_lawful (h : p.parcels.Lawful) : p.lowerPatience.parcels.Lawful :=
  h.mapped (fun e _ => by split <;> exact .of_same rfl rfl rfl rfl rfl) rfl rfl

theorem Part.newPass_lawful (h : p.parcels.Lawful) : p.newPass.parcels.Lawful :=
  h.mapped (g := fun e => { e with given := false }) (fun _ _ => .of_same rfl rfl rfl rfl rfl) rfl rfl

theorem Part.patienceExpired_lawful (h : p.parcels.Lawful) (slot : SlotIx) : (p.patienceExpired slot).parcels.Lawful := by
  unfold Part.patienceExpired
  split
  next e he =>
    split
    next hdue =>
      split
      next hsent =>
        refine Part.abandonParcel_lawful h (fun o ho => ?_) _
        cases he.symm.trans ho
        have hruns : e.transfer ≠ .finishing := fun hf => by simp [Parcel.outOfPatience, Parcel.patienceRuns, hf] at hdue
        have hunsent := h.unsent e (Part.parcelOf_mem he)
        rw [Parcel.inTransfer]
        cases ht : e.transfer with
        | waiting => cases (hunsent ht).symm.trans hsent
        | sending n => rfl
        | asking n => rfl
        | finishing => exact absurd ht hruns
      next => exact Part.finishParcel_lawful h _ _ _
    next => exact h
  next => exact h

/-! ## The outcome of an exchange -/

theorem Parcel.Transferring.inTransfer {e : Parcel} (h : e.Transferring) : e.inTransfer = true := by
  rcases h with ⟨n, hn⟩ | ⟨n, hn⟩ <;> rw [Parcel.inTransfer, hn]

theorem Part.parcelAttemptFailed_lawful (h : p.parcels.Lawful) (slot : SlotIx) : (p.parcelAttemptFailed slot).parcels.Lawful := by
  cases he : p.parcelOf slot with
  | none =>
    rw [Part.parcelAttemptFailed, he]
    exact h
  | some e =>
    let q := p.modParcel slot fun e => { e with attempts := e.attempts + 1 }
    have hq : q.parcels.Lawful := Part.modParcel_lawful_of_same h fun _ => ⟨rfl, rfl, rfl, rfl, rfl⟩
    have hfails (htransfers : e.Transferring) : (p.parcelAttemptFailed slot).parcels.Lawful := by
      rw [p.parcelAttemptFailed_of_transferring he htransfers]
      dsimp only
      split
      · refine Part.abandonParcel_lawful hq (fun o ho => ?_) _
        rw [p.modParcel_parcelOf_self (f := fun e => { e with attempts := e.attempts + 1 }) (fun _ => rfl) he] at ho
        cases ho
        exact htransfers.inTransfer
      · exact hq
    cases ht : e.transfer with
    | sending n => exact hfails (.inl ⟨n, ht⟩)
    | asking n => exact hfails (.inr ⟨n, ht⟩)
    | _ =>
      rw [Part.parcelAttemptFailed, he]
      simp only [ht]
      exact h

theorem Parcel.acked_follows (e : Parcel) (segment : Byte) : (e.acked segment).Follows e := by
  unfold Parcel.acked
  split
  next n hn =>
    have hin : e.inTransfer = true := Parcel.Transferring.inTransfer (.inl ⟨n, hn⟩)
    split <;> exact .of_transfer rfl rfl nofun hin
  · exact .of_same rfl rfl rfl rfl rfl
  all_goals exact .rfl

theorem Part.segAcked_lawful (h : p.parcels.Lawful) (slot : SlotIx) (segment : Byte) : (p.segAcked slot segment).parcels.Lawful :=
  Part.modParcel_lawful (f := fun e => e.acked segment) h fun e _ => e.acked_follows segment

theorem Part.segReplied_lawful (h : p.parcels.Lawful) (slot : SlotIx) (n : Nat) (f : Frame) :
    (p.segReplied slot n f).parcels.Lawful := by
  cases he : p.parcelOf slot with
  | none =>
    rw [Part.segReplied, he]
    exact h
  | some e =>
    by_cases hasks : e.transfer = .asking n
    · cases hflag : f.flag 0 with
      | true =>
        rw [p.segReplied_of_notReady he hasks hflag]
        exact Part.modParcel_lawful_of_same h fun _ => ⟨rfl, rfl, rfl, rfl, rfl⟩
      | false =>
        by_cases hgood : e.Agrees n f
        · let q := p.modParcel slot fun e => e.replied n f
          have hq : q.parcels.Lawful := Part.modParcel_lawful_of_same h fun _ => ⟨rfl, rfl, rfl, rfl, rfl⟩
          rw [p.segReplied_of_consistent he hasks hflag hgood]
          dsimp only
          split
          · exact Part.finishParcel_lawful hq _ _ _
          · refine Part.modParcel_lawful hq fun o ho => .of_transfer rfl rfl nofun ?_
            rw [p.modParcel_parcelOf_self (f := fun e => e.replied n f) (fun _ => rfl) he] at ho
            cases ho
            exact Parcel.Transferring.inTransfer (.inr ⟨n, hasks⟩)
        · rw [p.segReplied_of_inconsistent he hasks hflag hgood]
          exact Part.parcelAttemptFailed_lawful h slot
    · rw [p.segReplied_of_other he hasks]
      exact h

end

/-! ## The walk (R113 to R115, R178) -/

section
variable (p : Part)

theorem Part.readTotal_walksFrom : p.readTotal.parcels.WalksFrom p.parcels := ⟨rfl, .inr ⟨rfl, rfl⟩⟩

theorem Part.scanTrigger_walksFrom : p.scanTrigger.parcels.WalksFrom p.parcels := by
  unfold Part.scanTrigger
  split
  · exact ⟨rfl, .inl rfl⟩
  · split
    · exact p.readTotal_walksFrom
    · exact ⟨rfl, .inl rfl⟩
    · exact ⟨rfl, .inl rfl⟩

theorem Part.walkStop_walksFrom (slot : SlotIx) : (p.walkStop slot).parcels.WalksFrom p.parcels := ⟨rfl, .inr ⟨rfl, rfl⟩⟩

/-- The walk passes on, at rest between slots. -/
theorem Part.walkOn_rests (slot : SlotIx) (left : Nat) :
    (p.walkOn slot left).parcels.queue = p.parcels.queue ∧ (p.walkOn slot left).parcels.walk.Rests := by
  refine ⟨p.walkOn_queue slot left, ?_⟩
  unfold Part.walkOn Part.walkEnd
  split
  · dsimp only
    split
    · rcases (Part.scanTrigger_walksFrom _).walk with hsame | hrests
      · rw [hsame]
        exact ⟨rfl, rfl⟩
      · exact hrests
    · exact ⟨rfl, rfl⟩
  · exact ⟨rfl, rfl⟩

theorem Part.walkOn_walksFrom (slot : SlotIx) (left : Nat) : (p.walkOn slot left).parcels.WalksFrom p.parcels :=
  let ⟨hqueue, hrests⟩ := p.walkOn_rests slot left
  ⟨hqueue, .inr hrests⟩

theorem Part.answerDeferred_walksFrom (slot : SlotIx) (left : Nat) : (p.answerDeferred slot left).parcels.WalksFrom p.parcels :=
  (ParcelUnit.WalksFrom.of_answers (Part.readyAnswer_keepsButAnswers _ _)).trans ⟨rfl, .inr ⟨rfl, rfl⟩⟩

theorem Part.answerAtOnce_walksFrom (slot : SlotIx) (left : Nat) (ask : Half) (outcome : ParcelOutcome) :
    (p.answerAtOnce slot left ask outcome).parcels.WalksFrom p.parcels :=
  (ParcelUnit.WalksFrom.of_answers (Part.readyAnswer_keepsButAnswers _ _)).trans ⟨rfl, .inr ⟨rfl, rfl⟩⟩

theorem Part.totalRead_walksFrom (total : Word) : (p.totalRead total).parcels.WalksFrom p.parcels := by
  unfold Part.totalRead
  dsimp only
  (repeat' split) <;> exact ⟨rfl, .inr ⟨rfl, rfl⟩⟩

theorem Part.walkFailed_walksFrom : p.walkFailed.parcels.WalksFrom p.parcels := by
  unfold Part.walkFailed
  split
  · dsimp only
    split <;> exact ⟨rfl, .inr ⟨rfl, rfl⟩⟩
  · exact p.walkStop_walksFrom _
  · exact p.walkStop_walksFrom _
  · exact p.walkStop_walksFrom _
  · exact ⟨rfl, .inl rfl⟩
  · exact ⟨rfl, .inl rfl⟩

variable {p}

theorem Part.writeTaken_lawful (h : p.parcels.Lawful) {slot : SlotIx} (hnone : p.parcelOf slot = none)
    (hroom : p.parcels.walk.takes = true ∨ p.parcels.queue.length < 6) (left : Nat) (header : SlotHeader) (words : List Word) :
    (p.writeTaken slot left header words).parcels.Lawful :=
  h.walked rfl (fun _ => hroom) fun k hk => by cases hk; exact hnone

theorem Part.beginTake_lawful (h : p.parcels.Lawful) {slot : SlotIx} (hnone : p.parcelOf slot = none)
    (hroom : p.parcels.queue.length < 6) (left : Nat) (header : SlotHeader) : (p.beginTake slot left header).parcels.Lawful := by
  unfold Part.beginTake
  split
  · exact Part.writeTaken_lawful h hnone (.inr hroom) left header []
  · exact h.walked rfl (fun _ => .inr hroom) fun k hk => by cases hk; exact hnone

theorem Part.judgeSlot_lawful (h : p.parcels.Lawful) {slot : SlotIx} (hnone : p.parcelOf slot = none) (left : Nat)
    (ask withdraw : Half) (target length : Word) : (p.judgeSlot slot left ask withdraw target length).parcels.Lawful := by
  have hatOnce (outcome : ParcelOutcome) : (p.answerAtOnce slot left ask outcome).parcels.Lawful :=
    h.walksFrom (p.answerAtOnce_walksFrom slot left ask outcome)
  unfold Part.judgeSlot
  dsimp only
  split
  · exact hatOnce _
  split
  · exact hatOnce _
  split
  · exact hatOnce _
  split
  · exact hatOnce _
  split
  · exact hatOnce _
  split
  next hroom => exact Part.beginTake_lawful h hnone hroom left _
  next => exact h.walksFrom (p.walkStop_walksFrom slot)

theorem Part.visitRead_lawful (h : p.parcels.Lawful) {slot : SlotIx} {left : Nat} {got : List Word} (w : Word)
    (hwalk : p.parcels.walk = .visit slot left got) : (p.visitRead slot left (got ++ [w])).parcels.Lawful := by
  have hread (words : List Word) (hnone : 3 ≤ words.length → p.parcelOf slot = none) :
      ParcelUnit.Lawful { p.parcels with walk := .visit slot left words } := by
    refine h.walked rfl nofun fun k hk => ?_
    match words, hk with
    | _ :: _ :: _ :: _, hk =>
      cases hk
      exact hnone (by simp)
  have hjudged (hlong : 3 ≤ got.length) : p.parcelOf slot = none := by
    refine h.judged slot ?_
    rw [hwalk]
    match got, hlong with
    | _ :: _ :: _ :: _, _ => rfl
  unfold Part.visitRead
  dsimp only
  split
  next ask taken answer hgot =>
    split
    · exact h.walksFrom (p.answerDeferred_walksFrom slot left)
    split
    · exact h.walksFrom (p.walkOn_walksFrom slot left)
    next hjudges =>
      refine hread (got ++ [w]) fun _ => ?_
      cases hof : p.parcelOf slot with
      | none => rfl
      | some e => simp [Part.notJudged, hof] at hjudges
  next hgot =>
    have hlength := congrArg List.length hgot
    simp at hlength
    exact Part.judgeSlot_lawful h (hjudged (by omega)) left _ _ _ _
  next hshort _ =>
    refine hread (got ++ [w]) fun hlong => ?_
    refine hjudged ?_
    rw [List.length_append, List.length_singleton] at hlong
    by_contra hnot
    obtain ⟨a, b, hgot⟩ := List.length_eq_two.mp (show got.length = 2 by omega)
    exact hshort a b w (by rw [hgot]; rfl)

/-- The entry of a take joins the queue, and may end its transfer at once (R115). -/
theorem Part.parcelTaken_lawful (h : p.parcels.Lawful) {slot : SlotIx} {left : Nat} {header : SlotHeader} {request : List Byte}
    (hwalk : p.parcels.walk = .taking slot left header request) : (p.parcelTaken slot left header request).parcels.Lawful := by
  obtain ⟨q, heq, -, -, -, hfinished⟩ := p.parcelTaken_eq slot left header request
  obtain ⟨hqueue, hrests⟩ := q.walkOn_rests slot left
  let created := p.enqueueParcel (takenParcel slot header request p.loader.settings.patience p.sched.cycle)
  let after : ParcelUnit := { created.parcels with walk := (q.walkOn slot left).parcels.walk }
  have hafter : after.Lawful :=
    h.joined (e := takenParcel slot header request p.loader.settings.patience p.sched.cycle) (by rw [hwalk]; rfl) (by rw [hwalk]; rfl)
      rfl rfl rfl hrests
  rw [heq]
  exact hafter.followed (by rw [hqueue]; exact hfinished.entries.imp fun _ _ hfe => hfe.follows) rfl

theorem Part.continueWalk_lawful (h : p.parcels.Lawful) (w : Word) : (p.continueWalk w).parcels.Lawful := by
  unfold Part.continueWalk
  split
  · exact h.walksFrom (p.totalRead_walksFrom w)
  next hwalk => exact Part.visitRead_lawful h w hwalk
  next slot left header got hwalk =>
    have hnone : p.parcelOf slot = none := h.judged slot (by rw [hwalk]; rfl)
    have htakes : p.parcels.walk.takes = true := by rw [hwalk]; rfl
    dsimp only
    split
    · exact h.walked rfl (fun _ => .inl htakes) fun k hk => by cases hk; exact hnone
    · exact Part.writeTaken_lawful h hnone (.inl htakes) left header _
  next hwalk => exact Part.parcelTaken_lawful h hwalk
  · exact h
  · exact h

/-! ## The ends of the parcel unit's accesses (R116, R119, R127 to R129) -/

theorem Part.countAnswer_parcels (p : Part) (outcome : ParcelOutcome) : (p.countAnswer outcome).parcels = p.parcels := by
  unfold Part.countAnswer
  rfl

theorem Part.answerComplete_lawful (h : p.parcels.Lawful) : p.answerComplete.parcels.Lawful := by
  have hended (q : Part) (hq : q.parcels.Lawful) (outcome : ParcelOutcome) :
      ((q.count .parcelsTaken).countAnswer outcome).nextAnswer.parcels.Lawful :=
    Part.nextAnswer_lawful (p := (q.count .parcelsTaken).countAnswer outcome) (by rw [Part.countAnswer_parcels]; exact hq)
  unfold Part.answerComplete
  split
  next slot _ _ =>
    split
    next e _ =>
      have hcounted : (p.countAnswer e.outcome).parcels.Lawful := by rw [Part.countAnswer_parcels]; exact h
      exact Part.nextAnswer_lawful (Part.freeParcel_lawful hcounted slot)
    next => exact Part.nextAnswer_lawful h
  next slot _ outcome _ _ =>
    dsimp only
    split
    · exact (hended p h outcome).walksFrom (Part.walkOn_walksFrom _ _ _)
    · exact hended p h outcome
  next =>
    split
    next d _ =>
      let q : Part := { p with parcels := { p.parcels with deferred := none } }
      have hq : q.parcels.Lawful := h.kept rfl rfl
      dsimp only
      split
      · exact (hended q hq d.outcome).walksFrom (Part.walkOn_walksFrom _ _ _)
      · exact hended q hq d.outcome
    next => exact Part.nextAnswer_lawful h
  next => exact h

theorem Parcel.withdrawChecked_follows (e : Parcel) (w : Word) : (e.withdrawChecked w).Follows e := by
  unfold Parcel.withdrawChecked
  split
  · exact .of_same rfl rfl rfl rfl rfl
  · exact .rfl

theorem Part.continueAnswer_lawful (h : p.parcels.Lawful) (w : Word) : (p.continueAnswer w).parcels.Lawful := by
  unfold Part.continueAnswer
  split
  · split
    next slot _ _ =>
      have hchecked : (p.modParcel slot fun e => e.withdrawChecked w).parcels.Lawful :=
        Part.modParcel_lawful h fun e _ => e.withdrawChecked_follows w
      dsimp only
      split
      · exact Part.writeAnswer_lawful hchecked _
      · exact Part.nextAnswer_lawful hchecked
    next => exact h
  · exact Part.writeAnswer_lawful h _
  · exact Part.answerComplete_lawful h
  · exact h

theorem Part.answerFailed_lawful (h : p.parcels.Lawful) : p.answerFailed.parcels.Lawful := by
  unfold Part.answerFailed
  split
  next slot _ _ =>
    exact Part.nextAnswer_lawful (p := p.modParcel slot fun e => { e with answerFailed := true })
      (Part.modParcel_lawful_of_same h fun _ => ⟨rfl, rfl, rfl, rfl, rfl⟩)
  next slot ask outcome _ _ =>
    have hstops (q : Part) (hq : q.parcels.Lawful) : (q.walkStop slot).nextAnswer.parcels.Lawful :=
      Part.nextAnswer_lawful (hq.walksFrom (q.walkStop_walksFrom slot))
    dsimp only
    split
    · exact hstops _ (h.kept rfl rfl)
    · exact hstops _ h
  next =>
    split
    next d _ => exact Part.nextAnswer_lawful (h.walksFrom (p.walkStop_walksFrom d.slot))
    next => exact Part.nextAnswer_lawful h
  next => exact h

theorem Part.parcelEnd_lawful (h : p.parcels.Lawful) (e : ParcelEnd) : (p.parcelEnd e).parcels.Lawful := by
  match e with
  | .walk (some w) => exact Part.continueWalk_lawful h w
  | .walk none => exact h.walksFrom p.walkFailed_walksFrom
  | .answer (some w) => exact Part.continueAnswer_lawful h w
  | .answer none => exact Part.answerFailed_lawful h

theorem Part.takeParcelEnd_lawful (h : p.parcels.Lawful) (e : ParcelEnd) : (p.takeParcelEnd e).parcels.Lawful := by
  unfold Part.takeParcelEnd
  split
  · exact h.kept rfl rfl
  · exact Part.parcelEnd_lawful h e

theorem Part.resumeParcels_lawful (h : p.parcels.Lawful) : p.resumeParcels.parcels.Lawful := by
  have hkept : p.takeKeptEnd.parcels.Lawful := by
    unfold Part.takeKeptEnd
    split
    · exact Part.parcelEnd_lawful (p := { p with parcels := { p.parcels with keptEnd := none } }) (h.kept rfl rfl) _
    · exact h
  unfold Part.resumeParcels
  dsimp only
  split
  · exact ParcelUnit.Lawful.walksFrom (u := { p.takeKeptEnd.parcels with keptTrigger := false }) (hkept.kept rfl rfl)
      (Part.scanTrigger_walksFrom { p.takeKeptEnd with parcels := { p.takeKeptEnd.parcels with keptTrigger := false } })
  · exact hkept

end

end Sys2Proof.Machine
end

section
/-! SUPPORT. The law of the fetch queue (R94, R95, R108), and the operations of the event unit and of the node table under it. -/

namespace Sys2Proof.Machine

/-! ## The law, and its rules -/

/-- In LIVE or SUSPECT with events enabled, as a node of the fetch queue is (R94). -/
def NodeRecord.fetchable (r : NodeRecord) : Bool := r.state.inService && r.applied.eventsEnabled

theorem NodeRecord.fetchable_iff {r : NodeRecord} :
    r.fetchable = true ↔ r.state.inService = true ∧ r.applied.eventsEnabled = true := by
  rw [NodeRecord.fetchable, Bool.and_eq_true]

theorem Part.queueOk_iff (p : Part) : p.queueOk ↔ p.events.queue.Nodup ∧ (∀ i, i ∈ p.events.queue ↔ (p.nodeEvents i).latch = true) ∧
    ∀ i ∈ p.events.queue, (p.node i).fetchable = true := by
  simp only [Part.queueOk, NodeRecord.fetchable_iff, forall_and]

/-- The queue and the latches as they stand, and no node of the queue made unfit for it. -/
structure Part.QueueStands (q p : Part) : Prop where
  queue : q.events.queue = p.events.queue
  latch : ∀ i, (q.nodeEvents i).latch = (p.nodeEvents i).latch
  fits : ∀ i ∈ p.events.queue, (p.node i).fetchable = true → (q.node i).fetchable = true

theorem mem_removeNode {i j : NodeIx} {l : List NodeIx} : j ∈ removeNode i l ↔ j ∈ l ∧ i ≠ j := by
  rw [removeNode, List.mem_filter, bne_iff_ne, ne_comm]

theorem nodup_removeNode {l : List NodeIx} (h : l.Nodup) (i : NodeIx) : (removeNode i l).Nodup := h.filter _

section
variable {p q r : Part} {i : NodeIx}

theorem Part.QueueStands.rfl : p.QueueStands p := ⟨Eq.refl _, fun _ => Eq.refl _, fun _ _ h => h⟩

theorem Part.QueueStands.trans (h : r.QueueStands q) (k : q.QueueStands p) : r.QueueStands p :=
  ⟨h.queue.trans k.queue, fun i => (h.latch i).trans (k.latch i),
    fun i hi hp => h.fits i (by rw [k.queue]; exact hi) (k.fits i hi hp)⟩

theorem Part.fetchable_of_records (h : q.table.records = p.table.records) (i : NodeIx) :
    (q.node i).fetchable = (p.node i).fetchable := by rw [Part.node, h]; rfl

theorem Part.QueueStands.of_records (hrecords : q.table.records = p.table.records) (hqueue : q.events.queue = p.events.queue)
    (hlatch : ∀ i, (q.nodeEvents i).latch = (p.nodeEvents i).latch) : q.QueueStands p :=
  ⟨hqueue, hlatch, fun i _ h => (Part.fetchable_of_records hrecords i).trans h⟩

theorem Part.latch_of_events (h : q.events = p.events) (i : NodeIx) : (q.nodeEvents i).latch = (p.nodeEvents i).latch := by
  rw [Part.nodeEvents, h]
  rfl

theorem Part.QueueStands.of_events (hrecords : q.table.records = p.table.records) (hevents : q.events = p.events) :
    q.QueueStands p := .of_records hrecords (by rw [hevents]) (Part.latch_of_events hevents)

theorem Part.AppendsOn.queueStands (h : q.AppendsOn p) (hrecords : q.table.records = p.table.records) : q.QueueStands p :=
  .of_records hrecords (by rw [h.events]) fun i => by rw [h.nodeEvents i]

theorem Part.QueueStands.queueOk (hq : q.QueueStands p) (h : p.queueOk) : q.queueOk := by
  rw [Part.queueOk_iff] at h ⊢
  obtain ⟨hnodup, hlatch, hfits⟩ := h
  rw [hq.queue]
  exact ⟨hnodup, fun i => by rw [hq.latch]; exact hlatch i, fun i hi => hq.fits i hi (hfits i hi)⟩

/-- A node leaves the queue with its latch cleared, whatever becomes of its record. -/
theorem Part.queueOk_of_leaves (h : p.queueOk) (hqueue : q.events.queue = removeNode i p.events.queue)
    (hlatch : ∀ j, (q.nodeEvents j).latch = if i = j then false else (p.nodeEvents j).latch)
    (hfits : ∀ j, i ≠ j → (q.node j).fetchable = (p.node j).fetchable) : q.queueOk := by
  rw [Part.queueOk_iff] at h ⊢
  obtain ⟨hnodup, hbefore, hfit⟩ := h
  rw [hqueue]
  refine ⟨nodup_removeNode hnodup i, fun j => ?_, fun j hj => ?_⟩
  · rw [hlatch, mem_removeNode, hbefore]
    by_cases hij : i = j <;> simp [hij]
  · obtain ⟨hmem, hij⟩ := mem_removeNode.mp hj
    rw [hfits j hij]
    exact hfit j hmem

/-- A node fit for the queue goes to its tail with its latch set. -/
theorem Part.queueOk_of_joins (h : p.queueOk) (hfit : (p.node i).fetchable = true)
    (hqueue : q.events.queue = removeNode i p.events.queue ++ [i])
    (hlatch : ∀ j, (q.nodeEvents j).latch = if i = j then true else (p.nodeEvents j).latch)
    (hrecords : q.table.records = p.table.records) : q.queueOk := by
  rw [Part.queueOk_iff] at h ⊢
  obtain ⟨hnodup, hbefore, hfits⟩ := h
  rw [hqueue]
  refine ⟨?_, fun j => ?_, fun j hj => ?_⟩
  · rw [List.nodup_append]
    refine ⟨nodup_removeNode hnodup i, List.nodup_singleton i, fun j hj k hk heq => ?_⟩
    exact (mem_removeNode.mp hj).2 (heq.trans (List.mem_singleton.mp hk)).symm
  · rw [hlatch, List.mem_append, mem_removeNode, List.mem_singleton, hbefore]
    by_cases hij : i = j <;> simp [hij, eq_comm (a := j)]
  · rw [Part.fetchable_of_records hrecords]
    rw [List.mem_append, mem_removeNode, List.mem_singleton] at hj
    rcases hj with ⟨hmem, -⟩ | rfl
    · exact hfits j hmem
    · exact hfit

/-! ## Indications, and what an exchange and an append do with the queue -/

theorem Part.unqueue_queueOk (h : p.queueOk) (i : NodeIx) : (p.unqueue i).queueOk :=
  Part.queueOk_of_leaves h rfl
    (fun j => (congrArg NodeEvents.latch (p.modEvents_nodeEvents i j fun e => { e with latch := false })).trans (by split <;> rfl))
    fun _ _ => rfl

theorem Part.toTail_queueOk (h : p.queueOk) (i : NodeIx) : (p.toTail i).queueOk := by
  unfold Part.toTail
  split
  next hlatch =>
    obtain ⟨-, hbefore, hfits⟩ := p.queueOk_iff.mp h
    refine Part.queueOk_of_joins h (hfits i ((hbefore i).mpr hlatch)) rfl (fun j => ?_) rfl
    change (p.nodeEvents j).latch = _
    split
    next hij => rw [← hij, hlatch]
    next => rfl
  next => exact h

theorem Part.indicate_queueOk (h : p.queueOk) (hin : (p.node i).state.inService = true) (origin : LatchOrigin) :
    (p.indicate i origin).queueOk := by
  unfold Part.indicate
  split
  next henabled =>
    split
    next => exact h
    next =>
      let marked := p.modEvents i fun e => { e with latch := true, origin := origin }
      have hmarked (j : NodeIx) : (marked.nodeEvents j).latch = if i = j then true else (p.nodeEvents j).latch :=
        (congrArg NodeEvents.latch (p.modEvents_nodeEvents i j _)).trans (by split <;> rfl)
      have hjoins : marked.toTail i = marked.setQueue (removeNode i p.events.queue ++ [i]) :=
        if_pos ((hmarked i).trans (if_pos rfl))
      rw [hjoins]
      exact Part.queueOk_of_joins h (NodeRecord.fetchable_iff.mpr ⟨hin, henabled⟩) rfl hmarked rfl
  next => exact h

/-- A change of a node's event state that leaves the latch. -/
theorem Part.modEvents_queueStands (p : Part) (i : NodeIx) {f : NodeEvents → NodeEvents} (hf : ∀ e, (f e).latch = e.latch) :
    (p.modEvents i f).QueueStands p :=
  .of_records rfl rfl fun j => by
    rw [Part.modEvents_nodeEvents]
    split
    next hij => rw [hf, hij]
    next => rfl

theorem Part.confirmAck_queueStands (p : Part) (i : NodeIx) (carried : Option Byte) : (p.confirmAck i carried).QueueStands p := by
  unfold Part.confirmAck
  split
  · split
    · exact p.modEvents_queueStands i fun _ => rfl
    · exact .rfl
  · exact .rfl

theorem Part.newRound_queueStands (p : Part) : p.newRound.QueueStands p :=
  .of_records rfl rfl fun i => by
    simp only [Part.newRound, Part.nodeEvents, tabMap_get]

theorem Part.nameNode_queueStands (p : Part) (i : NodeIx) : (p.nameNode i).QueueStands p :=
  (p.claimPlace.modEvents_queueStands i (f := fun e => { e with fetched := true }) fun _ => rfl).trans
    (.of_records rfl rfl fun _ => rfl)

theorem Part.takeEvent_queueStands (p : Part) (i : NodeIx) (f : Frame) : (p.takeEvent i f).QueueStands p :=
  ((Part.enqueueAppend_appendsOn _ _ _).queueStands (by simp)).trans
    (p.modEvents_queueStands i (f := fun e => { e with intake := true }) fun _ => rfl)

theorem Part.fetchReply_queueOk (h : p.queueOk) (i : NodeIx) (f : Frame) : (p.fetchReply i f).queueOk := by
  unfold Part.fetchReply
  dsimp only
  split
  · exact Part.unqueue_queueOk h i
  split
  · exact Part.toTail_queueOk
      ((((p.releasePlace.count .eventDuplicates).modEvents_queueStands i (f := fun e => { e with ackOwed := true })
        fun _ => rfl)).queueOk h) i
  · exact (p.takeEvent_queueStands i f).queueOk h

theorem Part.eventAccepted_queueOk (h : p.queueOk) (a : Append) (i : NodeIx) (seq : Byte) (more : Bool) :
    (p.eventAccepted a i seq more).queueOk := by
  have hended : (p.modEvents i fun e => { e with intake := false }).queueOk :=
    (p.modEvents_queueStands i (f := fun e => { e with intake := false }) fun _ => rfl).queueOk h
  have haccepted := (Part.modEvents_queueStands _ i (f := fun e => { e with accepted := seq, valid := true, ackOwed := true })
    fun _ => rfl).queueOk hended
  unfold Part.eventAccepted
  dsimp only
  split
  · exact hended
  split
  · exact haccepted
  split
  · exact Part.toTail_queueOk haccepted i
  · exact Part.unqueue_queueOk haccepted i

theorem Part.appendPublished_queueOk (h : p.queueOk) (a : Append) : (p.appendPublished a).queueOk := by
  have hpublished : p.wordPublished.queueOk := h
  cases hwhat : a.what with
  | event i seq more =>
    have hrecords : (p.appendPublished a).table.records = (p.wordPublished.eventAccepted a i seq more).table.records := by
      simp [Part.wordPublished]
    exact ((Part.appendPublished_of_event hwhat).queueStands hrecords).queueOk (Part.eventAccepted_queueOk hpublished a i seq more)
  | note address count =>
    rw [p.appendPublished_of_note hwhat]
    have hnoted : (p.notePublished a address count).QueueStands p.wordPublished :=
      ((Part.nextAppend_appendsOn _).queueStands (by simp)).trans (.of_records rfl rfl fun _ => rfl)
    exact (((Part.offerNote_appendsOn _).queueStands (by simp)).trans hnoted).queueOk hpublished

theorem Part.continueAppend_queueOk (h : p.queueOk) : p.continueAppend.queueOk := by
  unfold Part.continueAppend
  split
  next pos a rest _ _ =>
    split
    · exact h
    split
    · exact h
    split
    · exact Part.appendPublished_queueOk h a
    · exact ((Part.nextAppend_appendsOn p).queueStands (by simp)).queueOk h
  next => exact h

theorem Part.appendAborted_queueOk (h : p.queueOk) (a : Append) : (p.appendAborted a).queueOk := by
  have hnext (q : Part) (hq : q.queueOk) : q.nextAppend.queueOk := ((Part.nextAppend_appendsOn q).queueStands (by simp)).queueOk hq
  unfold Part.appendAborted
  dsimp only
  refine hnext _ ?_
  split
  next i _ _ _ =>
    exact (p.releasePlace.modEvents_queueStands i (f := fun e => { e with intake := false }) fun _ => rfl).queueOk h
  next => exact h

theorem Part.appendFailed_queueOk (h : p.queueOk) : p.appendFailed.queueOk := by
  have hnext (q : Part) (hq : q.queueOk) : q.nextAppend.queueOk := ((Part.nextAppend_appendsOn q).queueStands (by simp)).queueOk hq
  unfold Part.appendFailed
  split
  next pos a rest _ _ =>
    split
    · exact Part.appendAborted_queueOk h a
    · split
      next i _ _ _ =>
        refine hnext _ (Part.QueueStands.queueOk (p := p) ⟨rfl, fun _ => rfl, fun j _ hj => ?_⟩ h)
        change ((p.modNode i fun r => { r with statusOwed := true }).node j).fetchable = true
        rw [Part.modNode_node]
        split
        next hij => subst hij; exact hj
        next => exact hj
      next => exact hnext _ h
  next => exact h

/-! ## A record's change (R5, R108) -/

/-- A record changed where it stands: a node of the queue stays fit for it. -/
theorem Part.modNode_queueStands {f : NodeRecord → NodeRecord}
    (hf : i ∈ p.events.queue → (p.node i).fetchable = true → (f (p.node i)).fetchable = true) : (p.modNode i f).QueueStands p :=
  ⟨rfl, fun _ => rfl, fun j hj hfit => by
    rw [Part.modNode_node]
    split
    next hij => subst hij; exact hf hj hfit
    next => exact hfit⟩

theorem Part.eventLeaves_latch (p : Part) (i j : NodeIx) :
    ((p.eventLeaves i).nodeEvents j).latch = if i = j then false else (p.nodeEvents j).latch := by
  rw [Part.eventLeaves_nodeEvents]
  split <;> rfl

theorem Part.eventLeaves_queueOk (h : p.queueOk) (i : NodeIx) : (p.eventLeaves i).queueOk :=
  Part.queueOk_of_leaves h (p.eventLeaves_queue i) (p.eventLeaves_latch i) fun _ _ => rfl

theorem Part.eventCleared_queueOk (h : p.queueOk) (i : NodeIx) : (p.eventCleared i).queueOk :=
  Part.queueOk_of_leaves h (p.eventCleared_queue i) (fun j => by rw [Part.eventCleared_nodeEvents]; split <;> rfl) fun _ _ => rfl

theorem NodeRecord.moved_state (r : NodeRecord) (f : NodeRecord → NodeRecord) (new : NodeState) : (r.moved f new).state = new := by
  unfold NodeRecord.moved NodeRecord.leaveService
  dsimp only
  split <;> rfl

/-- A state change: a node that leaves service leaves the queue, and one that stays in service keeps its events enabled there. -/
theorem Part.moveNode_queueOk (h : p.queueOk) {f : NodeRecord → NodeRecord} {new : NodeState}
    (hf : i ∈ p.events.queue → new.inService = true → (f (p.node i)).applied.eventsEnabled = true) :
    (p.moveNode i f new).queueOk := by
  have hevents := p.moveNode_events i f new
  have hother (j : NodeIx) (hij : i ≠ j) : ((p.moveNode i f new).node j).fetchable = (p.node j).fetchable := by
    rw [Part.moveNode_node, if_neg hij]
  split at hevents
  next =>
    exact Part.queueOk_of_leaves h (by rw [hevents]; rfl)
      (fun j => (Part.latch_of_events hevents j).trans (p.eventLeaves_latch i j)) hother
  next hstays =>
    refine Part.QueueStands.queueOk ⟨by rw [hevents], Part.latch_of_events hevents, fun j hj hfit => ?_⟩ h
    by_cases hij : i = j
    · subst hij
      rw [Part.moveNode_node, if_pos rfl, NodeRecord.fetchable_iff, NodeRecord.moved_applied, NodeRecord.moved_state]
      obtain ⟨hin, -⟩ := NodeRecord.fetchable_iff.mp hfit
      have hnew : new.inService = true := by simpa [hin] using hstays
      exact ⟨hnew, hf hj hnew⟩
    · rw [hother j hij]
      exact hfit

theorem Part.applyLoss_queueStands (p : Part) (e : NodeEntry) (size : Nat) : (p.applyLoss e size).QueueStands p :=
  .of_events (by simp) (by simp)

theorem Part.queueStatus_queueStands (p : Part) (i : NodeIx) (cause : Bool) : (p.queueStatus i cause).QueueStands p :=
  .of_events (by simp) (by simp)

/-- A state change on an exchange, a bid, an alert or a countdown loads no entry. -/
theorem Part.changeState_queueOk (h : p.queueOk) (i : NodeIx) (f : NodeRecord → NodeRecord) (new : NodeState)
    (hf : ∀ r, (f r).applied = r.applied) : (p.changeState i f new).queueOk := by
  have hmoves (q : Part) (hq : q.queueOk) : (q.moveNode i f new).queueOk := by
    refine Part.moveNode_queueOk hq fun hi _ => ?_
    obtain ⟨-, -, hfits⟩ := q.queueOk_iff.mp hq
    rw [hf]
    exact (NodeRecord.fetchable_iff.mp (hfits i hi)).2
  unfold Part.changeState
  dsimp only
  split
  · exact hmoves p h
  · exact hmoves _ ((p.applyLoss_queueStands _ _).queueOk h)

/-! ## Outcomes, bids and alerts (R8, R10 to R15) -/

theorem Part.modNode_queueOk (h : p.queueOk) {f : NodeRecord → NodeRecord}
    (hf : ∀ r, (f r).state = r.state ∧ (f r).applied = r.applied) : (p.modNode i f).queueOk :=
  Part.QueueStands.queueOk (Part.modNode_queueStands fun _ hfit => by
    obtain ⟨hstate, happlied⟩ := hf (p.node i)
    rwa [NodeRecord.fetchable, hstate, happlied]) h

theorem Part.goodAnswer_queueOk (h : p.queueOk) {f : NodeRecord → NodeRecord}
    (hf : ∀ r, (f r).state = r.state ∧ (f r).applied = r.applied) : (p.goodAnswer i f).queueOk := by
  unfold Part.goodAnswer
  dsimp only
  split
  · exact Part.changeState_queueOk h i _ _ fun r => (hf r).2
  · exact Part.modNode_queueOk h fun r => hf r

theorem Part.goodEvent_queueOk (h : p.queueOk) (i : NodeIx) : (p.goodEvent i).queueOk := by
  unfold Part.goodEvent
  split
  · exact Part.goodAnswer_queueOk h fun _ => ⟨rfl, rfl⟩
  · exact h

theorem Part.goodData_queueOk (h : p.queueOk) (i : NodeIx) (f : Frame) : (p.goodData i f).queueOk := by
  unfold Part.goodData
  dsimp only
  split
  next hin =>
    split
    · exact Part.changeState_queueOk h i _ _ fun _ => rfl
    · let g := fun r : NodeRecord => { r with fresh := true, degraded := f.flag 1 }
      let q := (p.writeShadow (p.node i).applied.inOffset f.payload).goodAnswer i g
      have hq : q.queueOk := Part.goodAnswer_queueOk (p := p.writeShadow _ _) h fun _ => ⟨rfl, rfl⟩
      have hqin : (q.node i).state.inService = true := by
        obtain ⟨changes, hnode⟩ := Part.goodAnswer_node (p := p.writeShadow (p.node i).applied.inOffset f.payload) (f := g)
          (i := i) hin rfl
        rw [hnode]
        rfl
      have hindicates (r : Part) (hr : r.queueOk) (hrin : (r.node i).state.inService = true) :
          (if f.flag 0 then r.indicate i .data else r).queueOk := by
        split
        · exact Part.indicate_queueOk hr hrin _
        · exact hr
      let due := (p.node i).state = .live ∧ (p.node i).degraded ≠ f.flag 1
      change (if f.flag 0 then (if due then q.queueStatus i false else q).indicate i .data
        else if due then q.queueStatus i false else q).queueOk
      by_cases hdue : due
      · rw [if_pos hdue]
        exact hindicates _ ((q.queueStatus_queueStands i false).queueOk hq) (by rw [Part.queueStatus_node]; exact hqin)
      · rw [if_neg hdue]
        exact hindicates q hq hqin
  next => exact h

theorem Part.goodIdent_queueOk (h : p.queueOk) (i : NodeIx) (f : Frame) : (p.goodIdent i f).queueOk := by
  unfold Part.goodIdent
  dsimp only
  split
  · exact Part.changeState_queueOk h i _ _ fun _ => rfl
  · exact h

theorem Part.miss_queueOk (h : p.queueOk) (i : NodeIx) : (p.miss i).queueOk := by
  have hcounted : (p.count .nodeMisses).queueOk := h
  unfold Part.miss
  dsimp only
  split
  · split
    · exact Part.changeState_queueOk hcounted i _ _ fun _ => rfl
    split
    · exact Part.changeState_queueOk hcounted i _ _ fun _ => rfl
    · exact (Part.queueStatus_queueStands _ i false).queueOk (Part.modNode_queueOk hcounted fun _ => ⟨rfl, rfl⟩)
  · exact h

theorem Part.nodeBid_queueOk (h : p.queueOk) (i : NodeIx) (reason : Byte) : (p.nodeBid i reason).queueOk := by
  have hprobes : (p.changeState i NodeRecord.toProbing .probing).queueOk := Part.changeState_queueOk h i _ _ fun _ => rfl
  have hserves (hin : (p.node i).state.inService = true) :
      (if reason = 1 then p.indicate i .bid else p.changeState i NodeRecord.toProbing .probing).queueOk := by
    split
    · exact Part.indicate_queueOk h hin _
    · exact hprobes
  unfold Part.nodeBid
  split
  next hs => exact hserves (by rw [hs]; rfl)
  next hs => exact hserves (by rw [hs]; rfl)
  · exact hprobes
  all_goals exact h

theorem Part.nodeAlert_queueOk (h : p.queueOk) (i : NodeIx) : (p.nodeAlert i).queueOk := by
  unfold Part.nodeAlert
  split
  next hs => exact Part.indicate_queueOk h (by rw [hs]; rfl) _
  next hs => exact Part.indicate_queueOk h (by rw [hs]; rfl) _
  · exact Part.changeState_queueOk h i _ _ fun _ => rfl
  all_goals exact h

/-! ## A commit (R6, R7, R108) -/

theorem Part.commitNode_queueOk (h : p.queueOk) (i : NodeIx) (new : NodeEntry) : (p.commitNode i new).queueOk := by
  have rewritten (q : Part) (due : Bool) (hq : q.queueOk) :
      (if due && q.ladder.state != .starting then q.queueStatus i false else q).queueOk := by
    split
    · exact (q.queueStatus_queueStands i false).queueOk hq
    · exact hq
  have hcleared := Part.eventCleared_queueOk h i
  have hgone : i ∉ (p.eventCleared i).events.queue := by
    rw [Part.eventCleared_queue, mem_removeNode]
    exact fun hmem => hmem.2 rfl
  unfold Part.commitNode
  dsimp only
  split
  · split
    next hexcluded =>
      refine rewritten _ _ ((Part.modNode_queueStands fun _ hfit => ?_).queueOk h)
      simp [NodeRecord.fetchable, hexcluded, NodeState.inService] at hfit
    next => exact Part.moveNode_queueOk h nofun
  split
  · split
    · exact rewritten _ _ ((Part.modNode_queueStands fun hi => absurd hi hgone).queueOk hcleared)
    · exact Part.moveNode_queueOk hcleared nofun
  let q := if (p.node i).applied.eventsEnabled && !new.eventsEnabled then p.eventLeaves i else p
  have hq : q.queueOk := by
    unfold q
    split
    · exact Part.eventLeaves_queueOk h i
    · exact h
  have henabled (hi : i ∈ q.events.queue) : new.eventsEnabled = true := by
    obtain ⟨-, -, hfits⟩ := p.queueOk_iff.mp h
    unfold q at hi
    split at hi
    next =>
      rw [Part.eventLeaves_queue, mem_removeNode] at hi
      exact absurd rfl hi.2
    next hkept =>
      have hbefore := (NodeRecord.fetchable_iff.mp (hfits i hi)).2
      simpa [hbefore] using hkept
  have hload (f : NodeRecord → NodeRecord) (hstate : ∀ r, (f r).state = r.state) (happlied : ∀ r, (f r).applied = new) :
      (q.modNode i f).queueOk := by
    refine (Part.modNode_queueStands fun hi hfit => ?_).queueOk hq
    rw [NodeRecord.fetchable_iff, hstate, happlied]
    exact ⟨(NodeRecord.fetchable_iff.mp hfit).1, henabled hi⟩
  split
  · exact Part.moveNode_queueOk hq nofun
  split
  · exact rewritten _ _ (hload _ (fun _ => rfl) fun _ => rfl)
  · exact rewritten _ _ (hload _ (fun _ => rfl) fun _ => rfl)

theorem Part.nodeCommit_queueOk (h : p.queueOk) (new : Vector NodeEntry 48) (size : Nat) : (p.nodeCommit new size).queueOk := by
  have fold (f : Part → NodeIx → Part) (hf : ∀ q i, q.queueOk → (f q i).queueOk) (q : Part) (hq : q.queueOk) :
      (allNodes.foldl f q).queueOk := List.foldlRecOn (motive := Part.queueOk) _ _ hq fun r hr i _ => hf r i hr
  have hloss (q : Part) (e : NodeEntry) (due : Bool) (hq : q.queueOk) : (if due then q.applyLoss e size else q).queueOk := by
    split
    · exact (q.applyLoss_queueStands e size).queueOk hq
    · exact hq
  unfold Part.nodeCommit
  exact fold _ (fun q i hq => Part.commitNode_queueOk hq i _) _
    (fold _ (fun q i hq => hloss q _ _ hq) _ (fold _ (fun q i hq => hloss q _ _ hq) _ h))

theorem Part.nodeOpen_queueStands (p : Part) (exempt : NodeIx → Bool) : (p.nodeOpen exempt).QueueStands p :=
  ⟨rfl, fun _ => rfl, fun i _ hfit => by
    rw [show (p.nodeOpen exempt).node i = (p.node i).atOpen (exempt i) from tabMap_get _ _ _]
    exact hfit⟩

theorem Part.restoreAccepted_queueStands (p : Part) : p.restoreAccepted.QueueStands p := by
  refine .of_records (by simp) ?_ fun i => by rw [Part.restoreAccepted_events]
  unfold Part.restoreAccepted
  split <;> rfl

theorem Part.acceptCommit_queueOk (h : p.queueOk) (d : Directory) (c : Check) (v : Verdict) : (p.acceptCommit d c v).queueOk := by
  have hparcels : (p.parcelCommit d.appliedEntries).queueOk :=
    Part.QueueStands.queueOk (.of_events (by simp) (by simp)) h
  have hunits : (p.commitUnits d c v).queueOk := by
    have hrecords := Part.nodeCommit_queueOk hparcels d.appliedEntries d.settings.inBytes
    refine Part.QueueStands.queueOk (.of_records rfl rfl fun _ => rfl) hrecords
  rw [Part.acceptCommit_eq]
  refine Part.QueueStands.queueOk (p := (p.commitUnits d c v).commitOrigin c.origin p.table.records) (.of_events (by simp) (by simp)) ?_
  unfold Part.commitOrigin
  split
  · exact (Part.nodeOpen_queueStands _ _).queueOk hunits
  · refine List.foldlRecOn (motive := Part.queueOk) _ _ ((Part.restoreAccepted_queueStands _).queueOk hunits) ?_
    exact fun q hq i _ => (q.queueStatus_queueStands i false).queueOk hq
  · exact hunits
  · exact hunits

end

end Sys2Proof.Machine
end

section
/-! SUPPORT. The law of the event list's places (R96, R104 to R107, R110), and the operations of the event unit under it. -/

namespace Sys2Proof.Machine

/-! ## The law, and its rules -/

/-- The appends whose record is not yet published. -/
def EventUnit.owing (e : EventUnit) : Nat := e.appends.length - (if e.appending.any (9 ≤ ·) then 1 else 0)

/-- A FETCH is under way (R96). -/
def Part.Fetches (p : Part) : Prop := (p.ladder.state = .run ∨ p.ladder.state = .heldService) ∧ p.frames.fetching = true

/-- The law of `Part.placesOk`, with `k` places claimed for what is in hand and needs one. -/
structure Part.PlacesHeld (k : Nat) (p : Part) : Prop where
  within : p.events.backlog + p.events.claimed ≤ 64
  enough : p.events.owing + k ≤ p.events.claimed
  fetching : p.Fetches → p.events.owing + 1 + k ≤ p.events.claimed
  starting : p.ladder.state = .starting → p.events.claimed = 0 ∧ p.events.appends = []

theorem Part.placesOk_iff (p : Part) : p.placesOk ↔ p.PlacesHeld 0 := by
  have hneeded : p.placesNeeded ≤ p.events.claimed ↔
      p.events.owing ≤ p.events.claimed ∧ (p.Fetches → p.events.owing + 1 ≤ p.events.claimed) := by
    change p.events.owing + _ ≤ _ ↔ _
    by_cases hf : (p.ladder.state = .run ∨ p.ladder.state = .heldService) ∧ p.frames.fetching = true
    · rw [if_pos hf]
      exact ⟨fun h => ⟨by omega, fun _ => h⟩, fun h => h.2 hf⟩
    · rw [if_neg hf]
      exact ⟨fun h => ⟨h, fun h => absurd h hf⟩, fun h => h.1⟩
  rw [Part.placesOk, hneeded]
  exact ⟨fun ⟨hwithin, ⟨henough, hfetching⟩, hstarting⟩ => ⟨hwithin, henough, hfetching, hstarting⟩,
    fun ⟨hwithin, henough, hfetching, hstarting⟩ => ⟨hwithin, ⟨henough, hfetching⟩, hstarting⟩⟩

/-- The places as they stand: no more is needed, and no more of them filled. -/
structure Part.PlacesStand (q p : Part) : Prop where
  backlog : q.events.backlog ≤ p.events.backlog
  claimed : q.events.claimed = p.events.claimed
  owing : q.events.owing ≤ p.events.owing
  empty : p.events.appends = [] → q.events.appends = []
  fetches : q.Fetches → p.Fetches
  starting : q.ladder.state = .starting → p.ladder.state = .starting

section
variable {p q r : Part} {k : Nat}

theorem Part.PlacesStand.rfl : p.PlacesStand p := ⟨le_refl _, Eq.refl _, le_refl _, id, id, id⟩

theorem Part.PlacesStand.trans (h : r.PlacesStand q) (l : q.PlacesStand p) : r.PlacesStand p :=
  ⟨h.backlog.trans l.backlog, h.claimed.trans l.claimed, h.owing.trans l.owing, fun he => h.empty (l.empty he),
    fun hf => l.fetches (h.fetches hf), fun hs => l.starting (h.starting hs)⟩

theorem Part.PlacesStand.held (hq : q.PlacesStand p) (h : p.PlacesHeld k) : q.PlacesHeld k := by
  obtain ⟨hbacklog, hclaimed, howing, hempty, hfetches, hstarts⟩ := hq
  obtain ⟨hwithin, henough, hfetching, hstarting⟩ := h
  refine ⟨by omega, by omega, fun hf => ?_, fun hs => ?_⟩
  · have := hfetching (hfetches hf)
    omega
  · obtain ⟨hnone, happends⟩ := hstarting (hstarts hs)
    exact ⟨hclaimed.trans hnone, hempty happends⟩

theorem Part.Fetches.of_same (hladder : q.ladder.state = p.ladder.state) (hexchange : q.frames.exchange = p.frames.exchange)
    (h : q.Fetches) : p.Fetches := by
  unfold Part.Fetches FrameEngine.fetching at *
  rwa [← hladder, ← hexchange]

/-- The event unit's list as it stands. -/
theorem Part.PlacesStand.of_list (hwritten : q.events.written = p.events.written) (htaken : q.events.taken = p.events.taken)
    (hclaimed : q.events.claimed = p.events.claimed) (hlength : q.events.appends.length = p.events.appends.length)
    (happending : q.events.appending.any (9 ≤ ·) = p.events.appending.any (9 ≤ ·))
    (hladder : q.ladder.state = p.ladder.state) (hexchange : q.frames.exchange = p.frames.exchange) : q.PlacesStand p := by
  refine ⟨?_, hclaimed, ?_, fun he => ?_, .of_same hladder hexchange, fun hs => hladder ▸ hs⟩
  · rw [EventUnit.backlog, hwritten, htaken, EventUnit.backlog]
  · rw [EventUnit.owing, hlength, happending, EventUnit.owing]
  · rw [← List.length_eq_zero_iff, hlength, he, List.length_nil]

theorem Part.PlacesStand.of_events (hevents : q.events = p.events) (hladder : q.ladder.state = p.ladder.state)
    (hexchange : q.frames.exchange = p.frames.exchange) : q.PlacesStand p :=
  .of_list (by rw [hevents]) (by rw [hevents]) (by rw [hevents]) (by rw [hevents]) (by rw [hevents]) hladder hexchange

/-- The frame engine has no FETCH. -/
theorem Part.not_fetches (h : q.frames.fetching = false) : ¬ q.Fetches := fun hf => by
  cases h.symm.trans hf.2

/-- The frame engine is given something else, or nothing. -/
theorem Part.PlacesStand.of_notFetching (hevents : q.events = p.events) (hladder : q.ladder.state = p.ladder.state)
    (hfetching : q.frames.fetching = false) : q.PlacesStand p :=
  ⟨by rw [hevents], by rw [hevents], by rw [hevents], fun h => by rw [hevents]; exact h,
    fun hf => absurd hf (Part.not_fetches hfetching), fun hs => hladder ▸ hs⟩

/-! ## Places claimed, given to a FETCH, and released -/

theorem EventUnit.room_of_freePlaces {e : EventUnit} (h : 0 < e.freePlaces) : e.backlog + e.claimed < 64 := by
  unfold EventUnit.freePlaces at h
  split at h
  · cases h
  · change 0 < 64 - e.backlog - e.claimed at h
    omega

/-- A place is claimed (R96, step 3; R107). -/
theorem Part.PlacesHeld.claimed (h : p.PlacesHeld k) (hroom : 0 < p.events.freePlaces) (hstate : p.ladder.state ≠ .starting)
    (hclaimed : q.events = { p.events with nodes := q.events.nodes, claimed := p.events.claimed + 1 })
    (hladder : q.ladder.state = p.ladder.state) (hexchange : q.frames.exchange = p.frames.exchange) : q.PlacesHeld (k + 1) := by
  have hfree := EventUnit.room_of_freePlaces hroom
  have hcount : q.events.claimed = p.events.claimed + 1 := by rw [hclaimed]
  have hbacklog : q.events.backlog = p.events.backlog := by rw [hclaimed]; rfl
  have howing : q.events.owing = p.events.owing := by rw [hclaimed]; rfl
  obtain ⟨hwithin, henough, hfetching, -⟩ := h
  refine ⟨by omega, by omega, fun hf => ?_, fun hs => absurd (hladder ▸ hs) hstate⟩
  have := hfetching (hf.of_same hladder hexchange)
  omega

theorem Part.nameNode_placesHeld (h : p.PlacesHeld k) (hroom : 0 < p.events.freePlaces) (hstate : p.ladder.state ≠ .starting)
    (i : NodeIx) : (p.nameNode i).PlacesHeld (k + 1) := h.claimed hroom hstate rfl rfl rfl

/-- The place in hand is the FETCH's that is given to the frame engine (R96). -/
theorem Part.giveFetch_placesHeld (h : p.PlacesHeld 1) (i : NodeIx) : (p.giveFetch i).PlacesHeld 0 := by
  obtain ⟨hwithin, henough, -, hstarting⟩ := h
  exact ⟨hwithin, Nat.le_of_succ_le henough, fun _ => henough, hstarting⟩

/-- A place in hand is released. -/
theorem Part.releasePlace_placesHeld (h : p.PlacesHeld (k + 1)) : p.releasePlace.PlacesHeld k := by
  obtain ⟨hwithin, henough, hfetching, hstarting⟩ := h
  have hcount : p.releasePlace.events.claimed = p.events.claimed - 1 := rfl
  have hbacklog : p.releasePlace.events.backlog = p.events.backlog := rfl
  have howing : p.releasePlace.events.owing = p.events.owing := rfl
  refine ⟨by omega, by omega, fun hf => ?_, fun hs => ⟨?_, (hstarting hs).2⟩⟩
  · have := hfetching hf
    omega
  · have := (hstarting hs).1
    omega

/-! ## Appends (R104, R105) -/

theorem Part.startAppend_placesStand (p : Part) : p.startAppend.PlacesStand p := by
  unfold Part.startAppend
  split
  next hnone _ _ => exact .of_list rfl rfl rfl rfl (by rw [hnone]; rfl) rfl rfl
  next => exact .rfl

theorem Part.enqueueAppend_placesHeld (h : p.PlacesHeld (k + 1)) (hstate : p.ladder.state ≠ .starting) (what : AppendFor)
    (record : List Word) : (p.enqueueAppend what record).PlacesHeld k := by
  let q : Part := { p with events := { p.events with
    appends := p.events.appends ++ [{ what := what, record := record, detached := false, void := false }] } }
  refine q.startAppend_placesStand.held ?_
  obtain ⟨hwithin, henough, hfetching, -⟩ := h
  have howing : q.events.owing ≤ p.events.owing + 1 := by
    have hlength : q.events.appends.length = p.events.appends.length + 1 := List.length_append
    rw [EventUnit.owing, EventUnit.owing, hlength]
    change _ - (if p.events.appending.any (9 ≤ ·) then 1 else 0) ≤ _
    omega
  have hcount : q.events.claimed = p.events.claimed := rfl
  refine ⟨hwithin, by omega, fun hf => ?_, fun hs => absurd hs hstate⟩
  have := hfetching hf
  omega

theorem Part.offerNote_placesHeld (h : p.PlacesHeld k) : p.offerNote.PlacesHeld k := by
  unfold Part.offerNote
  split
  next hallowed =>
    obtain ⟨hfree, hworks⟩ := Bool.and_eq_true_iff.mp hallowed
    obtain ⟨-, hroom⟩ := Bool.and_eq_true_iff.mp hfree
    have hstate : p.ladder.state ≠ .starting := fun hs => by simp [hs, LadderState.worksMemory] at hworks
    split
    next =>
      have hclaimed : p.claimPlace.PlacesHeld (k + 1) := h.claimed (of_decide_eq_true hroom) hstate rfl rfl rfl
      let q : Part := { p.claimPlace with events := { p.claimPlace.events with noteUnderWay := true } }
      have hq : q.PlacesHeld (k + 1) := Part.PlacesStand.held (p := p.claimPlace) (.of_list rfl rfl rfl rfl rfl rfl rfl) hclaimed
      exact Part.enqueueAppend_placesHeld hq hstate _ _
    next => exact h
  next => exact h

/-- The append in progress has its record published, or is given up: its place is filled or released (R104, R105). -/
theorem Part.PlacesHeld.settled (h : p.PlacesHeld k) {pos : Nat} (hpos : p.events.appending = some pos) (hopen : pos ≤ 8)
    (happends : p.events.appends ≠ []) (hbacklog : q.events.backlog ≤ p.events.backlog + 1)
    (hclaimed : q.events.claimed = p.events.claimed - 1) (howing : q.events.owing = p.events.appends.length - 1)
    (hladder : q.ladder.state = p.ladder.state) (hexchange : q.frames.exchange = p.frames.exchange) : q.PlacesHeld k := by
  have hlength : 0 < p.events.appends.length := List.length_pos_iff.mpr happends
  have hbefore : p.events.owing = p.events.appends.length := by
    have hany : p.events.appending.any (9 ≤ ·) = false := by
      rw [hpos]
      exact decide_eq_false (by omega)
    rw [EventUnit.owing, hany]
    rfl
  obtain ⟨hwithin, henough, hfetching, hstarting⟩ := h
  refine ⟨by omega, by omega, fun hf => ?_, fun hs => absurd (hstarting (hladder ▸ hs)).2 happends⟩
  have := hfetching (hf.of_same hladder hexchange)
  omega

/-- One more record is written. -/
theorem EventUnit.backlog_published {e f : EventUnit} (hwritten : f.written = e.written + 1) (htaken : f.taken = e.taken) :
    f.backlog ≤ e.backlog + 1 := by
  rw [EventUnit.backlog, hwritten, htaken, EventUnit.backlog, add_sub_right_comm, BitVec.toNat_add]
  exact Nat.mod_le _ _

/-- Nodes, queue and what is said of the list have changed, the list itself has not. -/
structure Part.ListStands (q p : Part) : Prop where
  written : q.events.written = p.events.written
  taken : q.events.taken = p.events.taken
  claimed : q.events.claimed = p.events.claimed
  appends : q.events.appends = p.events.appends
  ladder : q.ladder.state = p.ladder.state
  exchange : q.frames.exchange = p.frames.exchange

theorem Part.ListStands.of_events (hevents : q.events = p.events) (hladder : q.ladder.state = p.ladder.state)
    (hexchange : q.frames.exchange = p.frames.exchange) : q.ListStands p :=
  ⟨by rw [hevents], by rw [hevents], by rw [hevents], by rw [hevents], hladder, hexchange⟩

theorem Part.ListStands.trans (h : r.ListStands q) (l : q.ListStands p) : r.ListStands p :=
  ⟨h.written.trans l.written, h.taken.trans l.taken, h.claimed.trans l.claimed, h.appends.trans l.appends,
    h.ladder.trans l.ladder, h.exchange.trans l.exchange⟩

theorem Part.eventAccepted_listStands (p : Part) (a : Append) (i : NodeIx) (seq : Byte) (more : Bool) :
    (p.eventAccepted a i seq more).ListStands p := by
  unfold Part.eventAccepted Part.toTail Part.unqueue
  dsimp only
  (repeat' split) <;> exact ⟨rfl, rfl, rfl, rfl, rfl, rfl⟩

theorem Part.ListStands.backlog (hq : q.ListStands p) : q.events.backlog = p.events.backlog := by
  rw [EventUnit.backlog, hq.written, hq.taken, EventUnit.backlog]

section
variable {pos : Nat} {a : Append} {rest : List Append}

/-- The record of the append in progress is published, or given up, and the append is over. -/
theorem Part.PlacesHeld.over (h : p.PlacesHeld k) (hpos : p.events.appending = some pos) (hopen : pos ≤ 8)
    (happends : p.events.appends = a :: rest) (hbacklog : q.events.backlog ≤ p.events.backlog + 1)
    (hclaimed : q.events.claimed = p.events.claimed - 1) (hsame : q.events.appends = p.events.appends)
    (hladder : q.ladder.state = p.ladder.state) (hexchange : q.frames.exchange = p.frames.exchange) : q.nextAppend.PlacesHeld k := by
  let r : Part := { q with events := { q.events with appends := q.events.appends.drop 1, appending := none } }
  have howing : r.events.owing = p.events.appends.length - 1 := by
    rw [← hsame]
    exact List.length_drop
  exact r.startAppend_placesStand.held
    (h.settled hpos hopen (by rw [happends]; exact List.cons_ne_nil _ _) hbacklog hclaimed howing hladder hexchange)

theorem Part.wordPublished_backlog (p : Part) : p.wordPublished.events.backlog ≤ p.events.backlog + 1 :=
  EventUnit.backlog_published (e := p.events) rfl rfl

theorem Part.appendPublished_placesHeld (h : p.PlacesHeld k) (hpos : p.events.appending = some pos) (hopen : pos ≤ 8)
    (happends : p.events.appends = a :: rest) : (p.appendPublished a).PlacesHeld k := by
  let w := p.wordPublished
  have hbacklog {q : Part} (hq : q.ListStands w) : q.events.backlog ≤ p.events.backlog + 1 := by
    rw [hq.backlog]
    exact p.wordPublished_backlog
  have hover {q : Part} (hq : q.ListStands w) : q.nextAppend.offerNote.PlacesHeld k :=
    Part.offerNote_placesHeld (h.over hpos hopen happends (hbacklog hq) hq.claimed hq.appends hq.ladder hq.exchange)
  have hwritesOn {q : Part} (hq : q.ListStands w) :
      ({ q with events := { q.events with appending := some 9 } } : Part).PlacesHeld k := by
    refine h.settled hpos hopen (by rw [happends]; exact List.cons_ne_nil _ _) (hbacklog (q := q) hq) hq.claimed ?_ hq.ladder
      hq.exchange
    rw [← show q.events.appends = p.events.appends from hq.appends]
    rfl
  cases hwhat : a.what with
  | event i seq more =>
    let q := w.eventAccepted a i seq more
    let blocked : Part := { q with events := { q.events with blockedBy := some i } }
    let writing : Part := { q with events := { q.events with appending := some 9 } }
    have hq : q.ListStands w := w.eventAccepted_listStands a i seq more
    have hblocked : (blocked.queueStatus i false).ListStands w :=
      (Part.ListStands.of_events (blocked.queueStatus_events i false) (by simp) (by simp)).trans (q := blocked)
        ⟨hq.written, hq.taken, hq.claimed, hq.appends, hq.ladder, hq.exchange⟩
    rw [Part.appendPublished, hwhat]
    dsimp only
    split
    · exact hover hblocked
    · exact Part.offerNote_placesHeld (Part.PlacesStand.held (p := writing) (.of_events rfl rfl rfl) (hwritesOn hq))
  | note address count =>
    rw [p.appendPublished_of_note hwhat]
    exact hover ⟨rfl, rfl, rfl, rfl, rfl, rfl⟩

theorem Part.appendAborted_placesHeld (h : p.PlacesHeld k) (hpos : p.events.appending = some pos) (hopen : pos ≤ 8)
    (happends : p.events.appends = a :: rest) : (p.appendAborted a).PlacesHeld k := by
  unfold Part.appendAborted
  dsimp only
  split <;> exact h.over hpos hopen happends (Nat.le_succ _) rfl rfl rfl rfl

/-- An append whose record is published is over: none of the places is its own. -/
theorem Part.nextAppend_placesHeld (h : p.PlacesHeld k) (hpos : p.events.appending = some pos) (hpublished : 9 ≤ pos) :
    p.nextAppend.PlacesHeld k := by
  let r : Part := { p with events := { p.events with appends := p.events.appends.drop 1, appending := none } }
  refine r.startAppend_placesStand.held ?_
  have howing : r.events.owing = p.events.owing := by
    have hany : p.events.appending.any (9 ≤ ·) = true := by
      rw [hpos]
      exact decide_eq_true hpublished
    rw [EventUnit.owing, EventUnit.owing, hany]
    exact List.length_drop
  obtain ⟨hwithin, henough, hfetching, hstarting⟩ := h
  refine ⟨hwithin, by rw [howing]; exact henough, fun hf => by rw [howing]; exact hfetching hf, fun hs => ⟨(hstarting hs).1, ?_⟩⟩
  change p.events.appends.drop 1 = []
  rw [(hstarting hs).2]
  rfl

end

theorem Part.continueAppend_placesHeld (h : p.PlacesHeld k) : p.continueAppend.PlacesHeld k := by
  have hmoves {pos next : Nat} (hpos : p.events.appending = some pos) (hopen : pos < 9) (hnext : next < 9) (offset : Nat) (w : Word) :
      (({ p with events := { p.events with appending := some next } } : Part).issueWrite .append offset w).PlacesStand p :=
    .of_list rfl rfl rfl rfl (by rw [hpos]; exact (decide_eq_false (by omega)).trans (decide_eq_false (by omega)).symm) rfl rfl
  unfold Part.continueAppend
  split
  next pos a rest hpos happends =>
    split
    next hlow =>
      exact (hmoves (next := pos + 1) hpos (by omega) (by omega) _ _).held h
    split
    next hlast =>
      exact (hmoves (next := 8) hpos (by omega) (by omega) _ _).held h
    split
    next hpublishes => exact Part.appendPublished_placesHeld h hpos (by omega) happends
    next => exact Part.nextAppend_placesHeld h hpos (by omega)
  next => exact h

theorem Part.appendFailed_placesHeld (h : p.PlacesHeld k) : p.appendFailed.PlacesHeld k := by
  unfold Part.appendFailed
  split
  next pos a rest hpos happends =>
    split
    next hopen => exact Part.appendAborted_placesHeld h hpos hopen happends
    next hpublished =>
      split
      next i _ _ _ =>
        refine Part.nextAppend_placesHeld (pos := pos) (Part.PlacesStand.held (p := p) (.of_list rfl rfl rfl rfl rfl rfl rfl) h) hpos ?_
        omega
      next => exact Part.nextAppend_placesHeld h hpos (by omega)
  next => exact h

/-! ## The events-taken word, and the outcome of a FETCH (R99 to R102, R106) -/

theorem Part.takenValue_placesStand (p : Part) (t : Word) (onFetch : Bool) : (p.takenValue t onFetch).PlacesStand p := by
  unfold Part.takenValue
  dsimp only
  split
  next hvalid => exact ⟨of_decide_eq_true hvalid, rfl, le_refl _, id, id, id⟩
  next =>
    split
    · exact .of_list rfl rfl rfl rfl rfl rfl rfl
    · exact .of_list rfl rfl rfl rfl rfl (by simp) (by simp)

theorem Part.requestTaken_placesStand (p : Part) (onFetch : Bool) : (p.requestTaken onFetch).PlacesStand p := by
  unfold Part.requestTaken
  split <;> exact .of_list rfl rfl rfl rfl rfl rfl rfl

theorem Part.takeEvent_placesHeld (h : p.PlacesHeld (k + 1)) (hstate : p.ladder.state ≠ .starting) (i : NodeIx) (f : Frame) :
    (p.takeEvent i f).PlacesHeld k :=
  Part.enqueueAppend_placesHeld (p := p.modEvents i fun e => { e with intake := true })
    (Part.PlacesStand.held (p := p) (.of_list rfl rfl rfl rfl rfl rfl rfl) h) hstate _ _

theorem Part.toTail_placesStand (p : Part) (i : NodeIx) : (p.toTail i).PlacesStand p := by
  unfold Part.toTail
  split
  · exact .of_list rfl rfl rfl rfl rfl rfl rfl
  · exact .rfl

/-- The place claimed for a FETCH is filled by its event, or released (R99 to R102). -/
theorem Part.fetchReply_placesHeld (h : p.PlacesHeld (k + 1)) (hstate : p.ladder.state ≠ .starting) (i : NodeIx) (f : Frame) :
    (p.fetchReply i f).PlacesHeld k := by
  unfold Part.fetchReply
  dsimp only
  split
  · exact Part.releasePlace_placesHeld (p := p.unqueue i) (Part.PlacesStand.held (p := p) (.of_list rfl rfl rfl rfl rfl rfl rfl) h)
  split
  · exact (Part.toTail_placesStand _ i).held
      (Part.PlacesStand.held (p := p.releasePlace) (.of_list rfl rfl rfl rfl rfl rfl rfl) (Part.releasePlace_placesHeld h))
  · exact Part.takeEvent_placesHeld h hstate i f

/-! ## A record's change and a commit (R5, R92, R108) -/

theorem Part.indicate_placesStand (p : Part) (i : NodeIx) (origin : LatchOrigin) : (p.indicate i origin).PlacesStand p := by
  unfold Part.indicate
  split
  · split
    · exact .of_events rfl rfl rfl
    · exact (Part.toTail_placesStand _ i).trans (.of_list rfl rfl rfl rfl rfl rfl rfl)
  · exact .rfl

theorem Part.eventLeaves_placesStand (p : Part) (i : NodeIx) : (p.eventLeaves i).PlacesStand p :=
  .of_list rfl rfl rfl (List.length_map _) rfl rfl rfl

theorem Part.eventCleared_placesStand (p : Part) (i : NodeIx) : (p.eventCleared i).PlacesStand p :=
  .of_list rfl rfl rfl ((List.length_map _).trans (List.length_map _)) rfl rfl rfl

theorem Part.voidNotes_placesStand (p : Part) : p.voidNotes.PlacesStand p :=
  .of_list rfl rfl rfl (List.length_map _) rfl rfl rfl

theorem Part.moveNode_placesStand (p : Part) (i : NodeIx) (f : NodeRecord → NodeRecord) (new : NodeState) :
    (p.moveNode i f new).PlacesStand p := by
  have hevents := p.moveNode_events i f new
  have hladder : (p.moveNode i f new).ladder.state = p.ladder.state := by simp
  have hexchange : (p.moveNode i f new).frames.exchange = p.frames.exchange := by simp
  split at hevents
  · exact Part.PlacesStand.trans (q := p.eventLeaves i) (.of_events hevents hladder hexchange) (p.eventLeaves_placesStand i)
  · exact .of_events hevents hladder hexchange

theorem Part.changeState_placesStand (p : Part) (i : NodeIx) (f : NodeRecord → NodeRecord) (new : NodeState) :
    (p.changeState i f new).PlacesStand p := by
  unfold Part.changeState
  dsimp only
  split
  · exact p.moveNode_placesStand i f new
  · exact (Part.moveNode_placesStand _ i f new).trans (.of_events (by simp) (by simp) (by simp))

theorem placesStand_acceptSteps : Part.AcceptSteps Part.PlacesStand where
  refl := .rfl
  trans h l := h.trans l
  record _ _ _ := .of_events rfl rfl rfl
  status p i := .of_events (by simp) (by simp) (by simp)
  leaves p i := p.eventLeaves_placesStand i
  cleared p i := p.eventCleared_placesStand i
  moves p i f new := p.moveNode_placesStand i f new
  loss p e size := .of_events (by simp) (by simp) (by simp)
  parcels p new := .of_events (by simp) (by simp) (by simp)
  shadow _ _ _ := .of_events rfl rfl rfl
  windows p n := (Part.voidNotes_placesStand _).trans (.of_events rfl rfl rfl)
  settings _ _ _ _ := .of_events rfl rfl rfl
  counted _ := .of_events rfl rfl rfl
  opened _ _ := .of_events rfl rfl rfl
  restored p := by
    unfold Part.restoreAccepted
    split
    · exact .of_list rfl rfl rfl rfl rfl rfl rfl
    · exact .rfl
  checked p c := .of_events (by simp) (by simp) (by simp)

end

end Sys2Proof.Machine
end

section
/-! SUPPORT. The laws of the three queues together, each on its own account, and the outcomes of exchanges under them. -/

namespace Sys2Proof.Machine

/-! ## What an exchange's outcome does with the places and with the parcels -/

/-- The places stand, and entries of the parcel queue are finished at most. -/
structure Part.Reacts (q p : Part) : Prop where
  places : q.PlacesStand p
  parcels : q.parcels.FinishedFrom p.parcels

section
variable {p q r : Part}

theorem Part.Reacts.trans (h : r.Reacts q) (k : q.Reacts p) : r.Reacts p := ⟨h.places.trans k.places, h.parcels.trans k.parcels⟩

theorem Part.Reacts.of_places (hplaces : q.PlacesStand p) (hparcels : q.parcels = p.parcels) : q.Reacts p :=
  ⟨hplaces, by rw [hparcels]; exact .rfl⟩

theorem Part.Reacts.of_events (hevents : q.events = p.events) (hladder : q.ladder.state = p.ladder.state)
    (hexchange : q.frames.exchange = p.frames.exchange) (hparcels : q.parcels = p.parcels) : q.Reacts p :=
  .of_places (.of_events hevents hladder hexchange) hparcels

theorem Part.Reacts.rfl : p.Reacts p := .of_places .rfl (Eq.refl _)

variable (p)

theorem Part.queueStatus_reacts (i : NodeIx) (cause : Bool) : (p.queueStatus i cause).Reacts p :=
  .of_events (by simp) (by simp) (by simp) (by simp)

theorem Part.changeState_reacts (i : NodeIx) (f : NodeRecord → NodeRecord) (new : NodeState) : (p.changeState i f new).Reacts p :=
  ⟨p.changeState_placesStand i f new, p.changeState_finishedFrom i f new⟩

theorem Part.indicate_reacts (i : NodeIx) (origin : LatchOrigin) : (p.indicate i origin).Reacts p :=
  .of_places (p.indicate_placesStand i origin) (by simp)

theorem Part.modNode_reacts (i : NodeIx) (f : NodeRecord → NodeRecord) : (p.modNode i f).Reacts p := .of_events rfl rfl rfl rfl

theorem Part.goodAnswer_reacts (i : NodeIx) (f : NodeRecord → NodeRecord) : (p.goodAnswer i f).Reacts p := by
  unfold Part.goodAnswer
  dsimp only
  split
  · exact p.changeState_reacts i _ _
  · exact p.modNode_reacts i _

theorem Part.goodEvent_reacts (i : NodeIx) : (p.goodEvent i).Reacts p := by
  unfold Part.goodEvent
  split
  · exact p.goodAnswer_reacts i _
  · exact .rfl

theorem Part.goodData_reacts (i : NodeIx) (f : Frame) : (p.goodData i f).Reacts p := by
  have hindicates (q : Part) (hq : q.Reacts p) : (if f.flag 0 then q.indicate i .data else q).Reacts p := by
    split
    · exact (q.indicate_reacts i _).trans hq
    · exact hq
  have hdegrades (q : Part) (due : Prop) [Decidable due] (hq : q.Reacts p) :
      (if due then q.queueStatus i false else q).Reacts p := by
    split
    · exact (q.queueStatus_reacts i false).trans hq
    · exact hq
  unfold Part.goodData
  dsimp only
  split
  · split
    · exact p.changeState_reacts i _ _
    · exact hindicates _ (hdegrades _ _ ((Part.goodAnswer_reacts _ i _).trans (.of_events rfl rfl rfl rfl)))
  · exact .rfl

theorem Part.goodIdent_reacts (i : NodeIx) (f : Frame) : (p.goodIdent i f).Reacts p := by
  unfold Part.goodIdent
  dsimp only
  split
  · exact p.changeState_reacts i _ _
  · exact .rfl

theorem Part.miss_reacts (i : NodeIx) : (p.miss i).Reacts p := by
  have hcounted : (p.count .nodeMisses).Reacts p := .of_events rfl rfl rfl rfl
  unfold Part.miss
  dsimp only
  split
  · split
    · exact (Part.changeState_reacts _ i _ _).trans hcounted
    split
    · exact (Part.changeState_reacts _ i _ _).trans hcounted
    · exact ((Part.queueStatus_reacts _ i false).trans (Part.modNode_reacts _ i _)).trans hcounted
  · exact .rfl

theorem Part.nodeBid_reacts (i : NodeIx) (reason : Byte) : (p.nodeBid i reason).Reacts p := by
  have hserves : (if reason = 1 then p.indicate i .bid else p.changeState i NodeRecord.toProbing .probing).Reacts p := by
    split
    · exact p.indicate_reacts i _
    · exact p.changeState_reacts i _ _
  unfold Part.nodeBid
  split
  · exact hserves
  · exact hserves
  · exact p.changeState_reacts i _ _
  all_goals exact .rfl

theorem Part.nodeAlert_reacts (i : NodeIx) : (p.nodeAlert i).Reacts p := by
  unfold Part.nodeAlert
  split
  · exact p.indicate_reacts i _
  · exact p.indicate_reacts i _
  · exact p.changeState_reacts i _ _
  all_goals exact .rfl

end

/-! ## The three laws -/

/-- The laws of the fetch queue, of the event list's places and of the parcel queue, each where it is asked for, with `k` places in
hand. -/
structure Part.Lawful (A B C : Prop) (k : Nat) (p : Part) : Prop where
  queue : A → p.queueOk
  places : B → p.PlacesHeld k
  parcels : C → p.parcels.Lawful

/-- Each of the three laws is kept. -/
structure Part.KeepsLaws (q p : Part) : Prop where
  queue : p.queueOk → q.queueOk
  places : ∀ {k}, p.PlacesHeld k → q.PlacesHeld k
  parcels : p.parcels.Lawful → q.parcels.Lawful

/-- What the three laws rest on is as before. -/
abbrev Part.Untouched (q p : Part) : Prop :=
  q.events = p.events ∧ q.table.records = p.table.records ∧ q.ladder.state = p.ladder.state ∧
    q.frames.exchange = p.frames.exchange ∧ q.parcels = p.parcels

section
variable {A B C : Prop} {k : Nat} {p q r : Part}

theorem Part.KeepsLaws.rfl : p.KeepsLaws p := ⟨id, id, id⟩

theorem Part.KeepsLaws.trans (h : r.KeepsLaws q) (l : q.KeepsLaws p) : r.KeepsLaws p :=
  ⟨fun hp => h.queue (l.queue hp), fun hp => h.places (l.places hp), fun hp => h.parcels (l.parcels hp)⟩

theorem Part.KeepsLaws.lawful (hq : q.KeepsLaws p) (h : p.Lawful A B C k) : q.Lawful A B C k :=
  ⟨fun a => hq.queue (h.queue a), fun b => hq.places (h.places b), fun c => hq.parcels (h.parcels c)⟩

theorem Part.KeepsLaws.of_stands (hqueue : q.QueueStands p) (hplaces : q.PlacesStand p) (hparcels : q.parcels = p.parcels) :
    q.KeepsLaws p := ⟨hqueue.queueOk, hplaces.held, fun h => by rw [hparcels]; exact h⟩

theorem Part.KeepsLaws.of_untouched (h : q.Untouched p) : q.KeepsLaws p :=
  let ⟨hevents, hrecords, hladder, hexchange, hparcels⟩ := h
  .of_stands (.of_events hrecords hevents) (.of_events hevents hladder hexchange) hparcels

theorem Part.Reacts.keepsLaws (h : q.Reacts p) (hqueue : p.queueOk → q.queueOk) : q.KeepsLaws p :=
  ⟨hqueue, h.places.held, fun hp => hp.finished h.parcels⟩

/-- The parcel unit's own work. -/
theorem Part.KeepsLaws.of_parcels (hkeeps : q.KeepsOffParcels p) (hparcels : p.parcels.Lawful → q.parcels.Lawful) : q.KeepsLaws p := by
  obtain ⟨hladder, -, hframes, htable, -, -, hevents, -⟩ := hkeeps
  have hplaces : q.PlacesStand p := .of_events hevents (by rw [hladder]) (by rw [hframes])
  exact ⟨Part.QueueStands.queueOk (.of_events (by rw [htable]) hevents), hplaces.held, hparcels⟩

/-- The event unit's own work. -/
theorem Part.KeepsLaws.of_eventUnit (hkeeps : q.KeepsOffEvents p) (hqueue : p.queueOk → q.queueOk)
    (hplaces : ∀ {k}, p.PlacesHeld k → q.PlacesHeld k) : q.KeepsLaws p := by
  obtain ⟨-, -, -, -, hparcels, -⟩ := hkeeps
  exact ⟨hqueue, hplaces, fun h => by rw [hparcels]; exact h⟩

/-! ## The event unit -/

variable (p)

theorem Part.confirmAck_keepsLaws (i : NodeIx) (carried : Option Byte) : (p.confirmAck i carried).KeepsLaws p := by
  refine .of_stands (p.confirmAck_queueStands i carried) ?_ (by simp)
  unfold Part.confirmAck
  (repeat' split) <;> exact .of_list rfl rfl rfl rfl rfl rfl rfl

theorem Part.newRound_keepsLaws : p.newRound.KeepsLaws p :=
  .of_stands p.newRound_queueStands (.of_list rfl rfl rfl rfl rfl rfl rfl) rfl

theorem Part.requestTaken_keepsLaws (onFetch : Bool) : (p.requestTaken onFetch).KeepsLaws p := by
  refine .of_stands (.of_records (by simp) ?_ ?_) (p.requestTaken_placesStand onFetch) (by simp)
  · unfold Part.requestTaken
    split <;> rfl
  · intro i
    rw [Part.nodeEvents, Part.requestTaken_nodes]
    rfl

theorem Part.startAppend_keepsLaws : p.startAppend.KeepsLaws p :=
  .of_stands (p.startAppend_appendsOn.queueStands (by simp)) p.startAppend_placesStand (by simp)

theorem Part.offerNote_keepsLaws : p.offerNote.KeepsLaws p :=
  .of_eventUnit p.offerNote_keepsOffEvents (p.offerNote_appendsOn.queueStands (by simp)).queueOk Part.offerNote_placesHeld

theorem Part.continueAppend_keepsLaws : p.continueAppend.KeepsLaws p :=
  .of_eventUnit p.continueAppend_keepsOffEvents Part.continueAppend_queueOk Part.continueAppend_placesHeld

theorem Part.appendFailed_keepsLaws : p.appendFailed.KeepsLaws p :=
  .of_eventUnit p.appendFailed_keepsOffEvents Part.appendFailed_queueOk Part.appendFailed_placesHeld

theorem Part.takenValue_keepsLaws (t : Word) (onFetch : Bool) : (p.takenValue t onFetch).KeepsLaws p := by
  refine .of_stands ?_ (p.takenValue_placesStand t onFetch) (by simp)
  unfold Part.takenValue
  dsimp only
  (repeat' split) <;> exact .of_records (by simp) (by simp) fun i => by simp [Part.nodeEvents]

theorem Part.takenLost_keepsLaws : p.takenLost.KeepsLaws p :=
  .of_stands (.of_records rfl rfl fun _ => rfl) (.of_list rfl rfl rfl rfl rfl rfl rfl) rfl

/-! ## The node table -/

theorem Part.goodData_keepsLaws (i : NodeIx) (f : Frame) : (p.goodData i f).KeepsLaws p :=
  (p.goodData_reacts i f).keepsLaws fun h => Part.goodData_queueOk h i f

theorem Part.goodIdent_keepsLaws (i : NodeIx) (f : Frame) : (p.goodIdent i f).KeepsLaws p :=
  (p.goodIdent_reacts i f).keepsLaws fun h => Part.goodIdent_queueOk h i f

theorem Part.miss_keepsLaws (i : NodeIx) : (p.miss i).KeepsLaws p := (p.miss_reacts i).keepsLaws fun h => Part.miss_queueOk h i

theorem Part.goodEvent_keepsLaws (i : NodeIx) : (p.goodEvent i).KeepsLaws p :=
  (p.goodEvent_reacts i).keepsLaws fun h => Part.goodEvent_queueOk h i

theorem Part.nodeBid_keepsLaws (i : NodeIx) (reason : Byte) : (p.nodeBid i reason).KeepsLaws p :=
  (p.nodeBid_reacts i reason).keepsLaws fun h => Part.nodeBid_queueOk h i reason

theorem Part.nodeAlert_keepsLaws (i : NodeIx) : (p.nodeAlert i).KeepsLaws p :=
  (p.nodeAlert_reacts i).keepsLaws fun h => Part.nodeAlert_queueOk h i

theorem Part.reprobe_keepsLaws (i : NodeIx) : (p.reprobe i).KeepsLaws p :=
  (p.changeState_reacts i NodeRecord.toProbing .probing).keepsLaws fun h => Part.changeState_queueOk h i _ _ fun _ => rfl

theorem Part.setLastGood_keepsLaws (i : NodeIx) : (p.setLastGood i).KeepsLaws p :=
  (p.modNode_reacts i _).keepsLaws fun h => Part.modNode_queueOk h fun _ => ⟨rfl, rfl⟩

theorem Part.sighting_keepsLaws (address : Byte) (origin : StrayOrigin) (kind : Byte) :
    (p.sighting address origin kind).KeepsLaws p := by
  unfold Part.sighting
  dsimp only
  split
  · exact (Part.offerNote_keepsLaws _).trans (.of_untouched (by simp [Part.Untouched]))
  · exact .of_untouched (by simp [Part.Untouched])

theorem Part.takeSlot_keepsLaws (report : SlotReport) : (p.takeSlot report).KeepsLaws p := by
  unfold Part.takeSlot
  split
  · exact .of_untouched (by simp [Part.Untouched, Part.tally])
  · exact .of_untouched (by simp [Part.Untouched, Part.tally])
  · split
    · exact (Part.nodeBid_keepsLaws _ _ _).trans (.of_untouched (by simp [Part.Untouched, Part.tally]))
    · exact (Part.sighting_keepsLaws _ _ _ _).trans (.of_untouched (by simp [Part.Untouched, Part.tally]))

/-! ## A commit check -/

theorem Part.acceptCommit_keepsLaws (d : Directory) (c : Check) (v : Verdict) : (p.acceptCommit d c v).KeepsLaws p :=
  ⟨fun h => Part.acceptCommit_queueOk h d c v, (placesStand_acceptSteps.acceptCommit p d c v).held,
    fun h => h.finished (finishes_acceptSteps.acceptCommit p d c v)⟩

theorem Part.judgeKept_keepsLaws : p.judgeKept.KeepsLaws p := by
  rcases p.judgeKept_cases with heq | ⟨c, v, heq⟩ | ⟨d, c, v, heq⟩ <;> rw [heq]
  · exact .rfl
  · exact .of_untouched (by simp [Part.Untouched])
  · exact p.acceptCommit_keepsLaws d c v

theorem Part.judgeCopy_keepsLaws (c : Check) : (p.judgeCopy c).KeepsLaws p := by
  unfold Part.judgeCopy
  dsimp only
  generalize judge _ _ = j
  split
  · exact p.acceptCommit_keepsLaws _ _ _
  · exact .of_untouched (by simp [Part.Untouched])

theorem Part.nodeOpen_keepsLaws (exempt : NodeIx → Bool) : (p.nodeOpen exempt).KeepsLaws p :=
  .of_stands (p.nodeOpen_queueStands exempt) (.of_events rfl rfl rfl) rfl

theorem Part.scanTrigger_keepsLaws : p.scanTrigger.KeepsLaws p :=
  .of_parcels p.scanTrigger_keepsOffParcels fun h => h.walksFrom p.scanTrigger_walksFrom

theorem Part.checkEnd_keepsLaws (origin : CheckFrom) : (p.checkEnd origin).KeepsLaws p := by
  let q := p.modLoader fun l => { l with check := none }
  have hq : q.KeepsLaws p := .of_untouched (by simp [Part.Untouched, q])
  have howed (r : Part) (hr : r.KeepsLaws p) :
      (if r.loader.checkOwed then (r.modLoader fun l => { l with checkOwed := false }).beginCheck .nudge else r).KeepsLaws p := by
    split
    · exact Part.KeepsLaws.trans (.of_untouched (by simp [Part.Untouched])) hr
    · exact hr
  cases origin with
  | opening =>
    let opened := if q.sched.nodeOpen = .waitCommit then q.nodeOpen fun _ => false else q
    have hends : (p.checkEnd .opening).KeepsLaws opened := .of_untouched ⟨rfl, rfl, rfl, rfl, rfl⟩
    have hopens : opened.KeepsLaws p := by
      unfold opened
      split
      · exact (q.nodeOpen_keepsLaws _).trans hq
      · exact hq
    exact hends.trans hopens
  | nudge =>
    have hwritten : q.writeOwed.KeepsLaws q := .of_untouched (by simp [Part.Untouched])
    exact howed _ ((Part.scanTrigger_keepsLaws _).trans (hwritten.trans hq))
  | owed => exact howed q hq
  | startup => exact hq

theorem Part.generationRead_keepsLaws (c : Check) (g : Word) : (p.generationRead c g).KeepsLaws p := by
  have hgo (c : Check) : (p.checkAt c).KeepsLaws p := .of_untouched (by simp [Part.Untouched])
  unfold Part.generationRead
  dsimp only
  split
  · exact hgo _
  split
  · exact (Part.checkEnd_keepsLaws _ _).trans (.of_untouched (by simp [Part.Untouched]))
  split
  · exact p.checkEnd_keepsLaws _
  · exact hgo _

theorem Part.continueCheck_keepsLaws (w : Word) : (p.continueCheck w).KeepsLaws p := by
  have hgo (c : Check) : (p.checkAt c).KeepsLaws p := .of_untouched (by simp [Part.Untouched])
  unfold Part.continueCheck
  split
  · exact .rfl
  next c _ =>
    split
    · split <;> exact .of_untouched (by simp [Part.Untouched])
    · dsimp only
      split <;> exact .of_untouched (by simp [Part.Untouched])
    · exact p.generationRead_keepsLaws c w
    · dsimp only
      split <;> exact hgo _
    · split
      · unfold Part.copyRead
        split
        · exact hgo _
        · exact p.judgeCopy_keepsLaws c
      split
      · exact hgo _
      · exact p.checkEnd_keepsLaws _
    · exact .rfl
    · exact .rfl
    · split
      · exact hgo _
      · exact (Part.checkEnd_keepsLaws _ _).trans (.of_untouched (by simp [Part.Untouched]))
    · exact (Part.checkEnd_keepsLaws _ _).trans (.of_untouched (by simp [Part.Untouched]))

theorem Part.checkFailed_keepsLaws : p.checkFailed.KeepsLaws p := by
  unfold Part.checkFailed
  split
  · exact .rfl
  next c _ =>
    split
    · exact .of_untouched (by simp [Part.Untouched])
    · exact .of_untouched (by simp [Part.Untouched])
    · exact p.checkEnd_keepsLaws _
    · exact p.checkEnd_keepsLaws _
    · exact p.checkEnd_keepsLaws _
    · exact .rfl
    · exact .rfl
    · exact (Part.checkEnd_keepsLaws _ _).trans (.of_untouched (by simp [Part.Untouched]))
    · exact (Part.checkEnd_keepsLaws _ _).trans (.of_untouched (by simp [Part.Untouched]))

end

end Sys2Proof.Machine
end

section
/-! SUPPORT. The line scheduler under the laws of the three queues: the parcel phase, the fetch phase, the polls, and what an outcome
leads to (R34 to R39, R96, R118 to R123). -/

namespace Sys2Proof.Machine

section
variable {p q : Part}

/-- The frame engine is given something other than a FETCH, or nothing. -/
theorem Part.KeepsLaws.of_given (hevents : q.events = p.events) (hrecords : q.table.records = p.table.records)
    (hladder : q.ladder.state = p.ladder.state) (hfetching : q.frames.fetching = false)
    (hparcels : p.parcels.Lawful → q.parcels.Lawful) : q.KeepsLaws p :=
  ⟨Part.QueueStands.queueOk (.of_events hrecords hevents), (Part.PlacesStand.of_notFetching hevents hladder hfetching).held, hparcels⟩

/-- The pass's place in the parcel queue moves on, and nothing else of what the laws rest on. -/
theorem Part.KeepsLaws.of_passes (hevents : q.events = p.events) (hrecords : q.table.records = p.table.records)
    (hladder : q.ladder.state = p.ladder.state) (hexchange : q.frames.exchange = p.frames.exchange)
    (hqueue : q.parcels.queue = p.parcels.queue) (hwalk : q.parcels.walk = p.parcels.walk) : q.KeepsLaws p :=
  ⟨Part.QueueStands.queueOk (.of_events hrecords hevents), (Part.PlacesStand.of_events hevents hladder hexchange).held,
    fun h => h.kept hqueue hwalk⟩

variable (p)

theorem Part.modSched_keepsLaws (f : Scheduler → Scheduler) : (p.modSched f).KeepsLaws p := .of_untouched ⟨rfl, rfl, rfl, rfl, rfl⟩

theorem Part.count_keepsLaws (c : Counter) : (p.count c).KeepsLaws p := .of_untouched ⟨rfl, rfl, rfl, rfl, rfl⟩

theorem Part.frameState_keepsLaws (state : FrameState) : (p.frameState state).KeepsLaws p := .of_given rfl rfl rfl rfl id

theorem Part.enterClosing_keepsLaws : p.enterClosing.KeepsLaws p := by
  unfold Part.enterClosing
  exact .of_passes (by simp) (by simp) (by simp) (by simp) (by simp) (by simp)

/-! ## The parcel phase (R118 to R123) -/

variable {p}

theorem Part.nameExchange_keepsLaws {e : Parcel} {bt : Nat} {f : Parcel → Parcel} {ex : Exchange} {frame : List Byte}
    (hex : (p.give ex frame).frames.fetching = false)
    (hnamed : p.parcels.Lawful → (p.modParcel e.slot fun e => { f e with given := true }).parcels.Lawful) :
    (p.nameExchange e bt f ex frame).KeepsLaws p := by
  unfold Part.nameExchange
  split
  · exact .of_given rfl rfl rfl hex fun h => (hnamed h).kept rfl rfl
  · exact p.enterClosing_keepsLaws

theorem Part.nameNext_keepsLaws (e : Parcel) (n : Nat) : (p.nameNext e n).KeepsLaws p :=
  Part.nameExchange_keepsLaws rfl fun h => Part.modParcel_lawful_of_same h fun _ => ⟨rfl, rfl, rfl, rfl, rfl⟩

theorem Part.nameAbandon_keepsLaws (e : Parcel) : (p.nameAbandon e).KeepsLaws p :=
  Part.nameExchange_keepsLaws rfl fun h => Part.modParcel_lawful_of_same h fun _ => ⟨rfl, rfl, rfl, rfl, rfl⟩

/-- An entry that is offered a SEG is in transfer already, or no other entry of its node is (R118). -/
theorem Part.free_of_eligible {e : Parcel} (heligible : p.parcelEligible e = true) (hsends : e.sendsNext = true) :
    e.inTransfer = true ∨ ∀ o ∈ p.parcels.queue, o.slot = e.slot ∨ o.node ≠ e.node ∨ o.inTransfer = false := by
  unfold Part.parcelEligible at heligible
  obtain ⟨-, hmay⟩ := Bool.and_eq_true_iff.mp heligible
  cases ht : e.transfer with
  | waiting =>
    rw [ht] at hmay
    obtain ⟨hall, -⟩ := Bool.and_eq_true_iff.mp hmay
    refine .inr fun o ho => ?_
    simpa [or_assoc] using List.all_eq_true.mp hall o ho
  | sending n => exact .inl (by rw [Parcel.inTransfer, ht])
  | asking n => simp [Parcel.sendsNext, ht] at hsends
  | finishing => simp [Parcel.sendsNext, ht] at hsends

theorem Part.nameSeg_keepsLaws {e : Parcel} (he : p.parcelOf e.slot = some e) (heligible : p.parcelEligible e = true)
    (hsends : e.sendsNext = true) : (p.nameSeg e).KeepsLaws p :=
  Part.nameExchange_keepsLaws rfl fun h => Part.modParcel_begins h he rfl rfl nofun (Part.free_of_eligible heligible hsends)

theorem Part.serveParcel_keepsLaws (e : Parcel) : (p.serveParcel e).KeepsLaws p := by
  unfold Part.serveParcel
  split
  · exact .of_passes rfl rfl rfl rfl rfl rfl
  · exact .of_passes rfl rfl rfl rfl rfl rfl
  · exact Part.nameNext_keepsLaws e _
  · exact Part.nameAbandon_keepsLaws e

theorem Part.newPass_keepsLaws : p.newPass.KeepsLaws p := .of_parcels p.newPass_keepsOffParcels Part.newPass_lawful

theorem Part.parcelNext_keepsLaws : p.parcelNext.KeepsLaws p := by
  unfold Part.parcelNext
  split
  · exact Part.serveParcel_keepsLaws _
  · split
    · dsimp only
      split
      · exact (Part.serveParcel_keepsLaws _).trans Part.newPass_keepsLaws
      · exact (Part.enterClosing_keepsLaws _).trans Part.newPass_keepsLaws
    · exact p.enterClosing_keepsLaws

theorem Part.parcelPhase_keepsLaws : p.parcelPhase.KeepsLaws p := by
  let q : Part := { p.newPass with parcels := { p.newPass.parcels with
    queue := p.newPass.parcels.queue.map fun (e : Parcel) => { e with passed := false } } }
  have hq : q.KeepsLaws p.newPass := .of_parcels ⟨rfl, rfl, rfl, rfl, rfl, rfl, rfl, rfl, rfl⟩ fun h =>
    h.mapped (g := fun e => { e with passed := false }) (fun _ _ => .of_same rfl rfl rfl rfl rfl) rfl rfl
  exact (Part.parcelNext_keepsLaws (p := q)).trans (hq.trans Part.newPass_keepsLaws)

theorem Part.withdrawRead_keepsLaws (slot : SlotIx) (w : Word) : (p.withdrawRead slot w).KeepsLaws p := by
  let q := p.modSched fun s => { s with withdrawRead := none }
  have hq : q.KeepsLaws p := p.modSched_keepsLaws _
  unfold Part.withdrawRead
  dsimp only
  split
  next e he =>
    have hown : q.parcelOf e.slot = some e := by rw [parcelOf_slot he]; exact he
    have hqueued : e ∈ q.parcels.queue := Part.parcelOf_mem he
    split
    next hserves =>
      obtain ⟨heligible, hsends⟩ := Bool.and_eq_true_iff.mp hserves
      split
      · split
        next hsent =>
          have habandons : (q.abandonParcel slot .withdrawn).KeepsLaws q :=
            .of_parcels (q.abandonParcel_keepsOffParcels slot _) fun h => Part.abandonParcel_lawful h (fun o ho => by
              cases he.symm.trans ho
              have hunsent := h.unsent e hqueued
              rw [Parcel.inTransfer]
              cases ht : e.transfer with
              | waiting => cases (hunsent ht).symm.trans hsent
              | sending n => rfl
              | asking n => rfl
              | finishing => simp [Parcel.sendsNext, ht] at hsends) _
          exact (Part.nameAbandon_keepsLaws e).trans (habandons.trans hq)
        next =>
          have hfinishes : (q.finishParcel slot .withdrawn 0).KeepsLaws q :=
            .of_parcels (q.finishParcel_keepsOffParcels slot _ _) fun h => Part.finishParcel_lawful h _ _ _
          exact Part.parcelNext_keepsLaws.trans (hfinishes.trans hq)
      · exact (Part.nameSeg_keepsLaws hown heligible hsends).trans hq
    next => exact Part.parcelNext_keepsLaws.trans hq
  next => exact Part.parcelNext_keepsLaws.trans hq

theorem Part.withdrawLost_keepsLaws (slot : SlotIx) : (p.withdrawLost slot).KeepsLaws p := by
  let q := p.modSched fun s => { s with withdrawRead := none }
  have hpasses : (q.modParcel slot fun e => { e with passed := true }).KeepsLaws q :=
    .of_parcels ⟨rfl, rfl, rfl, rfl, rfl, rfl, rfl, rfl, rfl⟩ fun h =>
      Part.modParcel_lawful_of_same h fun _ => ⟨rfl, rfl, rfl, rfl, rfl⟩
  exact Part.parcelNext_keepsLaws.trans (hpasses.trans (p.modSched_keepsLaws _))

end

/-! ## The fetch phase (R38, R96) -/

section
variable {A B C : Prop} {k : Nat} {p : Part}

theorem Part.nameNode_lawful (h : p.Lawful A B C k) (hstate : B → p.ladder.state ≠ .starting) (hroom : 0 < p.events.freePlaces)
    (i : NodeIx) : (p.nameNode i).Lawful A B C (k + 1) :=
  ⟨fun a => (p.nameNode_queueStands i).queueOk (h.queue a), fun b => Part.nameNode_placesHeld (h.places b) hroom (hstate b) i,
    fun c => h.parcels c⟩

theorem Part.giveFetch_lawful (h : p.Lawful A B C 1) (i : NodeIx) : (p.giveFetch i).Lawful A B C 0 :=
  ⟨fun a => h.queue a, fun b => Part.giveFetch_placesHeld (h.places b) i, fun c => h.parcels c⟩

theorem Part.releasePlace_lawful (h : p.Lawful A B C (k + 1)) : p.releasePlace.Lawful A B C k :=
  ⟨fun a => h.queue a, fun b => Part.releasePlace_placesHeld (h.places b), fun c => h.parcels c⟩

theorem Part.beginFetch_lawful (h : p.Lawful A B C 0) (hstate : B → p.ladder.state ≠ .starting) (hroom : 0 < p.events.freePlaces)
    (i : NodeIx) : (p.beginFetch i).Lawful A B C 0 := by
  have hnamed := Part.nameNode_lawful h hstate hroom i
  unfold Part.beginFetch
  dsimp only
  split
  · exact Part.giveFetch_lawful ((Part.modSched_keepsLaws _ _).lawful hnamed) i
  · exact Part.parcelPhase_keepsLaws.lawful (Part.releasePlace_lawful hnamed)

theorem Part.fetchNext_lawful (h : p.Lawful A B C 0) (hstate : B → p.ladder.state ≠ .starting) : p.fetchNext.Lawful A B C 0 := by
  unfold Part.fetchNext
  split
  · exact Part.parcelPhase_keepsLaws.lawful h
  · split
    next hroom => exact Part.beginFetch_lawful h hstate hroom _
    next => exact ((Part.requestTaken_keepsLaws _ true).trans (p.modSched_keepsLaws _)).lawful h

theorem Part.fetchPhase_lawful (h : p.Lawful A B C 0) (hstate : B → p.ladder.state ≠ .starting) : p.fetchPhase.Lawful A B C 0 :=
  Part.fetchNext_lawful (p.newRound_keepsLaws.lawful h) hstate

theorem Part.fetchAfterRead_lawful (h : p.Lawful A B C 0) (hstate : B → p.ladder.state ≠ .starting) :
    p.fetchAfterRead.Lawful A B C 0 := by
  let q := p.modSched fun s => { s with fetchRead := false }
  have hq : q.Lawful A B C 0 := (p.modSched_keepsLaws _).lawful h
  unfold Part.fetchAfterRead
  dsimp only
  split
  · exact Part.parcelPhase_keepsLaws.lawful hq
  · split
    next hroom => exact Part.beginFetch_lawful hq hstate hroom _
    next => exact (Part.parcelPhase_keepsLaws.trans (q.count_keepsLaws _)).lawful hq

/-- A FETCH that has ended GOOD gives its place to its event, or releases it. -/
theorem Part.fetchGood_lawful (h : p.Lawful A B C 1) (hstate : B → p.ladder.state ≠ .starting) (i : NodeIx) (ack : Option Byte)
    (f : Frame) : (p.fetchGood i ack f).Lawful A B C 0 := by
  let q := (p.confirmAck i ack).goodEvent i
  have hladder : q.ladder = p.ladder := by simp [q]
  have hq : q.Lawful A B C 1 := ((Part.goodEvent_keepsLaws _ i).trans (p.confirmAck_keepsLaws i ack)).lawful h
  have hparcels : (q.fetchReply i f).parcels = q.parcels := by simp
  exact ⟨fun a => Part.fetchReply_queueOk (hq.queue a) i f,
    fun b => Part.fetchReply_placesHeld (hq.places b) (by rw [hladder]; exact hstate b) i f,
    fun c => by rw [Part.fetchGood, hparcels]; exact hq.parcels c⟩

theorem Part.fetchAttemptFailed_lawful (h : p.Lawful A B C 1) (hstate : B → p.ladder.state ≠ .starting) (i : NodeIx) :
    (p.fetchAttemptFailed i).Lawful A B C 0 := by
  unfold Part.fetchAttemptFailed
  split
  · exact Part.fetchNext_lawful ((Part.miss_keepsLaws _ i).lawful (Part.releasePlace_lawful h)) (by simpa using hstate)
  split
  · exact Part.giveFetch_lawful ((p.modSched_keepsLaws _).lawful h) i
  · exact Part.parcelPhase_keepsLaws.lawful (Part.releasePlace_lawful h)

/-! ## Windows and polls (R34, R37) -/

theorem Part.windowPhase_lawful (h : p.Lawful A B C 0) (hstate : B → p.ladder.state ≠ .starting) :
    p.windowPhase.Lawful A B C 0 := by
  unfold Part.windowPhase
  split
  · split
    · exact Part.KeepsLaws.lawful (p := p) (.of_given rfl rfl rfl rfl id) h
    · refine Part.fetchPhase_lawful (Part.KeepsLaws.lawful (.of_untouched ?_) h) ?_
      · unfold Part.windowNotFitted
        split <;> exact ⟨rfl, rfl, rfl, rfl, rfl⟩
      · simpa using hstate
  · exact Part.fetchPhase_lawful h hstate

end

section
variable (p : Part)

theorem Part.givePoll_keepsLaws (i : NodeIx) (ack : Option Byte) (slice : List Byte) : (p.givePoll i ack slice).KeepsLaws p :=
  .of_given rfl rfl rfl rfl id

theorem Part.pollAttempt_keepsLaws (i : NodeIx) : (p.pollAttempt i).KeepsLaws p := by
  unfold Part.pollAttempt
  dsimp only
  split
  · exact p.givePoll_keepsLaws i _ _
  · split
    · exact p.givePoll_keepsLaws i _ _
    · exact .of_untouched (by simp [Part.Untouched])

theorem Part.continueSlice_keepsLaws (w : Word) : (p.continueSlice w).KeepsLaws p := by
  unfold Part.continueSlice
  split
  · dsimp only
    split
    · exact .of_given rfl rfl rfl rfl id
    · exact .of_untouched (by simp [Part.Untouched])
  · exact .rfl

theorem Part.sliceFailed_keepsLaws : p.sliceFailed.KeepsLaws p := by
  unfold Part.sliceFailed
  split
  · exact .of_given rfl rfl rfl rfl id
  · exact .rfl

end

section
variable {A B C : Prop} {p : Part}

theorem Part.pollNext_lawful (h : p.Lawful A B C 0) (hstate : B → p.ladder.state ≠ .starting) : p.pollNext.Lawful A B C 0 := by
  unfold Part.pollNext
  split
  · exact Part.windowPhase_lawful h hstate
  next i rest _ =>
    let q := p.modSched fun s => { s with pollList := rest, attempts := (p.node i).applied.retries }
    let r := q.modNode i fun r => { r with pollTotal := r.pollTotal + 1 }
    have hr : r.KeepsLaws q := (q.modNode_reacts i _).keepsLaws fun hq => Part.modNode_queueOk hq fun _ => ⟨rfl, rfl⟩
    let t : Part := { r with frames := { r.frames with toggles := tabModify r.frames.toggles i not } }
    have ht : t.KeepsLaws r := .of_untouched ⟨rfl, rfl, rfl, rfl, rfl⟩
    exact ((t.pollAttempt_keepsLaws i).trans (ht.trans (hr.trans (p.modSched_keepsLaws _)))).lawful h
  · exact Part.KeepsLaws.lawful (p := p) (.of_given rfl rfl rfl rfl id) h

theorem Part.pollAttemptFailed_lawful (h : p.Lawful A B C 0) (hstate : B → p.ladder.state ≠ .starting) (i : NodeIx) :
    (p.pollAttemptFailed i).Lawful A B C 0 := by
  unfold Part.pollAttemptFailed
  dsimp only
  split
  · exact Part.pollNext_lawful (((Part.miss_keepsLaws _ i).trans (p.count_keepsLaws _)).lawful h) (by simpa using hstate)
  · exact ((Part.pollAttempt_keepsLaws _ i).trans ((Part.modSched_keepsLaws _ _).trans (p.count_keepsLaws _))).lawful h

/-! ## Outcomes in RUN (R59) -/

/-- The places of the event list that an exchange has in hand: one for a FETCH (R96). -/
def Exchange.places : Exchange → Nat
  | .fetch _ _ => 1
  | .poll _ _ | .probe _ | .seg _ _ _ _ | .next _ _ _ _ | .abandon _ _ | .window | .hold | .rest | .rouse => 0

theorem Part.takeOutcome_lawful {ex : Exchange} (h : p.Lawful A B C ex.places) (hstate : B → p.ladder.state ≠ .starting)
    (reply : Option Frame) : (p.takeOutcome ex reply).Lawful A B C 0 := by
  have hparcel {q : Part} (hkeeps : q.KeepsOffParcels p) (hq : p.parcels.Lawful → q.parcels.Lawful) (h : p.Lawful A B C 0) :
      q.parcelNext.Lawful A B C 0 := (Part.parcelNext_keepsLaws.trans (.of_parcels hkeeps hq)).lawful h
  unfold Part.takeOutcome
  split
  next i ack f =>
    exact Part.pollNext_lawful (((Part.goodData_keepsLaws _ i f).trans (p.confirmAck_keepsLaws i ack)).lawful h)
      (by simpa using hstate)
  · exact Part.pollAttemptFailed_lawful h hstate _
  next i f => exact Part.pollNext_lawful ((p.goodIdent_keepsLaws i f).lawful h) (by simpa using hstate)
  · exact Part.pollNext_lawful h hstate
  · exact Part.fetchNext_lawful (Part.fetchGood_lawful h hstate _ _ _) (by simpa using hstate)
  · exact Part.fetchAttemptFailed_lawful h hstate _
  next i slot _ segment _ =>
    have hacked : ((p.setLastGood i).segAcked slot segment).KeepsLaws (p.setLastGood i) :=
      .of_parcels (Part.segAcked_keepsOffParcels _ slot segment) fun h => Part.segAcked_lawful h slot segment
    exact (Part.parcelNext_keepsLaws.trans (hacked.trans (p.setLastGood_keepsLaws i))).lawful h
  · exact hparcel (p.parcelAttemptFailed_keepsOffParcels _) (fun h => Part.parcelAttemptFailed_lawful h _) h
  next i slot _ wanted f =>
    have hreplied : ((p.setLastGood i).segReplied slot wanted.toNat f).KeepsLaws (p.setLastGood i) :=
      .of_parcels (Part.segReplied_keepsOffParcels _ slot _ f) fun h => Part.segReplied_lawful h slot _ f
    exact (Part.parcelNext_keepsLaws.trans (hreplied.trans (p.setLastGood_keepsLaws i))).lawful h
  · exact hparcel (p.parcelAttemptFailed_keepsOffParcels _) (fun h => Part.parcelAttemptFailed_lawful h _) h
  all_goals exact h

theorem Part.slotEnd_lawful (h : p.Lawful A B C 0) (hstate : B → p.ladder.state ≠ .starting) (heard : SlotHeard) :
    (p.slotEnd heard).Lawful A B C 0 := by
  let q := p.takeSlot (slotReport heard p.frames.spill (p.frames.slotClash heard))
  have hq : q.Lawful A B C 0 := (p.takeSlot_keepsLaws _).lawful h
  unfold Part.slotEnd
  dsimp only
  split
  · exact Part.KeepsLaws.lawful (p := q) (.of_untouched ⟨rfl, rfl, rfl, rfl, rfl⟩) hq
  · exact Part.fetchPhase_lawful (Part.KeepsLaws.lawful (p := q) (.of_given rfl rfl rfl rfl id) hq) (by simpa using hstate)

end

section
variable {p : Part}

theorem Part.abandonSent_keepsLaws (slot : SlotIx) : (p.abandonSent slot).KeepsLaws p := by
  have hdone (q : Part) : (q.abandonDone slot).KeepsLaws q :=
    .of_parcels (q.abandonDone_keepsOffParcels slot) fun h => Part.abandonDone_lawful h slot
  exact Part.parcelNext_keepsLaws.trans ((hdone _).trans (p.frameState_keepsLaws .listening))

/-! ## The cycle (R29 to R31, R42) -/

theorem Part.startCycle_keepsLaws : p.startCycle.KeepsLaws p := by
  unfold Part.startCycle
  dsimp only
  exact (Part.requestTaken_keepsLaws _ false).trans (.of_untouched (by simp [Part.Untouched]))

theorem Part.closeInRun_keepsLaws : p.closeInRun.KeepsLaws p := by
  unfold Part.closeInRun
  split
  · exact Part.startCycle_keepsLaws.trans (p.modSched_keepsLaws _)
  · exact p.modSched_keepsLaws _

theorem Part.cycleExpiry_keepsLaws : p.cycleExpiry.KeepsLaws p := by
  unfold Part.cycleExpiry
  dsimp only
  split
  · exact Part.startCycle_keepsLaws.trans (p.modSched_keepsLaws _)
  split <;> exact .of_untouched (by simp [Part.Untouched])

theorem Part.settleParcelOpen_keepsLaws : p.settleParcelOpen.KeepsLaws p := by
  have hrewrites : p.openRewrites.KeepsLaws p := by
    unfold Part.openRewrites
    split
    · exact (Part.modSched_keepsLaws _ _).trans (.of_parcels p.retryAnswers_keepsOffParcels Part.retryAnswers_lawful)
    · exact .rfl
  have hpatience (q : Part) : q.openPatience.KeepsLaws q := by
    unfold Part.openPatience
    split
    · exact (Part.modSched_keepsLaws _ _).trans (.of_parcels q.lowerPatience_keepsOffParcels Part.lowerPatience_lawful)
    · exact .rfl
  have hscan (q : Part) : q.openScan.KeepsLaws q := by
    unfold Part.openScan
    split
    · exact (Part.scanTrigger_keepsLaws _).trans (q.modSched_keepsLaws _)
    · exact .rfl
  unfold Part.settleParcelOpen
  split
  · exact (hscan _).trans ((hpatience _).trans hrewrites)
  · exact .rfl

end

end Sys2Proof.Machine
end

section
/-! SUPPORT. The ladder under the laws of the three queues: the moves between its rungs, start-up, the requests, and held-line
service (R97, R147 to R157). -/

namespace Sys2Proof.Machine

/-! ## The moves between the rungs -/

section
variable {p q : Part}

/-- The ladder moves outside STARTING, and no FETCH is under way at the rung it comes to. -/
theorem Part.KeepsLaws.of_moves (hevents : q.events = p.events) (hrecords : q.table.records = p.table.records)
    (hparcels : q.parcels = p.parcels) (hstate : q.ladder.state ≠ .starting)
    (hfetches : (q.ladder.state ≠ .run ∧ q.ladder.state ≠ .heldService) ∨ q.frames.fetching = false) : q.KeepsLaws p := by
  have hnone : ¬ q.Fetches := by
    rintro ⟨hrung, hfetching⟩
    rcases hfetches with ⟨hrun, hservice⟩ | hnot
    · exact hrung.elim hrun hservice
    · cases hnot.symm.trans hfetching
  refine .of_stands (.of_events hrecords hevents) ?_ hparcels
  exact ⟨by rw [hevents], by rw [hevents], by rw [hevents], fun h => by rw [hevents]; exact h, fun h => absurd h hnone,
    fun h => absurd h hstate⟩

variable (p)

theorem Part.writeState_keepsLaws (state : LadderState) : (p.writeState state).KeepsLaws p := .of_untouched ⟨rfl, rfl, rfl, rfl, rfl⟩

theorem Part.enterRun_keepsLaws : p.enterRun.KeepsLaws p := by
  unfold Part.enterRun
  exact Part.startCycle_keepsLaws.trans (.of_moves rfl rfl rfl nofun (.inr rfl))

theorem Part.enterHeld_keepsLaws (named : Bool) : (p.enterHeld named).KeepsLaws p := .of_moves rfl rfl rfl nofun (.inr rfl)

theorem Part.enterResting_keepsLaws : p.enterResting.KeepsLaws p := .of_moves rfl rfl rfl nofun (.inr rfl)

theorem Part.enterRousing_keepsLaws : p.enterRousing.KeepsLaws p := .of_moves rfl rfl rfl nofun (.inr rfl)

theorem Part.enterSettling_keepsLaws : p.enterSettling.KeepsLaws p := .of_moves rfl rfl rfl nofun (.inl ⟨nofun, nofun⟩)

theorem Part.enterStill_keepsLaws : p.enterStill.KeepsLaws p := .of_moves rfl rfl rfl nofun (.inr rfl)

theorem Part.startupFail_keepsLaws : p.startupFail.KeepsLaws p := .of_moves rfl rfl rfl nofun (.inl ⟨nofun, nofun⟩)

theorem Part.report_keepsLaws (code : FaultCode) (detail : Half) : (p.report code detail).KeepsLaws p := by
  unfold Part.report Part.noteMemoryError
  split <;> exact .of_untouched ⟨rfl, rfl, rfl, rfl, rfl⟩

theorem Part.stateWordEnded_keepsLaws : p.stateWordEnded.KeepsLaws p := by
  unfold Part.stateWordEnded
  split
  · exact p.enterStill_keepsLaws
  · exact .rfl

/-! ## Start-up (R149) -/

theorem Part.startupRead_keepsLaws (s : Startup) (pos : StartPos) (offset : Nat) : (p.startupRead s pos offset).KeepsLaws p :=
  .of_untouched ⟨rfl, rfl, rfl, rfl, rfl⟩

theorem Part.startupWrite_keepsLaws (s : Startup) (pos : StartPos) (offset : Nat) (w : Word) :
    (p.startupWrite s pos offset w).KeepsLaws p := .of_untouched ⟨rfl, rfl, rfl, rfl, rfl⟩

theorem Part.sweepNext_keepsLaws (s : Startup) (slot : SlotIx) : (p.sweepNext s slot).KeepsLaws p := by
  unfold Part.sweepNext
  split
  · exact p.startupRead_keepsLaws _ _ _
  · split <;> exact .of_untouched ⟨rfl, rfl, rfl, rfl, rfl⟩

theorem Part.startupDone_keepsLaws (w : Word) : (p.startupDone w).KeepsLaws p := by
  let q : Part := { p with
    ladder := { p.ladder with startup := none }
    images := { p.images with takeOwed := true }
    parcels := { p.parcels with scanOwed := true } }
  let r := if w = stateWord (startupTarget q.ladder.pending) q.ladder.startCount then q else
    q.writeState (startupTarget q.ladder.pending)
  have hr : r.KeepsLaws p := by
    have hq : q.KeepsLaws p := .of_passes rfl rfl rfl rfl rfl rfl
    unfold r
    split
    · exact hq
    · exact (q.writeState_keepsLaws _).trans hq
  change (match r.ladder.pending with
    | some .run => r.enterRun
    | some .hold => (r.modLadder fun l => { l with pending := none }).enterHeld true
    | some .rest | some .still | none => r.enterHeld false).KeepsLaws p
  split
  · exact r.enterRun_keepsLaws.trans hr
  · exact (Part.enterHeld_keepsLaws _ true).trans (Part.KeepsLaws.trans (q := r) (.of_untouched ⟨rfl, rfl, rfl, rfl, rfl⟩) hr)
  all_goals exact (r.enterHeld_keepsLaws false).trans hr

theorem Part.keepStatusWord_keepsLaws (s : Startup) (i : NodeIx) (k : Nat) (w : Word) : (p.keepStatusWord s i k w).1.KeepsLaws p := by
  unfold Part.keepStatusWord
  split
  · exact .rfl
  split
  · exact (p.modNode_reacts i _).keepsLaws fun h => Part.modNode_queueOk h fun _ => ⟨rfl, rfl⟩
  split <;> exact .rfl

variable {p}

/-- The event list as start-up finds it: 64 records are taken to be in it, and nothing is claimed or appended yet (R110). -/
theorem Part.eventsWritten_keepsLaws (hstart : p.ladder.state = .starting) (w : Word) :
    ({ p with events := { p.events with written := w, taken := w - 64 } } : Part).KeepsLaws p := by
  refine ⟨Part.QueueStands.queueOk (.of_records rfl rfl fun _ => rfl), fun h => ?_, fun h => h⟩
  obtain ⟨hclaimed, happends⟩ := h.starting hstart
  refine ⟨?_, h.enough, fun hf => ?_, fun _ => ⟨hclaimed, happends⟩⟩
  · change (w - (w - 64)).toNat + p.events.claimed ≤ 64
    rw [hclaimed, sub_sub_cancel]
    decide
  · obtain ⟨hrung, -⟩ := hf
    rcases hrung with hrun | hservice
    · cases hstart.symm.trans hrun
    · cases hstart.symm.trans hservice

theorem Part.startupStep_keepsLaws (hstart : p.ladder.state = .starting) (w : Word) : (p.startupStep w).KeepsLaws p := by
  have hread (q : Part) (hq : q.KeepsLaws p) (s : Startup) (pos : StartPos) (offset : Nat) :
      (q.startupRead s pos offset).KeepsLaws p := (q.startupRead_keepsLaws s pos offset).trans hq
  unfold Part.startupStep
  split
  · exact .rfl
  next s _ =>
    split
    · exact hread p .rfl _ _ _
    · split
      · exact .of_untouched ⟨rfl, rfl, rfl, rfl, rfl⟩
      · exact (Part.startupFail_keepsLaws _).trans (p.report_keepsLaws _ _)
    · exact .of_untouched ⟨rfl, rfl, rfl, rfl, rfl⟩
    · exact .of_untouched ⟨rfl, rfl, rfl, rfl, rfl⟩
    · have hlist := Part.eventsWritten_keepsLaws hstart w
      dsimp only
      split
      · exact hread _ hlist _ _ _
      · exact hread _ hlist _ _ _
    · dsimp only
      split
      · exact hread p .rfl _ _ _
      · exact hread p .rfl _ _ _
    next i k _ =>
      have hkept := p.keepStatusWord_keepsLaws s i k.val w
      dsimp only
      split
      · exact hread _ hkept _ _ _
      split
      · exact hread _ hkept _ _ _
      · exact Part.KeepsLaws.trans (.of_untouched (by simp [Part.Untouched])) hkept
    · exact .rfl
    · exact hread p .rfl _ _ _
    · exact hread p .rfl _ _ _
    · split
      · exact p.startupWrite_keepsLaws _ _ _ _
      · exact p.sweepNext_keepsLaws _ _
    · exact p.startupWrite_keepsLaws _ _ _ _
    · exact (Part.sweepNext_keepsLaws _ _ _).trans (p.count_keepsLaws _)
    · exact p.startupDone_keepsLaws w

theorem Part.settleStartup_keepsLaws (p : Part) : p.settleStartup.KeepsLaws p := by
  unfold Part.settleStartup
  split
  · split
    · split
      · exact p.startupRead_keepsLaws _ _ _
      · exact p.startupFail_keepsLaws
    · exact .rfl
  · exact .rfl

end

/-! ## Resets, and the requests (R147 to R149) -/

section
variable {A B C : Prop} {k : Nat} {p q : Part}

/-- The event unit and the parcel unit at their reset values hold every law. -/
theorem Part.lawful_of_reset (hevents : p.events = EventUnit.reset) (hparcels : p.parcels = ParcelUnit.reset) (hrungs : ¬ p.Fetches) :
    p.Lawful A B C 0 := by
  refine ⟨fun _ => ?_, fun _ => ?_, fun _ => ?_⟩
  · rw [Part.queueOk_iff, hevents]
    have hlatch (i : NodeIx) : (p.nodeEvents i).latch = false := by
      rw [Part.nodeEvents, hevents, EventUnit.reset, tabFill_get]
      rfl
    refine ⟨List.nodup_nil, fun i => ?_, fun i hi => absurd hi List.not_mem_nil⟩
    rw [hlatch]
    exact ⟨fun hi => absurd hi List.not_mem_nil, nofun⟩
  · refine ⟨?_, ?_, fun h => absurd h hrungs, fun _ => ?_⟩ <;> rw [hevents]
    · decide
    · decide
    · exact ⟨rfl, rfl⟩
  · rw [hparcels]
    exact ⟨by decide, List.nodup_nil, nofun, fun e he => absurd he List.not_mem_nil, fun a ha => absurd ha List.not_mem_nil⟩

theorem Part.enterStarting_lawful (area : Word) (r : Request) : (p.enterStarting area r).Lawful A B C 0 := by
  let q := (p.modLadder fun l => { l with state := .starting, pending := some r }).resetWorkingUnits
  have hq : q.Lawful A B C 0 := Part.lawful_of_reset rfl rfl fun hf => hf.1.elim nofun nofun
  unfold Part.enterStarting
  dsimp only
  split
  · exact (q.startupRead_keepsLaws _ _ _).lawful hq
  · exact ((Part.startupFail_keepsLaws _).trans (q.report_keepsLaws _ _)).lawful hq

theorem Taken.lawful {area : Word} {r : Request} (ht : Taken p area r q) (h : p.Lawful A B C 0) : q.Lawful A B C 0 := by
  have hempty : p.emptySlot.KeepsLaws p := .of_untouched ⟨rfl, rfl, rfl, rfl, rfl⟩
  cases ht with
  | starts => exact Part.enterStarting_lawful area _
  | skips => exact ((p.emptySlot.report_keepsLaws _ _).trans hempty).lawful h
  | consumed => exact hempty.lawful h
  | kept => exact Part.KeepsLaws.lawful (p := p.emptySlot) (.of_untouched ⟨rfl, rfl, rfl, rfl, rfl⟩) (hempty.lawful h)
  | runs => exact ((Part.enterRun_keepsLaws _).trans ((p.emptySlot.writeState_keepsLaws _).trans hempty)).lawful h
  | rests => exact Part.KeepsLaws.lawful (p := p.emptySlot) (.of_given rfl rfl rfl rfl id) (hempty.lawful h)
  | rouses => exact (p.emptySlot.enterRousing_keepsLaws.trans hempty).lawful h
  | stills => exact Part.KeepsLaws.lawful (p := p.emptySlot) (.of_untouched ⟨rfl, rfl, rfl, rfl, rfl⟩) (hempty.lawful h)
  | settles => exact (p.emptySlot.enterSettling_keepsLaws.trans hempty).lawful h

theorem Part.takePending_lawful (h : p.Lawful A B C 0) (area : Word) : (p.takePending area).Lawful A B C 0 := by
  rcases p.takePending_cases area with heq | ⟨r, -, -, htaken⟩
  · rwa [heq]
  · exact htaken.lawful h

theorem Part.requestWritten_lawful (h : p.Lawful A B C 0) (area : Word) (r : Request) :
    (p.requestWritten area r).Lawful A B C 0 := by
  rcases p.requestWritten_cases area r with heq | ⟨-, htaken⟩
  · rw [heq]
    exact Part.KeepsLaws.lawful (p := p) (.of_untouched ⟨rfl, rfl, rfl, rfl, rfl⟩) h
  · exact htaken.lawful h

/-! ## The hold check (R41 to R43, R150) -/

theorem Part.judgeInRun_keepsLaws (p : Part) : p.judgeInRun.KeepsLaws p := by
  have hempty : p.emptySlot.KeepsLaws p := .of_untouched ⟨rfl, rfl, rfl, rfl, rfl⟩
  unfold Part.judgeInRun
  split
  · exact .rfl
  · split
    · exact .rfl
    · exact hempty
  · exact hempty
  · exact (p.emptySlot.report_keepsLaws _ _).trans hempty
  · exact (p.emptySlot.report_keepsLaws _ _).trans hempty

theorem Part.leaveRun_keepsLaws (p : Part) (named : Bool) : (p.leaveRun named).KeepsLaws p :=
  (Part.writeState_keepsLaws _ .held).trans (p.enterHeld_keepsLaws named)

theorem Part.closeComplete_keepsLaws (p : Part) : p.closeComplete.KeepsLaws p := by
  unfold Part.closeComplete
  split
  · split
    · exact (Part.leaveRun_keepsLaws _ _).trans p.judgeInRun_keepsLaws
    · exact Part.closeInRun_keepsLaws.trans p.judgeInRun_keepsLaws
  · exact .rfl

theorem Part.holdCheckStopped_keepsLaws (p : Part) : p.holdCheckStopped.KeepsLaws p := by
  unfold Part.holdCheckStopped
  split
  · exact (Part.leaveRun_keepsLaws _ _).trans p.judgeInRun_keepsLaws
  · exact .rfl

/-! ## Held-line service (R97, R152) -/

theorem Part.endService_keepsLaws (p : Part) : p.endService.KeepsLaws p := by
  let q := p.modLadder fun l => { l with state := .held, serviceWait := false, serviceRead := false }
  have hq : q.KeepsLaws p := .of_moves rfl rfl rfl nofun (.inl ⟨nofun, nofun⟩)
  unfold Part.endService
  dsimp only
  split
  · exact Part.KeepsLaws.trans (q := q) (.of_untouched (by simp [Part.Untouched, q])) hq
  · exact hq

theorem Part.serveNode_lawful (h : p.Lawful A B C 0) (hservice : p.ladder.state = .heldService) (hroom : 0 < p.events.freePlaces)
    (i : NodeIx) : (p.serveNode i).Lawful A B C 0 :=
  Part.giveFetch_lawful
    ((Part.modSched_keepsLaws _ _).lawful (Part.nameNode_lawful h (fun _ => by rw [hservice]; decide) hroom i)) i

theorem Part.serviceName_lawful (h : p.Lawful A B C 0) (hservice : p.ladder.state = .heldService) (i : NodeIx) :
    (p.serviceName i).Lawful A B C 0 := by
  unfold Part.serviceName
  split
  next hroom => exact Part.serveNode_lawful h hservice hroom i
  next =>
    exact (Part.requestTaken_keepsLaws _ true).lawful (Part.KeepsLaws.lawful (p := p) (.of_untouched ⟨rfl, rfl, rfl, rfl, rfl⟩) h)

theorem Part.serviceNext_lawful (h : p.Lawful A B C 0) (hservice : p.ladder.state = .heldService) :
    p.serviceNext.Lawful A B C 0 := by
  unfold Part.serviceNext
  split
  · exact p.endService_keepsLaws.lawful h
  split
  · exact Part.serviceName_lawful h hservice _
  split
  · exact p.endService_keepsLaws.lawful h
  split
  · have hround : p.newRound.Lawful A B C 0 := p.newRound_keepsLaws.lawful h
    dsimp only
    split
    · exact Part.serviceName_lawful hround hservice _
    · exact (Part.endService_keepsLaws _).lawful hround
  · exact Part.KeepsLaws.lawful (p := p) (.of_untouched ⟨rfl, rfl, rfl, rfl, rfl⟩) h

theorem Part.enterService_lawful (h : p.Lawful A B C 0) (hidle : p.frames.exchange = none) : p.enterService.Lawful A B C 0 := by
  let q := p.modLadder fun l => { l with state := .heldService, serviceWait := false, serviceRead := false }
  have hfetching : q.frames.fetching = false := by
    change p.frames.fetching = false
    rw [FrameEngine.fetching, hidle]
  have hq : q.KeepsLaws p := .of_moves rfl rfl rfl nofun (.inr hfetching)
  exact Part.serviceNext_lawful ((q.newRound_keepsLaws.trans hq).lawful h) rfl

theorem Part.serviceAfterRead_lawful (h : p.Lawful A B C 0) (hservice : p.ladder.state = .heldService) :
    p.serviceAfterRead.Lawful A B C 0 := by
  let q := p.modLadder fun l => { l with serviceRead := false }
  have hq : q.Lawful A B C 0 := Part.KeepsLaws.lawful (p := p) (.of_untouched ⟨rfl, rfl, rfl, rfl, rfl⟩) h
  unfold Part.serviceAfterRead
  dsimp only
  split
  · split
    next hroom => exact Part.serveNode_lawful hq hservice hroom _
    next => exact ((Part.endService_keepsLaws _).trans (q.count_keepsLaws _)).lawful hq
  · exact Part.serviceNext_lawful hq hservice

theorem Part.serviceOutcome_lawful {ex : Exchange} (h : p.Lawful A B C ex.places) (hservice : p.ladder.state = .heldService)
    (reply : Option Frame) : (p.serviceOutcome ex reply).Lawful A B C 0 := by
  have hstate : B → p.ladder.state ≠ .starting := fun _ => by rw [hservice]; decide
  unfold Part.serviceOutcome
  split
  · exact Part.serviceNext_lawful (Part.fetchGood_lawful h hstate _ _ _) (by simpa using hservice)
  · split
    · exact Part.serviceNext_lawful ((Part.miss_keepsLaws _ _).lawful (Part.releasePlace_lawful h)) (by simpa using hservice)
    · exact Part.giveFetch_lawful ((p.modSched_keepsLaws _).lawful h) _
  all_goals exact h

theorem Part.settleService_lawful (h : p.Lawful A B C 0) : p.settleService.Lawful A B C 0 := by
  unfold Part.settleService
  split
  next hwaits =>
    split
    · exact p.endService_keepsLaws.lawful h
    split
    · exact Part.serviceNext_lawful (Part.KeepsLaws.lawful (p := p) (.of_untouched ⟨rfl, rfl, rfl, rfl, rfl⟩) h) hwaits.1
    · exact h
  next => exact h

/-! ## Outcomes, and what follows an event (R59) -/

/-- The exchange that has ended leaves its place in hand. -/
theorem Part.exchangeEnded_lawful (h : p.Lawful A B C 0) {ex : Exchange} (hex : p.frames.exchange = some ex)
    (hrung : p.ladder.state = .run ∨ p.ladder.state = .heldService) : (p.frameState .listening).Lawful A B C ex.places := by
  have hended := (p.frameState_keepsLaws .listening).lawful h
  cases ex with
  | fetch i ack =>
    refine ⟨hended.queue, fun b => ?_, hended.parcels⟩
    have hplaces := h.places b
    have hfetches : p.Fetches := ⟨hrung, by rw [FrameEngine.fetching, hex]⟩
    exact ⟨hplaces.within, hplaces.fetching hfetches, fun hf => absurd hf (Part.not_fetches rfl), hplaces.starting⟩
  | _ => exact hended

theorem Part.returnOutcome_lawful (h : p.Lawful A B C 0) : p.returnOutcome.Lawful A B C 0 := by
  have hended := (p.frameState_keepsLaws .listening).lawful h
  unfold Part.returnOutcome
  split
  · exact h
  next ex hex =>
    dsimp only
    split
    next hrun => exact Part.takeOutcome_lawful (Part.exchangeEnded_lawful h hex (.inl hrun)) (fun _ => by rw [hrun]; decide) _
    next hservice => exact Part.serviceOutcome_lawful (Part.exchangeEnded_lawful h hex (.inr hservice)) hservice _
    all_goals exact hended

theorem Part.settle_lawful (h : p.Lawful A B C 0) : p.settle.Lawful A B C 0 := by
  have hnodes : p.settleNodeOpen.KeepsLaws p := by
    unfold Part.settleNodeOpen
    dsimp only
    (repeat' split) <;> exact .of_untouched (by simp [Part.Untouched])
  have hcheck (q : Part) : q.settleCheck.KeepsLaws q := .of_untouched (by simp [Part.Untouched])
  have hsnapshot (q : Part) : q.settleSnapshot.KeepsLaws q := .of_untouched (by simp [Part.Untouched])
  unfold Part.settle
  exact Part.settleService_lawful ((((Part.startAppend_keepsLaws _).trans ((hsnapshot _).trans (Part.settleParcelOpen_keepsLaws.trans
    ((Part.settleStartup_keepsLaws _).trans ((hcheck _).trans hnodes)))))).lawful h)

end

end Sys2Proof.Machine
end

section
/-! SUPPORT. The laws of the three queues over every step (O25). -/

namespace Sys2Proof.Machine

/-! ## Accesses that end (R170, R171) -/

section
variable {p : Part}

theorem Part.oweStatus_keepsLaws (p : Part) : p.oweStatus.KeepsLaws p := by
  unfold Part.oweStatus
  split
  · exact (p.modNode_reacts _ _).keepsLaws fun h => Part.modNode_queueOk h fun _ => ⟨rfl, rfl⟩
  · exact .rfl

theorem Part.nextStatus_keepsLaws (p : Part) (w : StatusWrite) : (p.nextStatus w).KeepsLaws p :=
  .of_untouched (by simp [Part.Untouched])

theorem Part.statusStep_keepsLaws (p : Part) (k : Fin 4) : (p.statusStep k).KeepsLaws p := by
  unfold Part.statusStep
  split
  next w rest _ =>
    split
    · exact .of_untouched ⟨rfl, rfl, rfl, rfl, rfl⟩
    · let q := p.modNode w.node fun r => { r with statusOwed := false }
      have hq : q.KeepsLaws p := (p.modNode_reacts _ _).keepsLaws fun h => Part.modNode_queueOk h fun _ => ⟨rfl, rfl⟩
      dsimp only
      split
      · have hfree : ({ q with events := { q.events with blockedBy := none } } : Part).KeepsLaws q :=
          .of_stands (.of_records rfl rfl fun _ => rfl) (.of_list rfl rfl rfl rfl rfl rfl rfl) rfl
        exact (Part.nextStatus_keepsLaws _ w).trans (hfree.trans hq)
      · exact (q.nextStatus_keepsLaws w).trans hq
  next => exact .rfl

theorem Part.statusFailed_keepsLaws (p : Part) : p.statusFailed.KeepsLaws p := by
  unfold Part.statusFailed
  split
  · exact (Part.nextStatus_keepsLaws _ _).trans p.oweStatus_keepsLaws
  · exact .rfl

theorem Part.takeParcelEnd_keepsLaws (p : Part) (e : ParcelEnd) : (p.takeParcelEnd e).KeepsLaws p :=
  .of_parcels (p.takeParcelEnd_keepsOffParcels e) fun h => Part.takeParcelEnd_lawful h e

theorem Part.resumeParcels_keepsLaws (p : Part) : p.resumeParcels.KeepsLaws p :=
  .of_parcels p.resumeParcels_keepsOffParcels Part.resumeParcels_lawful

theorem Part.outputTake_keepsLaws (p : Part) (w : Word) : (p.outputTake w).KeepsLaws p := by
  unfold Part.outputTake
  dsimp only
  (repeat' split) <;> exact .of_untouched ⟨rfl, rfl, rfl, rfl, rfl⟩

theorem Part.withdrawEnded_keepsLaws (p : Part) (w : Word) : (p.withdrawEnded w).KeepsLaws p := by
  unfold Part.withdrawEnded
  split
  · exact Part.withdrawRead_keepsLaws _ w
  · exact .rfl

theorem Part.startupLoss_keepsLaws (p : Part) (source : Source) : (p.startupLoss source).KeepsLaws p := by
  cases source with
  | loader => exact .of_untouched (by simp [Part.Untouched, Part.startupLoss])
  | status _ => exact p.oweStatus_keepsLaws
  | _ => exact .rfl

variable {A B C : Prop}

theorem Part.afterTaken_lawful (h : p.Lawful A B C 0) : p.afterTaken.Lawful A B C 0 := by
  unfold Part.afterTaken
  split
  next hrun =>
    split
    · exact Part.fetchAfterRead_lawful h fun _ => by rw [hrun]; decide
    · exact h
  next hservice =>
    split
    · exact Part.serviceAfterRead_lawful h hservice
    · exact h
  all_goals exact h

theorem Part.takenEnded_lawful (h : p.Lawful A B C 0) (w : Word) : (p.takenEnded w).Lawful A B C 0 := by
  unfold Part.takenEnded
  split
  next r _ =>
    have hafter := Part.afterTaken_lawful ((p.takenValue_keepsLaws w r.onFetch).lawful h)
    dsimp only
    split
    · exact (Part.offerNote_keepsLaws _).lawful hafter
    · exact hafter
  next => exact h

theorem Part.accessDone_lawful (h : p.Lawful A B C 0) (source : Source) (w : Word) : (p.accessDone source w).Lawful A B C 0 := by
  cases source with
  | stateWord => exact p.stateWordEnded_keepsLaws.lawful h
  | startup =>
    unfold Part.accessDone
    dsimp only
    split
    next hstart => exact (Part.startupStep_keepsLaws hstart w).lawful h
    next => exact h
  | loader => exact (p.continueCheck_keepsLaws w).lawful h
  | status k => exact (p.statusStep_keepsLaws k).lawful h
  | outTake => exact (p.outputTake_keepsLaws w).lawful h
  | slice => exact (p.continueSlice_keepsLaws w).lawful h
  | cycleWord => exact p.closeComplete_keepsLaws.lawful h
  | eventsTaken => exact Part.takenEnded_lawful h w
  | append => exact p.continueAppend_keepsLaws.lawful h
  | walk => exact (p.takeParcelEnd_keepsLaws _).lawful h
  | withdraw => exact (p.withdrawEnded_keepsLaws w).lawful h
  | answer => exact (p.takeParcelEnd_keepsLaws _).lawful h
  | _ => exact Part.KeepsLaws.lawful (p := p) (.of_untouched (by simp [Part.Untouched, Part.accessDone, Part.imageIsReady])) h

theorem Part.blockFailed_lawful (h : p.Lawful A B C 0) (source : Source) : (p.blockFailed source).Lawful A B C 0 := by
  cases source with
  | stateWord => exact p.stateWordEnded_keepsLaws.lawful h
  | loader => exact p.checkFailed_keepsLaws.lawful h
  | status k => exact p.statusFailed_keepsLaws.lawful h
  | slice => exact p.sliceFailed_keepsLaws.lawful h
  | cycleWord => exact p.closeComplete_keepsLaws.lawful h
  | eventsTaken => exact Part.afterTaken_lawful (p.takenLost_keepsLaws.lawful h)
  | append => exact p.appendFailed_keepsLaws.lawful h
  | walk => exact (p.takeParcelEnd_keepsLaws _).lawful h
  | withdraw =>
    unfold Part.blockFailed
    dsimp only
    split
    · exact (Part.withdrawLost_keepsLaws _).lawful h
    · exact h
  | answer => exact (p.takeParcelEnd_keepsLaws _).lawful h
  | _ => exact Part.KeepsLaws.lawful (p := p) (.of_untouched (by simp [Part.Untouched, Part.blockFailed, Part.imageIsReady])) h

theorem Part.accessFailed_lawful (h : p.Lawful A B C 0) (a : Access) : (p.accessFailed a).Lawful A B C 0 := by
  have hreported := (p.report_keepsLaws .memory (BitVec.ofNat 16 a.offset)).lawful h
  unfold Part.accessFailed
  dsimp only
  split
  · exact ((Part.startupFail_keepsLaws _).trans (Part.startupLoss_keepsLaws _ _)).lawful hreported
  · exact (Part.holdCheckStopped_keepsLaws _).lawful (Part.blockFailed_lawful hreported _)

end

/-! ## NUDGE, ALERT and what arrives (R58 to R61, R153, R154) -/

section
variable (p : Part)

theorem Part.nudge_keepsLaws : p.nudge.KeepsLaws p := by
  have howes : (p.modLoader fun l => { l with checkOwed := true }).KeepsLaws p := .of_untouched ⟨rfl, rfl, rfl, rfl, rfl⟩
  unfold Part.nudge
  split
  · exact (Part.scanTrigger_keepsLaws _).trans (p.requestTaken_keepsLaws false)
  · dsimp only
    refine (Part.requestTaken_keepsLaws _ false).trans ?_
    split
    · exact .of_untouched (by simp [Part.Untouched])
    · exact howes
  · exact (Part.requestTaken_keepsLaws _ false).trans ((Part.scanTrigger_keepsLaws _).trans howes)
  all_goals exact .rfl

theorem Part.takeAlert_keepsLaws (address : Byte) : (p.takeAlert address).KeepsLaws p := by
  have hasks : ((p.count .alertsReceived).requestTaken false).KeepsLaws p :=
    (Part.requestTaken_keepsLaws _ false).trans (p.count_keepsLaws _)
  unfold Part.takeAlert
  dsimp only
  split
  · exact (Part.nodeAlert_keepsLaws _ _).trans hasks
  · exact (Part.sighting_keepsLaws _ _ _ _).trans hasks

theorem Part.unsolicitedFrame_keepsLaws (frame : Option Frame) : (p.unsolicitedFrame frame).KeepsLaws p := by
  have hstray : p.strayFrame.KeepsLaws p := by
    unfold Part.strayFrame
    split
    · exact p.count_keepsLaws _
    · exact .rfl
  unfold Part.unsolicitedFrame
  split
  · split
    · exact p.takeAlert_keepsLaws _
    · exact hstray
  · exact hstray

theorem Part.unsolicitedItems_keepsLaws (items : List LineItem) : (p.unsolicitedItems items).KeepsLaws p := by
  let q := (framesHeard (p.frames.uncounted items)).foldl Part.unsolicitedFrame p
  have hframes : q.KeepsLaws p :=
    foldl_relates Part.KeepsLaws .rfl (fun h k => h.trans k) _ (fun q f => q.unsolicitedFrame_keepsLaws f) _ _
  unfold Part.unsolicitedItems
  exact Part.KeepsLaws.trans (q := q) (.of_untouched ⟨rfl, rfl, rfl, rfl, rfl⟩) hframes

/-- What the frame engine does on the line keeps the exchange it was given. -/
theorem Part.KeepsLaws.of_line {p q : Part} (hkeeps : q.KeepsOffLine p) (hexchange : q.frames.exchange = p.frames.exchange) :
    q.KeepsLaws p := by
  obtain ⟨hladder, -, htable, -, -, hevents, hparcels, -⟩ := hkeeps
  exact .of_untouched ⟨hevents, by rw [htable], by rw [hladder], hexchange, hparcels⟩

@[simp] theorem Part.decideAttempt_exchange (a : Attempt) (rx : Option Frame) :
    (p.decideAttempt a rx).frames.exchange = p.frames.exchange := by
  unfold Part.decideAttempt
  dsimp only
  split <;> rfl

@[simp] theorem Part.guardCarrier_exchange : p.guardCarrier.frames.exchange = p.frames.exchange := by
  unfold Part.guardCarrier
  split <;> simp

@[simp] theorem Part.carrierInGuard_exchange (items : List LineItem) : (p.carrierInGuard items).frames.exchange = p.frames.exchange := by
  unfold Part.carrierInGuard
  split <;> simp

@[simp] theorem Part.judgeReply_exchange (ex : Exchange) (items : List LineItem) :
    (p.judgeReply ex items).frames.exchange = p.frames.exchange := by
  unfold Part.judgeReply
  split
  · simp
  · split <;> simp

theorem Part.replyFrameEnd_keepsLaws (items : List LineItem) : (p.replyFrameEnd items).KeepsLaws p := by
  refine .of_line (p.replyFrameEnd_keepsOffLine items) ?_
  unfold Part.replyFrameEnd
  split
  · split
    · rfl
    · dsimp only
      split <;> simp
  · rfl

theorem Part.lineActivity_keepsLaws : p.lineActivity.KeepsLaws p := by
  unfold Part.lineActivity
  split
  · exact .rfl
  · exact .of_untouched ⟨rfl, rfl, rfl, rfl, rfl⟩

theorem Part.carrier_keepsLaws (items : List LineItem) : (p.carrier items).KeepsLaws p := by
  unfold Part.carrier
  split
  · exact p.unsolicitedItems_keepsLaws items
  split
  · exact p.replyFrameEnd_keepsLaws items
  · exact p.replyFrameEnd_keepsLaws items
  · exact .of_line (p.carrierInGuard_keepsOffLine items) (by simp)
  · exact p.lineActivity_keepsLaws
  · exact p.unsolicitedItems_keepsLaws _
  all_goals exact .rfl

end

/-! ## Every command -/

section
variable {A B C : Prop} {c : Instr} {s : State}

theorem Part.writeCause_lawful {p : Part} (h : p.Lawful A B C 0) (area : Word) (v : Byte) : (p.writeCause area v).Lawful A B C 0 := by
  have hcleared : (p.causeCleared v).Lawful A B C 0 := Part.KeepsLaws.lawful (p := p) (.of_untouched ⟨rfl, rfl, rfl, rfl, rfl⟩) h
  rw [Part.writeCause_eq]
  split
  · exact Part.takePending_lawful hcleared area
  · exact hcleared

theorem Plain.lawful {f : Part → Part} (event : Plain c s f) (h : s.part.Lawful A B C 0) : (f s.part).Lawful A B C 0 := by
  have line {q : Part} (hkeeps : q.KeepsOffLine s.part) (hexchange : q.frames.exchange = s.part.frames.exchange) :
      q.Lawful A B C 0 := (Part.KeepsLaws.of_line hkeeps hexchange).lawful h
  cases event with
  | misuse detail => exact (s.part.report_keepsLaws _ _).lawful h
  | cause v => exact Part.writeCause_lawful h _ _
  | frameStart =>
    refine line s.part.frameStart_keepsOffLine ?_
    unfold Part.frameStart
    dsimp only
    (repeat' split) <;> rfl
  | requestSent =>
    refine line s.part.requestSent_keepsOffLine ?_
    unfold Part.requestSent
    (repeat' split) <;> rfl
  | replyTimerLimit =>
    refine line s.part.replyTimerLimit_keepsOffLine ?_
    unfold Part.replyTimerLimit
    split <;> simp
  | replyFrameEnd items => exact (s.part.replyFrameEnd_keepsLaws items).lawful h
  | lineClash =>
    refine line s.part.lineClash_keepsOffLine ?_
    unfold Part.lineClash Part.strayClash Part.strayFrame
    (repeat' split) <;> simp
  | rouseSent =>
    exact Part.KeepsLaws.lawful (p := s.part.frameState .listening) (.of_untouched ⟨rfl, rfl, rfl, rfl, rfl⟩)
      ((s.part.frameState_keepsLaws .listening).lawful h)
  | activity => exact s.part.lineActivity_keepsLaws.lawful h
  | _ => exact Part.KeepsLaws.lawful (p := s.part) (.of_untouched (by simp [Part.Untouched])) h

theorem Acts.lawful {f : Part → Part} (event : Acts c s f) (h : s.part.Lawful A B C 0)
    (hstopped : B → s.part.ladder.state ≠ .run → s.part.sched.state = .stopped) : (f s.part).Lawful A B C 0 := by
  have hpass (dt : Nat) : (s.part.passTime dt).Lawful A B C 0 := (s.part.modSched_keepsLaws _).lawful h
  cases event with
  | request r nudge =>
    cases nudge with
    | false => exact Part.requestWritten_lawful h _ r
    | true => exact Part.requestWritten_lawful (s.part.nudge_keepsLaws.lawful h) _ r
  | nudge => exact s.part.nudge_keepsLaws.lawful h
  | cause v => exact Part.writeCause_lawful h _ _
  | cycleExpiry => exact Part.cycleExpiry_keepsLaws.lawful h
  | reprobe i => exact (s.part.reprobe_keepsLaws i).lawful h
  | patience slot =>
    exact (Part.KeepsLaws.of_parcels (s.part.patienceExpired_keepsOffParcels slot) fun hp => Part.patienceExpired_lawful hp slot).lawful h
  | period => exact Part.KeepsLaws.lawful (p := s.part) (.of_untouched (by simp [Part.Untouched])) h
  | openReady dt ready =>
    have hpolls : (s.part.passTime dt).enterPolling.Lawful A B C 0 :=
      Part.KeepsLaws.lawful (p := s.part.passTime dt) (.of_untouched ⟨rfl, rfl, rfl, rfl, rfl⟩) (hpass dt)
    refine Part.pollNext_lawful hpolls fun b hstart => ?_
    have hstart : s.part.ladder.state = .starting := hstart
    have hidle := hstopped b (by rw [hstart]; decide)
    simp [Part.openIsReady, hidle] at ready
  | guardEnd dt => exact Part.returnOutcome_lawful (hpass dt)
  | slotEnd heard dt run => exact Part.slotEnd_lawful (hpass dt) (fun _ => by simp [run]) heard
  | abandonSent dt slot => exact (Part.abandonSent_keepsLaws slot).lawful (hpass dt)
  | holdSent =>
    have hsent := (s.part.frameState_keepsLaws .listening).lawful h
    refine Part.takePending_lawful ?_ _
    split <;> exact Part.KeepsLaws.lawful (p := s.part.frameState .listening) (.of_untouched ⟨rfl, rfl, rfl, rfl, rfl⟩) hsent
  | restSent => exact Part.takePending_lawful (s.part.enterResting_keepsLaws.lawful h) _
  | heldQuiet => exact Part.takePending_lawful h _
  | service allowed =>
    refine Part.enterService_lawful h ?_
    simp only [Part.serviceAllowed, Bool.and_eq_true] at allowed
    simpa using allowed.1.2
  | rouse =>
    have hroused : s.part.roused.KeepsLaws s.part :=
      .of_moves rfl rfl rfl (fun hs : LadderState.held = .starting => by cases hs) (.inr rfl)
    rw [Part.rouseExpired_eq]
    exact ((Part.judgeKept_keepsLaws _).trans ((Part.resumeParcels_keepsLaws _).trans hroused)).lawful h
  | settle =>
    let q := s.part.modLadder fun l => { l with settle := none }
    have hq : q.Lawful A B C 0 := Part.KeepsLaws.lawful (p := s.part) (.of_untouched ⟨rfl, rfl, rfl, rfl, rfl⟩) h
    exact Part.takePending_lawful (q.enterResting_keepsLaws.lawful hq) _
  | alert address =>
    exact (Part.carrier_keepsLaws _ _).lawful (Part.KeepsLaws.lawful (p := s.part) (.of_untouched ⟨rfl, rfl, rfl, rfl, rfl⟩) h)
  | unsolicited items => exact (s.part.carrier_keepsLaws items).lawful h

theorem Ends.lawful {x : Access} {f : Part → Part} (ends : Ends x f) {p : Part} (h : p.Lawful A B C 0) : (f p).Lawful A B C 0 := by
  have hpass (dt : Nat) : (p.passTime dt).Lawful A B C 0 := (p.modSched_keepsLaws _).lawful h
  cases ends with
  | done dt w => exact Part.accessDone_lawful (hpass dt) _ w
  | failed dt => exact Part.accessFailed_lawful (hpass dt) x

theorem State.act_lawful {s : State} {f : Part → Part} (h : (f s.part).Lawful A B C 0) : (s.act f).part.Lawful A B C 0 :=
  Part.KeepsLaws.lawful (p := (f s.part).settle) (.of_untouched ⟨rfl, rfl, rfl, rfl, rfl⟩) (Part.settle_lawful h)

theorem Reaction.lawful {q : Part} (reaction : Reaction c s q) (h : s.part.Lawful A B C 0)
    (hstopped : B → s.part.ladder.state ≠ .run → s.part.sched.state = .stopped) : q.Lawful A B C 0 := by
  cases reaction with
  | same => exact h
  | reset => exact Part.lawful_of_reset rfl rfl fun hf => hf.1.elim nofun nofun
  | plain event => exact event.lawful h
  | acts event => exact State.act_lawful (event.lawful h hstopped)
  | word x mem current ends =>
    exact State.act_lawful (ends.lawful (Part.KeepsLaws.lawful (p := s.part) (.of_untouched ⟨rfl, rfl, rfl, rfl, rfl⟩) h))

theorem step_lawful {t : State} (h : s.part.Lawful A B C 0)
    (hstopped : B → s.part.ladder.state ≠ .run → s.part.sched.state = .stopped) (hstep : step s = .next t) :
    t.part.Lawful A B C 0 := by
  rcases step_cases hstep with rfl | ⟨c, rest, -, hexec⟩
  · exact h
  · exact (exec_reaction hexec).lawful h hstopped

end

/-- Settles O25: each operation of the blocks keeps each of the three laws on its own account, with the places counted that it has in
hand, and every command comes to one of them. -/
theorem queueLawsKept : Obligations.QueueLawsKept := by
  refine ⟨fun s t hs hstep => ?_, fun s t hstopped hs hstep => ?_, fun s t hs hstep => ?_⟩
  · have h : s.part.Lawful True False False 0 := ⟨fun _ => hs, nofun, nofun⟩
    exact (step_lawful h nofun hstep).queue trivial
  · have h : s.part.Lawful False True False 0 := ⟨nofun, fun _ => s.part.placesOk_iff.mp hs, nofun⟩
    exact t.part.placesOk_iff.mpr ((step_lawful h (fun _ => hstopped) hstep).places trivial)
  · have h : s.part.Lawful False False True 0 := ⟨nofun, nofun, fun _ => s.part.parcelsOk_iff.mp hs⟩
    exact t.part.parcelsOk_iff.mpr ((step_lawful h nofun hstep).parcels trivial)

end Sys2Proof.Machine
end
